-- ==== Sys2Proof/Word.lean ====
section
/-!
DEFINITION. Word.lean: the word types. A register is a 32-bit word (R4); addresses, indices and counts that the spec
adds and compares are natural numbers.
-/
namespace Sys2Proof

/-- A byte of DRAM, MRAM, an image or a packet. -/
abbrev Byte := BitVec 8
/-- A 16-bit word. -/
abbrev Half := BitVec 16
/-- A register or table word (R4). -/
abbrev Word := BitVec 32
/-- A 64-bit value: a register pair (R88), a fence (R147), a die identity. -/
abbrev DWord := BitVec 64

end Sys2Proof
end

