-- ==== Sys2Proof/Syntax/Packets.lean ====
section
/-!
DEFINITION. Syntax/Packets.lean: the kinds of operand that commands carry: host ports and link symbols.
-/
namespace Sys2Proof

/-- The port a host access came through (R84; SOURCE of SYS.X_REFUSED_ADDR). -/
inductive Port where
  | pcie
  | spi
  deriving DecidableEq, Repr

/-- What one run of a background self-test finds (R517, R518). -/
inductive Health where
  | pass
  | fail
  /-- its resource carried work throughout the period -/
  | notRun
  /-- the SRAM scrub corrected this many words -/
  | corrected (words : Nat)
  /-- the margin of a lane in 1/256 UI: block number, port, lane -/
  | margin (block port lane m : Nat)
  deriving DecidableEq, Repr

/-- A J-Link symbol as the 8b/10b decoder of a lane gives it (R180). `err`: any other K symbol, a code violation or a
disparity error. -/
inductive Sym where
  | data (b : Byte)
  /-- K28.5: header of a data block, comma of idle payload -/
  | k285
  /-- K28.1: header of a control block -/
  | k281
  /-- K28.0: header of an idle block -/
  | k280
  /-- K27.7 -/
  | sop
  /-- K29.7 -/
  | eop
  /-- K30.7 -/
  | abort
  /-- K23.7 -/
  | fill
  | err
  deriving DecidableEq, Repr

/-- A PTP message (R252, R253). `src`: the sender's port identity; times in ns, corrections in 2^-16 ns. -/
inductive PtpMsg where
  /-- grandmaster identity, data set in comparison order, UTC offset -/
  | announce (src gm : Nat) (set : List Nat) (utc : Int)
  | sync (src seq : Nat) (twoStep : Bool) (origin corr : Int)
  | followUp (src seq : Nat) (origin corr : Int)
  /-- answers this device's Delay_Req -/
  | delayResp (src seq : Nat) (receive corr : Int)
  | pdelayReq (src seq : Nat)
  /-- answers this device's Pdelay_Req: time of receipt at the peer -/
  | pdelayResp (seq : Nat) (twoStep : Bool) (receipt corr : Int)
  | pdelayFollowUp (seq : Nat) (origin corr : Int)
  | other
  deriving DecidableEq, Repr

/-- What an Ethernet frame carries (R217, R224). -/
inductive EthContent where
  /-- an RTP packet: version, payload type, SSRC, sequence number, timestamp, marker, payload (R227 to R229) -/
  | rtp (version pt : Nat) (ssrc : Word) (seq : Nat) (ts : Word) (marker : Bool) (payload : List Byte)
  /-- another UDP datagram -/
  | udp
  /-- a PTP message in a domain -/
  | ptp (domain : Nat) (m : PtpMsg)
  /-- an ARP or IPv6 ND request for an address -/
  | ask (address : List Byte)
  | igmp
  | mld
  /-- ICMP, TCP, DHCP or anything else that R215 does not support -/
  | other
  deriving DecidableEq, Repr

/-- A received Ethernet frame as its standards' fields (R215 to R217, R224). -/
structure EthFrame where
  /-- bytes, FCS included -/
  len : Nat
  fcsOk : Bool
  /-- the receive FIFO was full as it arrived -/
  fifoFull : Bool
  /-- IP and UDP validity of R215 but for checksums: not fragmented, no unsupported header, no second VLAN tag -/
  valid : Bool
  /-- IP and UDP checksums, and no IPv6 zero checksum -/
  sumOk : Bool
  /-- VID, 0 untagged -/
  vlan : Nat
  ipv6 : Bool
  /-- destination and source address, in the layout of R221: 16 bytes, IPv4 in bytes 12 to 15 -/
  dst : List Byte
  src : List Byte
  udp : Nat
  content : EthContent
  deriving DecidableEq, Repr

/-- Why ETH ports go down (R161, R220): ETHn has lost its lock, or ETH_REFCLK is absent, which takes every port down. -/
inductive EthLoss where
  | lock (n : Nat)
  | ref
  deriving DecidableEq, Repr

/-- A membership query (R215, R219): by MLD or by IGMP, of the older version (IGMPv2, MLDv1) or not, for one group or
general. -/
structure MemberQuery where
  ip6   : Bool
  old   : Bool
  group : Option (List Byte)
  deriving DecidableEq, Repr

/-- What an Announce message says of its master (R252): source port identity, grandmaster, data set in comparison
order. -/
structure AnnounceSet where
  src : Nat
  gm  : Nat
  set : List Nat
  deriving DecidableEq, Repr

/-- Profiles of R237; `other`: any other one. -/
inductive VideoProfile where
  | constrainedBaseline | main | high | hevcMain | hevcMain10 | other
  deriving DecidableEq, Repr

/-- What the sequence of a picture says of itself (R237, R238, R243). -/
structure SeqInfo where
  profile : VideoProfile
  /-- level in tenths: 51 is level 5.1 -/
  level : Nat
  highTier : Bool
  /-- field or MBAFF coding -/
  interlaced : Bool
  /-- 4:0:0; otherwise 4:2:0 -/
  mono : Bool
  /-- another chroma format, or another feature that R237 does not list -/
  otherFeature : Bool
  depth : Nat
  /-- coded luma width and height -/
  codedW : Nat
  codedH : Nat
  /-- width and height after the conformance window or frame cropping -/
  w : Nat
  h : Nat
  /-- DPB pictures the sequence needs -/
  dpb : Nat
  /-- max_num_reorder_frames or sps_max_num_reorder_pics, where it is signalled -/
  reorder : Option Nat
  deriving DecidableEq, Repr

/-- A DRAM access of a decoder core (R104, R242): first byte, bytes, direction, and the reference picture it reads. -/
structure CoreAccess where
  addr : Nat
  len : Nat
  write : Bool
  ref : Option Nat
  deriving DecidableEq, Repr

/-- A decoded sample: a value, or sample (x, y) of the same plane of reference picture `ref` plus a residual (R245). -/
inductive DecSample where
  | value (v : Nat)
  | pred (ref x y : Nat) (res : Int)
  deriving DecidableEq, Repr

/-- What a decoder core finds in an access unit: the bitstream's own facts, by the video standards that R237 names
(DESIGN CHOICE, assumption 32). Pictures are named by their PIC_COUNT. -/
structure Decoded where
  /-- a NAL unit failed to parse (R244) -/
  badNal : Bool
  seq : SeqInfo
  /-- picture order count -/
  poc : Int
  /-- pictures it refers to -/
  refs : List Nat
  /-- the core's DRAM accesses -/
  accesses : List CoreAccess
  /-- samples of the blocks that were decoded, keyed as in an image; every other block takes mid-level (R245) -/
  samples : List (Nat × DecSample)
  /-- skip blocks and all 8 × 8 luma blocks (R249) -/
  skips : Nat
  blocks : Nat
  /-- motion magnitude of each inter block (R249) -/
  motion : List Nat
  /-- coded bits of each 64 luma lines (R249) -/
  rowBits : List Nat
  /-- it discards earlier pictures not yet output (no_output_of_prior_pics_flag) -/
  noPrior : Bool
  /-- pictures no longer used for reference after it, itself among them where it is no reference picture -/
  unref : List Nat
  deriving DecidableEq, Repr

end Sys2Proof
end

