-- ==== Sys2Proof/Syntax.lean ====
section
/-!
DEFINITION. Syntax.lean: the commands of the block, one constructor per row of spec/opcode_table.json, with the
operands that the outside world supplies (the port and value of an access, the fields of a packet, the reading of a
sensor). What the spec lets the device itself hold (a queue record in DRAM, a program word, a submitted image) is no
operand: it is read from the state.
-/
namespace Sys2Proof

/-- The commands, in the order of spec/opcode_table.json. -/
inductive Instr where
  /-- REGISTER_WRITE (R7): A host write to a register or table word that has no row of its own acts by its field access codes, shadowed fields landing in their shadows and refused X writes changing nothing. -/
  | registerWrite (p : Port) (off : Nat) (v : Word)
  /-- LEVEL_KEY (R14): A write to SYS.LEVEL_KEY advances or restarts the two-word key sequence that opens X access. -/
  | levelKey (p : Port) (v : Word)
  /-- KEY_WINDOW_EXPIRE (R14): the 1 ms after a first key word passes without the second word, so the attempt ends with X access closed. -/
  | keyWindowExpire
  /-- LEVEL_STATUS_CLOSE (R97): A write of 1 to SYS.LEVEL_STATUS.CLOSE closes X access. -/
  | levelStatusClose (p : Port)
  /-- BAR2_BASE_WRITE (R76): A write to HIF.BAR2_BASE moves the DRAM window for every BAR2 request that arrives after it. -/
  | bar2BaseWrite (p : Port) (v : Word)
  /-- BAR2_ACCESS (R77): A host access through BAR2 reaches raw DRAM if the level and region allow it, and is otherwise refused or sent to the default target. -/
  | bar2Access (off n : Nat) (data : Option (List Byte))
  /-- DEFAULT_TARGET_ACCESS (R103): an access to an unmapped or reserved address, or one that breaks R4, gets an error response or is discarded, and BUS_DEFAULT or BUS_WIDTH sets. -/
  | defaultTargetAccess (p : Port) (m : Nat) (write dram : Bool) (addr width beats : Nat)
  /-- INT_STATUS_WRITE (R91): A W1C write to a block's INT_STATUS clears its flags, after which vectors 18 and 62 are sent again if their conditions still hold. -/
  | intStatusWrite (p : Port) (k : Nat) (v : Word)
  /-- INT_FORCE (R86): A write to INT_FORCE creates flag events exactly as hardware would. -/
  | intForce (p : Port) (k : Nat) (v : Word)
  /-- MSIX_UNMASK (R91): unmasking an MSI-X vector whose pending bit is set sends its message. -/
  | msixUnmask (p : Port) (vec : Nat)
  /-- HOST_LINK_RESET (R165): PCIE_PERST_N low, a hot reset or a link-down reset resets only the PCIe configuration, while everything else runs on. -/
  | hostLinkReset
  /-- PCIE_LINK_LOSS (R74): D3hot or PCIe link loss cuts host access only, while outputs, engines, twin and cascade keep running. -/
  | pcieLinkLoss
  /-- SPI_REG_WRITE (R81): an SPI REG_WRITE frame is checked at the rise of SPI_CS_N and its words are written in order, or nothing is written and SPI_CRC or SPI_ACCESS sets. -/
  | spiRegWrite (frame : List Byte)
  /-- SPI_REG_READ (R82): an SPI REG_READ frame reads each register word just before the word is driven, with the CRC driven after the data. -/
  | spiRegRead (addr count driven : Nat)
  /-- SPI_DRAM_WRITE (R81): an SPI DRAM_WRITE frame is checked at the rise of SPI_CS_N and its DRAM words are written, or nothing is written. -/
  | spiDramWrite (frame : List Byte)
  /-- SPI_DRAM_READ (R82): an SPI DRAM_READ frame reads each DRAM word just before the word is driven. -/
  | spiDramRead (addr count driven : Nat)
  /-- GET_STATUS (R83): an SPI GET_STATUS frame returns the status byte and changes nothing. -/
  | getStatus
  /-- SPI_OTHER_OPCODE (R78): an SPI frame with an unknown opcode is ignored until SPI_CS_N rises. -/
  | spiOtherOpcode (op : Nat)
  /-- GET_VERSION (R110): the GET_VERSION mailbox request returns the firmware version, GEN_FLOOR and the running generation. -/
  | getVersion (p : Port)
  /-- IMAGE_LOAD (R110): the IMAGE_LOAD mailbox request submits a full or delta image in DRAM to the loader. -/
  | imageLoad (p : Port)
  /-- IMAGE_CHECK (R63): the loader checks a submitted image once the load window is free, accepts or refuses it, and posts one load result. -/
  | imageCheck
  /-- LOAD_ACK (R94): A write of the current SEQ to SYS.LOAD_ACK consumes the load result, and any other value is ignored. -/
  | loadAck (p : Port) (v : Word)
  /-- COPY_WRITE (R112): the COPY_WRITE mailbox request checks an image as a boot copy, writes it to copy A, B or C and reads it back. -/
  | copyWrite (p : Port)
  /-- COPY_CHECK (R110): the COPY_CHECK mailbox request runs the integrity checks on one boot copy and returns its code and generation. -/
  | copyCheck (p : Port)
  /-- KEY_PROVISION (R110): the KEY_PROVISION mailbox request writes a public-key digest into an EMPTY key slot. -/
  | keyProvision (p : Port)
  /-- KEY_REVOKE (R110): the KEY_REVOKE mailbox request revokes an ACTIVE key slot for good, unless it is the last ACTIVE slot. -/
  | keyRevoke (p : Port)
  /-- KEY_STATUS (R110): the KEY_STATUS mailbox request returns the state of the four key slots. -/
  | keyStatus (p : Port)
  /-- GEN_FLOOR_SET (R110): the GEN_FLOOR_SET mailbox request raises GEN_FLOOR, but never above the running generation. -/
  | genFloorSet (p : Port)
  /-- PATCH_INSTALL (R115): the PATCH_INSTALL mailbox request checks a Voxak-signed patch and writes it to MRAM, to run from the next reset. -/
  | patchInstall (p : Port)
  /-- PATCH_REMOVE (R115): the PATCH_REMOVE mailbox request removes the patch from the next reset on, without lowering the kept level. -/
  | patchRemove (p : Port)
  /-- HEALTH_REPORT (R518): the HEALTH_REPORT mailbox request returns the eight-word health summary. -/
  | healthReport (p : Port)
  /-- HISTORY_READ (R519): the HISTORY_READ mailbox request returns one MRAM history entry by index. -/
  | historyRead (p : Port)
  /-- MBOX_BAD_OP (R111): A mailbox opcode that is not in the command table is answered BAD_OP. -/
  | mboxBadOp (p : Port) (op : Nat)
  /-- MBOX_REPLY (R109): A mailbox request that took time completes, posts its reply, sets MBOX_REPLY and sends vector 16. -/
  | mboxReply (ok : Bool)
  /-- MBOX_TIMEOUT (R110): A flash or MRAM operation that has not completed within its request's limit is abandoned and answered STORE_FAIL. -/
  | mboxTimeout
  /-- MBOX_ACK (R94): A write of the current SEQ to SVP.MBOX_ACK consumes the mailbox reply. -/
  | mboxAck (p : Port) (v : Word)
  /-- LOCKSTEP_MISMATCH (R116): A mismatch of the supervisor comparator restarts the supervisor from ROM, or halts it if it is the second mismatch within 60 s. -/
  | lockstepMismatch
  /-- SUPERVISOR_RESTART_DONE (R116): the supervisor restart ends, the servo resumes and a request that was in progress is answered RESTARTED. -/
  | supervisorRestartDone
  /-- NOP (R121): the step-machine instruction NOP does nothing. -/
  | nop (m : Nat)
  /-- MOVI (R121): the step-machine instruction MOVI loads an immediate into Gd. -/
  | movi (m : Nat)
  /-- MOVH (R121): the step-machine instruction MOVH loads an immediate into the upper half of Gd. -/
  | movh (m : Nat)
  /-- MOV (R121): the step-machine instruction MOV copies Ga into Gd. -/
  | mov (m : Nat)
  /-- ADD (R121): the step-machine instruction ADD adds two registers and sets the flags. -/
  | add (m : Nat)
  /-- ADDI (R121): the step-machine instruction ADDI adds a sign-extended immediate and sets the flags. -/
  | addi (m : Nat)
  /-- SUB (R121): the step-machine instruction SUB subtracts two registers and sets the flags. -/
  | sub (m : Nat)
  /-- AND (R121): the step-machine instruction AND forms the bitwise AND of two registers. -/
  | and (m : Nat)
  /-- ANDI (R121): the step-machine instruction ANDI forms the bitwise AND of a register and an immediate. -/
  | andi (m : Nat)
  /-- OR (R121): the step-machine instruction OR forms the bitwise OR of two registers. -/
  | or (m : Nat)
  /-- ORI (R121): the step-machine instruction ORI forms the bitwise OR of a register and an immediate. -/
  | ori (m : Nat)
  /-- XOR (R121): the step-machine instruction XOR forms the bitwise XOR of two registers. -/
  | xor (m : Nat)
  /-- SHL (R121): the step-machine instruction SHL shifts a register left. -/
  | shl (m : Nat)
  /-- SHR (R121): the step-machine instruction SHR shifts a register right, logically. -/
  | shr (m : Nat)
  /-- CMP (R121): the step-machine instruction CMP sets the flags of Ga minus Gb. -/
  | cmp (m : Nat)
  /-- CMPI (R121): the step-machine instruction CMPI sets the flags of Ga minus a sign-extended immediate. -/
  | cmpi (m : Nat)
  /-- BR (R122): the step-machine instruction BR branches to its target when its condition holds. -/
  | br (m : Nat)
  /-- CALL (R121): the step-machine instruction CALL pushes the return address and jumps, faulting with STACK when the stack is full. -/
  | call (m : Nat)
  /-- RET (R121): the step-machine instruction RET pops the return address, faulting with STACK when the stack is empty. -/
  | ret (m : Nat)
  /-- LD (R121): the step-machine instruction LD loads a local or SHARE data word. -/
  | ld (m : Nat)
  /-- ST (R126): the step-machine instruction ST stores a local or SHARE data word, with SHARE collisions resolved in a fixed order. -/
  | st (m : Nat)
  /-- IN_TAP (R123): the step-machine instruction IN from port P1 TAP reads four tap samples, waiting until a word is present. -/
  | inTap (m : Nat)
  /-- IN_ANC (R199): the step-machine instruction IN from port P5 ANC reads one ancillary word from the FIFO, waiting until one is present. -/
  | inAnc (m : Nat)
  /-- IN_LINE (R123): the step-machine instruction IN from port P1 LINE of an output machine reads the current scan-out line without waiting. -/
  | inLine (m : Nat)
  /-- IN_PROPOSAL (R481): the step-machine instruction IN from port P1 PROPOSAL of the touch machine reads a touch schedule proposal. -/
  | inProposal (m : Nat)
  /-- IN_RESUME (R121): A step machine waiting in IN resumes when a word becomes present at its port. -/
  | inResume (m : Nat)
  /-- OUT_ALARM (R123): the step-machine instruction OUT to port P0 ALARM sets the TS32 alarm time and clears E0. -/
  | outAlarm (m : Nat)
  /-- OUT_GPIO (R125): the step-machine instruction OUT to port P8 GPIO drives the masked GPIO lines of the granted groups, or only their shadow on a standby. -/
  | outGpio (m : Nat)
  /-- OUT_NOTE (R123): the step-machine instruction OUT to port P9 NOTE writes STM.STATUS NOTE. -/
  | outNote (m : Nat)
  /-- OUT_TAP_X (R123): the step-machine instruction OUT to port P2 TAP_X sets the first tap column and step from the next frame start. -/
  | outTapX (m : Nat)
  /-- OUT_TAP_Y (R123): the step-machine instruction OUT to port P3 TAP_Y sets the tap line, count and sub-stream from the next frame start. -/
  | outTapY (m : Nat)
  /-- OUT_ALIVE (R124): the step-machine instruction OUT to port P4 ALIVE supplies the alive counter of the current frame. -/
  | outAlive (m : Nat)
  /-- OUT_LINE_SET (R123): the step-machine instruction OUT to port P2 LINE_SET sets the line that raises E1 in each frame. -/
  | outLineSet (m : Nat)
  /-- OUT_HEAD_CTRL (R123): the step-machine instruction OUT to port P3 HEAD_CTRL queues a HEAD_USER entry for the head's CONTROL packet. -/
  | outHeadCtrl (m : Nat)
  /-- OUT_DECIDE (R481): the step-machine instruction OUT to port P2 DECIDE of the touch machine sets a rate step or frequency decision. -/
  | outDecide (m : Nat)
  /-- WAITE (R121): the step-machine instruction WAITE waits for a masked event line, then returns the pending lines and clears them. -/
  | waite (m : Nat)
  /-- WAITE_WAKE (R121): A step machine waiting in WAITE wakes when a masked event line is pending. -/
  | waiteWake (m : Nat)
  /-- CLRE (R121): the step-machine instruction CLRE clears pending event lines. -/
  | clre (m : Nat)
  /-- RDTS (R121): the step-machine instruction RDTS reads TS32. -/
  | rdts (m : Nat)
  /-- HALT (R121): the step-machine instruction HALT stops the machine in state HALTED. -/
  | halt (m : Nat)
  /-- FAULT (R121): the step-machine instruction FAULT stops the machine in state FAULTED with its code. -/
  | stmFault (m : Nat)
  /-- ILLEGAL_INSTRUCTION (R127): an undefined or malformed instruction, a PC beyond WORDS or a parity error faults the machine and sets REEL_FAULT. -/
  | illegalInstruction (m : Nat) (parity : Bool)
  /-- ALARM_TIME_REACHED (R123): TS32 reaches a step machine's P0 alarm time and its event line E0 latches. -/
  | alarmTimeReached (m : Nat)
  /-- STM_RUN (R130): A write of the RUN field of STM.CTRL starts a step machine or stops it after its current instruction. -/
  | stmRun (p : Port) (m : Nat) (run : Bool)
  /-- STM_RESTART (R119): A write of 1 to STM.CTRL RESTART clears the machine state and sets PC 0. -/
  | stmRestart (p : Port) (m : Nat)
  /-- KICK (R123): A write of 1 to STM.CTRL KICK latches event line E15. -/
  | kick (p : Port) (m : Nat)
  /-- STM_GRANT (R131): A write of the GRANT field moves GPIO groups to a machine, or is refused when another machine holds them. -/
  | stmGrant (p : Port) (m g : Nat)
  /-- STM_WORDS (R130): A write of the WORDS field sets the program length of a machine. -/
  | stmWords (p : Port) (m n : Nat)
  /-- PROG_DATA_WRITE (R130): A write to STM.PROG_DATA stores a program word in a stopped machine and advances PROG_ADDR, or is refused. -/
  | progDataWrite (p : Port) (v : Word)
  /-- PROG_DATA_READ (R130): A read of STM.PROG_DATA returns the program word and advances PROG_ADDR. -/
  | progDataRead (p : Port)
  /-- Q_TAIL_WRITE (R133): A write to CMD.Q_TAIL makes new records fetchable, or halts the queue with BAD_ARG when it overfills the ring. -/
  | qTailWrite (p : Port) (q : Nat) (v : Word)
  /-- Q_RUN (R151): A write of CMD.Q_CTRL RUN starts or stops a queue, which for a HALTED queue leaves the halt. -/
  | qRun (p : Port) (q : Nat) (on : Bool)
  /-- Q_ABORT (R152): A write of 1 to CMD.Q_CTRL ABORT discards the unfetched records and stops the queue. -/
  | qAbort (p : Port) (q : Nat)
  /-- LOST_CLR (R156): A write of 1 to CMD.Q_CTRL LOST_CLR clears the queue's LOST count. -/
  | lostClr (p : Port) (q : Nat)
  /-- EV_RD_WRITE (R157): A host write of CMD.EV_PTR RD frees event ring slots, releases a queue waiting on a full ring and re-sends its vector. -/
  | evRdWrite (p : Port) (q : Nat) (v : Word)
  /-- CMD_NOP (R138): the NOP command does nothing beyond taking effect at acceptance. -/
  | cmdNop (q : Nat)
  /-- SET_SOURCE (R139): the SET_SOURCE command, checked against the guard, selection and budget rules, changes a layer's source at the node's commit point. -/
  | setSource (q : Nat)
  /-- SET_GEOMETRY (R138): the SET_GEOMETRY command, budget-checked, changes a layer's crop and destination at its commit point. -/
  | setGeometry (q : Nat)
  /-- SET_BLEND (R138): the SET_BLEND command changes a layer's alpha and z-order at its commit point. -/
  | setBlend (q : Nat)
  /-- SET_GUARD (R43): the SET_GUARD command changes a layer's guard level and thresholds within the limits of R43. -/
  | setGuard (q : Nat)
  /-- SET_FREEZE (R431): the SET_FREEZE command turns freeze detection of a stream on or off at the FCLK0 commit point. -/
  | setFreeze (q : Nat)
  /-- FLIP (R140): the FLIP command makes a HOST stream's written buffer its most recent complete frame, or is refused. -/
  | flip (q : Nat)
  /-- DMA (R140): the DMA command starts a transfer of raw lines into a HOST stream's buffer, taking a buffer at a frame start or dropping the frame. -/
  | dma (q : Nat)
  /-- DMA_COMPLETE (R140): A DMA transfer completes with OK, NO_BUFFER or MPU, and its DONE record is written. -/
  | dmaComplete (n : Nat)
  /-- FENCE_SIGNAL_ACCEPT (R148): the FENCE_SIGNAL command in ACCEPT mode raises the fence when it executes. -/
  | fenceSignalAccept (q : Nat)
  /-- FENCE_SIGNAL_COMMIT (R148): the FENCE_SIGNAL command in COMMIT mode raises the fence once every earlier accepted command of its queue has taken effect. -/
  | fenceSignalCommit (q : Nat)
  /-- FENCE_WAIT (R149): the FENCE_WAIT command holds its queue until the fence reaches the value. -/
  | fenceWait (q : Nat)
  /-- FENCE_WAIT_SATISFIED (R149): A fence reaches the value a waiting queue needs, and the queue fetches again. -/
  | fenceWaitSatisfied (q : Nat)
  /-- WAIT_TIMEOUT (R149): A FENCE_WAIT times out, and the queue halts with a HALTED record. -/
  | waitTimeout (q : Nat)
  /-- WAIT_COMMIT (R150): the WAIT_COMMIT command holds its queue for a count of commit points. -/
  | waitCommit (q : Nat)
  /-- WAIT_COMMIT_DONE (R150): the count of commit points of a WAIT_COMMIT has passed and its queue resumes. -/
  | waitCommitDone (q : Nat)
  /-- CMD_REG_WRITE (R139): the REG_WRITE command writes the masked bits of a register, or is refused with BAD_TARGET. -/
  | cmdRegWrite (q : Nat)
  /-- TABLE_WRITE (R139): the TABLE_WRITE command writes one to four table-window words. -/
  | tableWrite (q : Nat)
  /-- TOUCH_ZONE (R482): the TOUCH_ZONE command defines or turns off a touch zone at the commit point of its head's output. -/
  | touchZone (q : Nat)
  /-- DEC_CTRL_STOP (R226): DEC_CTRL stop leaves the groups, empties CPB and DPB and stops the context at its next picture boundary. -/
  | decCtrlStop (q : Nat)
  /-- DEC_CTRL_START (R226): DEC_CTRL start joins a stopped context's groups and puts it in WAIT_IRAP. -/
  | decCtrlStart (q : Nat)
  /-- DEC_CTRL_DISCARD (R226): DEC_CTRL discard empties CPB and DPB and puts the context in WAIT_IRAP. -/
  | decCtrlDiscard (q : Nat)
  /-- ENC_CTRL_STOP (R454): ENC_CTRL stop ends an encoder's latching at its commit point. -/
  | encCtrlStop (q : Nat)
  /-- ENC_CTRL_START (R451): ENC_CTRL start, checked and budget-checked, starts an encoder with an IRAP at its commit point. -/
  | encCtrlStart (q : Nat)
  /-- ENC_CTRL_IRAP (R454): ENC_CTRL IRAP request makes the picture latched at its commit point an IRAP. -/
  | encCtrlIrap (q : Nat)
  /-- MARK (R138): the MARK command writes a MARK record with host data. -/
  | mark (q : Nat)
  /-- CMD_BAD_OP (R141): A command record with an unknown opcode is refused with BAD_OP. -/
  | cmdBadOp (q : Nat)
  /-- COMMIT_POINT (R145): A frame-clock boundary applies the due delta, then due commands and shadowed writes in acceptance order, and starts commit-point work. -/
  | commitPoint (k : Nat)
  /-- MEMORY_NODE_FLIP (R33): A MEMORY node completes its frame and flips its surface with the composite freshness. -/
  | memoryNodeFlip (n : Nat)
  /-- PORST_N_FALL (R164): PORST_N falls and the device enters COLD reset. -/
  | porstNFall
  /-- RESET_N_ASSERT (R164): RESET_N held low for at least 1 µs puts the device in WARM reset. -/
  | resetNAssert
  /-- RESET_CTRL (R166): A write of the key to SYS.RESET_CTRL starts a WARM reset. -/
  | resetCtrl (p : Port) (v : Word)
  /-- RESET_RELEASE (R166): the later of RESET_N and PORST_N rises and the start-up sequence begins with the strap reads. -/
  | resetRelease (straps : Nat) (stable : Bool)
  /-- STRAP_REREAD (R168): 1 ms after unstable straps the reads are repeated, and after the third failure SIDE B, CASCADE_ID 7 and BOOT_SRC HOST are imposed. -/
  | strapReread (straps : Nat) (stable : Bool)
  /-- REFCLK_LOSS (R163): REFCLK shows no edge for 2 µs and the device performs a COLD reset with cause CLOCK. -/
  | refclkLoss
  /-- ROOT_LOCK_LOSS (R163): ROOT reports loss of lock for 1 µs and the device performs a COLD reset with cause CLOCK. -/
  | rootLockLoss
  /-- ROOT_LOCKED (R170): ROOT locks, the derived clocks and TS32 start and the supervisor starts from ROM. -/
  | rootLocked (ethRef : Bool)
  /-- REGISTERS_READY (R172): reset initialisation ends, registers become reachable and the fallback structure shows the startup card. -/
  | registersReady (fitted : Nat)
  /-- DRAM_TRAINING_DONE (R289): initial DRAM training ends and the device enters stage LOADING under the boot map. -/
  | dramTrainingDone (density checked : Nat)
  /-- BOOT_LOAD (R65): the loader reads the boot copies that BOOT_SRC names, picks one and loads it or runs the fallback structure. -/
  | bootLoad
  /-- TWIN_LISTEN_END (R174): the 10 ms listen after a twin structure starts ends, and the device stays standby or becomes active by its peer's state. -/
  | twinListenEnd
  /-- SIDE_B_SILENCE_EXPIRE (R174): after 30 ms of peer silence a SIDE B device becomes active. -/
  | sideBSilenceExpire
  /-- CASCADE_WAIT_EXPIRE (R175): A non-master member that has not received CASCADE_TIME within 400 ms starts its structure on its own time. -/
  | cascadeWaitExpire
  /-- BLOCK_RECEIVED (R183): A block arrives on a receive lane and advances the lane state machine, alignment and deskew. -/
  | blockReceived (port k t : Nat) (bits : List Bool)
  /-- EIDLE_ENTER (R186): A control block with EIDLE_ENTER puts the receive lane in IDLE. -/
  | eidleEnter (port k : Nat)
  /-- LANE_IDLE_DETECT (R186): the lane amplitude falls below the idle threshold and the receiver enters IDLE. -/
  | laneIdleDetect (port k : Nat) (ck : Bool)
  /-- LANE_ACTIVE_DETECT (R187): A lane leaves electrical idle and enters RELOCK or HUNT. -/
  | laneActiveDetect (port k : Nat) (ck : Bool)
  /-- VIDEO_FS_RX (R195): A VIDEO_FS packet arrives at an input and starts a frame of its sub-stream. -/
  | videoFsRx (n : Nat) (b : List Byte)
  /-- VIDEO_LINE_RX (R198): A VIDEO_LINE packet arrives and delivers pixels or ancillary words of its sub-stream. -/
  | videoLineRx (n : Nat) (b : List Byte)
  /-- VIDEO_FE_RX (R198): A VIDEO_FE packet ends a frame, which becomes the stream's most recent complete frame or is discarded. -/
  | videoFeRx (n : Nat) (b : List Byte)
  /-- HEAD_STATUS_RX (R209): A HEAD_STATUS packet arrives on BK and updates the head status, CTRL_ACK, the glass loop and the head-freeze test. -/
  | headStatusRx (n : Nat) (b : List Byte)
  /-- TOUCH_RAW_RX (R468): A TOUCH_RAW scan is processed into baselines, touches, zones and report records, or discarded. -/
  | touchRawRx (n : Nat) (b : List Byte)
  /-- IDLE_RX (R204): an IDLE packet arrives on a JLX port and updates FAR_STATUS. -/
  | idleRx (port : Nat) (b : List Byte)
  /-- IDLE_SEND (R204): the device sends an IDLE packet on every enabled JLX port at least every 100 µs. -/
  | idleSend
  /-- CNT_CLR (R214): A write to CNT_CLR clears a port's link counters, or those of every port. -/
  | cntClr (p : Port) (k : Nat) (v : Word)
  /-- ETH_FRAME_RX (R217): an Ethernet frame is received, checked, and matched to a decoder context or to PTP, ARP, ND, IGMP or MLD. -/
  | ethFrameRx (n : Nat) (f : EthFrame)
  /-- LINK_DOWN (R220): A port's PCS loses block lock or RS-FEC alignment for 1 ms and reports LINK_DOWN. -/
  | linkDown (l : EthLoss)
  /-- LINK_UP (R220): A link returns and the supervisor sends unsolicited reports for the port's groups. -/
  | linkUp (n : Nat)
  /-- IGMP_QUERY (R219): A membership query is answered within its maximum response time. -/
  | igmpQuery (n : Nat) (q : MemberQuery)
  /-- REPORT_REPEAT (R219): each state-change report is sent a second time 1 s after the first. -/
  | reportRepeat
  /-- GAP_LOST (R228): A sequence gap is declared lost after REORDER × 10 ms and its access unit goes to the CPB as DAMAGED. -/
  | gapLost (c : Nat)
  /-- SSRC_SWITCH (R227): the locked SSRC is silent for 1 s while another SSRC sends, and the context locks to the new one. -/
  | ssrcSwitch (c : Nat)
  /-- RTCP_SR (R233): A sender report gives the RTP-to-TAI mapping for RTCP_SR capture times. -/
  | rtcpSr (c : Nat) (ssrc : Word) (ntpSec ntpFrac : Nat) (rtp : Word)
  /-- PICTURE_DECODE_START (R239): A free decoder core takes the earliest completed access unit among the contexts and starts decoding it. -/
  | pictureDecodeStart (k : Nat)
  /-- PICTURE_DECODED (R243): A core completes a picture with its cause, and output pictures pass to ingest to be stored and flipped. -/
  | pictureDecoded (k : Nat) (d : Decoded)
  /-- DEC_TIMEOUT (R241): A picture's decode budget expires and the core abandons it with cause TIMEOUT. -/
  | decTimeout (k : Nat) (d : Decoded)
  /-- PTP_ANNOUNCE (R252): an Announce message takes part in master selection. -/
  | ptpAnnounce (n domain : Nat) (a : AnnounceSet) (utc : Int)
  /-- PTP_SAMPLE (R256): A valid offset sample is handled by the servo state: step, slew, rate correction or refusal. -/
  | ptpSample (offset : Int)
  /-- MASTER_LOST (R259): the master sends no Announce for 3 intervals or no valid sample for 16, and the servo enters HOLDOVER. -/
  | masterLost
  /-- REARM_STEP (R260): A write of 1 to TIM.CTRL REARM_STEP arms the step of a new epoch. -/
  | rearmStep (p : Port)
  /-- SERVO_HOLD (R261): A write of TIM.CTRL SERVO_HOLD stops or resumes all servo corrections. -/
  | servoHold (p : Port) (on : Bool)
  /-- ADDEND_WRITE (R261): A host write of TIM.ADDEND while SERVO_HOLD is set sets the rate, clamped. -/
  | addendWrite (p : Port) (lo hi : Word)
  /-- PTP_CFG_WRITE (R254): A write to TIM.PTP_CFG restarts master selection at once. -/
  | ptpCfgWrite (p : Port) (v : Word)
  /-- ALMANAC (R265): the supervisor publishes a new Almanac every 250 ms. -/
  | almanac
  /-- FRAME_REF_EDGE (R269): A rising edge of FRAME_REF is stamped and accepted or ignored by a FRAME_REF clock. -/
  | frameRefEdge
  /-- FCLK_REF_LOST (R269): two periods pass without an accepted FRAME_REF edge and the clock runs on at its last period. -/
  | fclkRefLost (k : Nat)
  /-- TPO_ARM (R271): A write of TIM.TPO_CTRL ARM arms or stops a timed pulse. -/
  | tpoArm (p : Port) (k : Nat) (v : Word)
  /-- TPO_EDGE (R271): A timed pulse reaches its edge time and drives its ball. -/
  | tpoEdge (k : Nat)
  /-- MEM_REQUEST (R279): A request enters a channel's pool through a memory port, waking a self-refreshing rank if needed. -/
  | memRequest (port : Nat) (write : Bool) (addr : Nat) (data : List Byte)
  /-- DRAM_COMMAND_ISSUE (R281): A channel picks and issues the next request or refresh whose timing is met. -/
  | dramCommandIssue (c : Nat) (refs banks ecc : List Nat)
  /-- REFRESH_TICK (R283): A rank's refresh interval elapses and its refresh debt rises by 1. -/
  | refreshTick (r : Nat)
  /-- MR4_READ (R284): MR4 is read every poll period, and a rate change recounts the debt and may start catch-up. -/
  | mr4Read (r need : Nat)
  /-- SELF_REFRESH_ENTRY (R287): A COLD rank idle for SR_IDLE enters self-refresh after paying its debt. -/
  | selfRefreshEntry (r : Nat)
  /-- SPARE_FILL_DONE (R288): the poison fill of a spare rank ends and the spare becomes SPARE_READY. -/
  | spareFillDone (r : Nat)
  /-- TRAINING_PASS_DONE (R289): A training pass of one rank and operating point completes and its values are stored in MRAM. -/
  | trainingPassDone (n pt rd wr : Nat)
  /-- TRAINING_PASS_TIMEOUT (R289): A training pass not complete within 150 ms is abandoned and its rank is retired as TRAIN_FAIL. -/
  | trainingPassTimeout (r : Nat)
  /-- RETRAIN (R290): every 128 ms each active rank is retrained, a second failure marking it TRAIN_FAIL. -/
  | retrain (r : Nat) (result : Option Nat)
  /-- OP_SWITCH_REQUEST (R291): A write of MEM.OP_CTRL REQ requests a switch of operating point. -/
  | opSwitchRequest (p : Port) (target : Bool)
  /-- OP_SWITCH (R291): at an FCLK0 commit point free of training and catch-up, the ranks self-refresh, the PLLs relock and the other point's values load. -/
  | opSwitch (pause : Nat)
  /-- SWITCH_HOLD_EXPIRE (R292): A switch held for training beyond its limit abandons the training, retires the rank and proceeds. -/
  | switchHoldExpire (pause : Nat)
  /-- WRITE_CRC_ALERT (R295): A DDR5 write CRC alert replays the write, and the ninth failure counts as uncorrectable. -/
  | writeCrcAlert (addr port : Nat) (ninth : Bool)
  /-- SCRUB_STEP (R294): patrol scrub reads the next part of installed space through port MAINT. -/
  | scrubStep (ecc : List Nat)
  /-- RETIRE (R296): A keyed write to MEM.RETIRE retires a rank. -/
  | retire (p : Port) (n : Nat)
  /-- RETIRE_CLEAR (R296): A keyed write to MEM.RETIRE with CLEAR clears a retirement from the next device reset. -/
  | retireClear (p : Port) (n : Nat)
  /-- MIGRATION_DONE (R298): the copy of a retired COLD rank to its spare ends and the rank leaves service. -/
  | migrationDone
  /-- STAT_CLR (R318): A write of FSC.STAT_CLR CLEAR clears the selected stream's surface statistics. -/
  | statClr (p : Port)
  /-- STAT_CLR_ALL (R318): A write of FSC.STAT_CLR CLEAR_ALL clears every stream's surface statistics. -/
  | statClrAll (p : Port)
  /-- BLK_SUBMIT (R319): A write of BLK.SUBMIT_HI submits a job descriptor, or is ignored when 8 jobs are held. -/
  | blkSubmit (p : Port) (hi : Word)
  /-- COMPRESS (R324): A COMPRESS job writes a container, or ends with NO_GAIN or NO_SPACE. -/
  | compress
  /-- DECOMPRESS (R325): A DECOMPRESS job checks a container and expands it to DST. -/
  | decompress
  /-- VERIFY (R325): A VERIFY job checks and expands a container without writing. -/
  | verify
  /-- JOB_DONE (R326): A block-compressor job ends with its code and posts its result, sending vector 55. -/
  | jobDone
  /-- BLK_ABORT (R327): A write of BLK.CTRL ABORT ends the running job with ABORTED and discards the queued jobs. -/
  | blkAbort (p : Port)
  /-- BLK_RESULT_ACK (R94): A write of the current SEQ to BLK.RESULT_ACK consumes the job result. -/
  | blkResultAck (p : Port) (v : Word)
  /-- SEGMENT_COMPLETE (R354): A blend pipe completes one line segment of a node, blending its layers. -/
  | segmentComplete (n y k : Nat)
  /-- PRESCALER_BAND (R384): A band of 8 base lines goes to the lowest free prescaler, which produces its share of the pyramid. -/
  | prescalerBand (n b : Nat)
  /-- RASTER_LINE (R389): A raster line of an output begins, and the engine requests, latches, sends and checks lines as its line number directs. -/
  | rasterLine (n j : Nat)
  /-- SCAN_FAULT_HOLD_END (R392): the scan-fault hold ends 1 s after the last frame that kept the run at 3. -/
  | scanFaultHoldEnd (n : Nat)
  /-- CHK_START (R413): A write of 1 to CHK.CTRL START starts a host channel computation at INIT. -/
  | chkStart (p : Port) (c : Nat)
  /-- CHK_FINISH (R416): A write of 1 to CHK.CTRL FINISH finishes a host channel computation, writes its result and compares it. -/
  | chkFinish (p : Port) (c : Nat)
  /-- CHK_DATA (R413): A write to CHK.DATA feeds bytes to the selected running host channel. -/
  | chkData (p : Port) (v : Word)
  /-- CHK_CTX_WRITE (R414): A completed write of CHK.CTX replaces a host channel's register and makes it RUNNING. -/
  | chkCtxWrite (p : Port) (lo hi : Word)
  /-- AGE_TICK (R427): each 0.1 ms of TS32 advance ages every stream and re-evaluates its state. -/
  | ageTick
  /-- ENC_LATCH (R455): at every (DIVIDE + 1)-th commit point an encoder latches its source frame and starts a picture. -/
  | encLatch (e : Nat)
  /-- ENC_PICTURE_DONE (R463): an encoder completes a picture, delivers it as RTP or a ring record, and updates rate control. -/
  | encPictureDone (e : Nat)
  /-- ENC_RING_RD_WRITE (R463): A host write of ENC RING_PTR RD frees ring space and re-sends the vector. -/
  | encRingRdWrite (p : Port) (e : Nat) (v : Word)
  /-- TOUCH_HEAD_LOST (R469): A touch head sends no valid scan for 3 scan periods or 50 ms, its touches are cancelled and its zones released. -/
  | touchHeadLost (h : Nat)
  /-- MAP_CAPTURE (R471): A write of TCH.MAP_CTRL CAPTURE starts a reference-map capture, or is refused. -/
  | mapCapture (p : Port) (h : Nat)
  /-- MAP_WRITTEN (R471): the captured reference map is written to MRAM with its CRC. -/
  | mapWritten (h : Nat)
  /-- RATE_STEP_DOWN (R479): the time since the last touch passes a step's limit and the head's scan rate steps down. -/
  | rateStepDown (h : Nat)
  /-- PROPOSAL_TIMEOUT (R481): A touch schedule proposal with no reel decision within 10 ms applies as proposed. -/
  | proposalTimeout (h kind : Nat)
  /-- ZONE_TIMEOUT (R484): A hold zone's touch rests A3 ms and the zone becomes TIMEOUT. -/
  | zoneTimeout (h z : Nat)
  /-- LONG_HOLD (R486): A touch that rests LONG_HOLD seconds writes a LONG_HOLD record. -/
  | longHold (h id : Nat)
  /-- TOUCH_RING_RD_WRITE (R488): A host write of TCH.RING_PTR RD frees report records and re-sends the vector. -/
  | touchRingRdWrite (p : Port) (h : Nat) (v : Word)
  /-- TOUCH_RING_WRITE (R488): A write of TCH.RING empties the report ring and clears LOST. -/
  | touchRingWrite (p : Port) (h : Nat) (v : Word)
  /-- HEARTBEAT_SEND (R497): every HB_PERIOD a device sends a HEARTBEAT on both twin ports. -/
  | heartbeatSend
  /-- HEARTBEAT_RX (R496): A HEARTBEAT is received, updating the peer offset, frame-clock following and the peer's reported role. -/
  | heartbeatRx (n : Nat) (b : List Byte)
  /-- HORNPIPE_LOST (R497): no HEARTBEAT is accepted on a port for HB_MISS periods and Hornpipe is lost there. -/
  | hornpipeLost (n : Nat)
  /-- MAYPOLE_TOGGLE (R498): the device drives MAYPOLE_OUT with the high time of its role in each 100 µs period. -/
  | maypoleToggle
  /-- MAYPOLE_EDGE (R498): an edge on MAYPOLE_IN is classified into the peer's pattern. -/
  | maypoleEdge (rise : Bool)
  /-- MAYPOLE_SILENT (R498): MAYPOLE_IN shows no edge for MP_SILENT × 100 µs and is silent. -/
  | maypoleSilent
  /-- PATH_EVALUATION (R500): every 10 µs a standby evaluates Hornpipe and MAYPOLE and stays standby, becomes active or takes over. -/
  | pathEvaluation
  /-- SEAL_POINT (R506): at SEAL_LEAD before an FCLK0 boundary the active seals its epoch and sends the SEAL trailer. -/
  | sealPoint
  /-- EPOCH_DECISION (R508): at 1 ms before the target the active commits, slips or commits alone the sealed epoch. -/
  | epochDecision
  /-- MIRROR_DATA (R505): the standby receives a DATA packet of mirrored items for the epoch being filled. -/
  | mirrorData (n : Nat) (b : List Byte)
  /-- SEAL (R507): the standby receives a SEAL, checks the epoch and answers ACK or NACK. -/
  | seal (n : Nat) (b : List Byte)
  /-- MIRROR_ACK (R508): the active receives an ACK for a sealed epoch. -/
  | mirrorAck (n : Nat) (b : List Byte)
  /-- MIRROR_NACK (R508): the active receives a NACK with its code for a sealed epoch. -/
  | mirrorNack (n : Nat) (b : List Byte)
  /-- COMMIT (R509): the standby receives COMMIT and will apply the epoch at its target. -/
  | commit (n : Nat) (b : List Byte)
  /-- SLIP (R507): the standby receives SLIP, retargets the epoch and repeats its answer. -/
  | slip (n : Nat) (b : List Byte)
  /-- SIG (R512): the active receives the standby's region signatures of a frame for the signature compare. -/
  | sig (n : Nat) (b : List Byte)
  /-- RESYNC_REQ (R515): the active receives RESYNC_REQ and sends images as needed and a SNAPSHOT. -/
  | resyncReq (n : Nat) (b : List Byte)
  /-- SNAPSHOT (R515): the standby receives SNAPSHOT packets of mirrored state, to apply at the first commit point after the transfer. -/
  | snapshot (n : Nat) (b : List Byte)
  /-- MIRROR_IMAGE (R510): the standby receives IMAGE packets, checks the image and answers with a VERDICT. -/
  | mirrorImage (n : Nat) (b : List Byte)
  /-- VERDICT (R510): the active receives the standby's loader verdict on an image. -/
  | verdict (n : Nat) (b : List Byte)
  /-- VERDICT_TIMEOUT (R510): no VERDICT arrives within 2 s and the image is refused with STRUCT_REFUSED. -/
  | verdictTimeout
  /-- HANDOVER (R514): A write of TWN.CTRL HANDOVER requests an exchange of roles at an epoch commit, or is refused. -/
  | handover (p : Port)
  /-- RESYNC (R515): A write of TWN.CTRL RESYNC starts a resync of the standby. -/
  | resync (p : Port)
  /-- TAKEOVER_ACK (R521): A write of TWN.CTRL TAKEOVER_ACK ends the TAKEOVER condition. -/
  | takeoverAck (p : Port)
  /-- HEALTH_TEST (R517): A background self-test item runs on idle resources and records pass or failure. -/
  | healthTest (item u : Nat) (r : Health)
  /-- CASCADE_TIME_SEND (R524): every CT_PERIOD a device sends CASCADE_TIME on each enabled cascade port. -/
  | cascadeTimeSend
  /-- CASCADE_TIME_RX (R527): A CASCADE_TIME packet is received, forwarded, and used for port state, ring time, frame clock and ring commits. -/
  | cascadeTimeRx (n : Nat) (b : List Byte)
  /-- CASCADE_PORT_DOWN (R525): A cascade port sees no direct packet for CT_MISS periods and is not up. -/
  | cascadePortDown (n : Nat)
  /-- MEMBER_LOST (R540): no CASCADE_TIME from any device of a member arrives for CT_MISS periods and the member is lost. -/
  | memberLost (m : Nat)
  /-- SUBSCRIBE (R530): A sender receives SUBSCRIBE, budget-checks the send and answers SUB_ANS. -/
  | subscribe (n : Nat) (b : List Byte)
  /-- UNSUBSCRIBE (R530): A sender receives UNSUBSCRIBE and stops sending the stream. -/
  | unsubscribe (n : Nat) (b : List Byte)
  /-- SUB_ANS (R530): A receiver learns whether its subscription was accepted or refused. -/
  | subAns (n : Nat) (b : List Byte)
  /-- SUBSCRIBE_RETRY (R530): A receiver subscribes again once per second while refused. -/
  | subscribeRetry
  /-- SURFACE_SEG_RX (R533): A SURFACE_SEG packet is relayed or received, and a complete verified frame is flipped. -/
  | surfaceSegRx (n : Nat) (b : List Byte)
  /-- RELAY_REQ (R539): A target device performs a relayed register access and answers RELAY_ANS. -/
  | relayReq (n : Nat) (b : List Byte)
  /-- RELAY_ANS (R539): the master receives RELAY_ANS and posts the relay result. -/
  | relayAns (n : Nat) (b : List Byte)
  /-- RELAY_TIMEOUT (R539): no RELAY_ANS arrives within RELAY_TIMEOUT and the relay result is TIMEOUT. -/
  | relayTimeout
  /-- RELAY_GO (R539): A write of CAS.RELAY_CTRL GO starts a relayed register access, or is ignored. -/
  | relayGo (p : Port)
  /-- RELAY_ACK (R94): A write of the current SEQ to CAS.RELAY_ACK consumes the relay result. -/
  | relayAck (p : Port) (v : Word)
  /-- CMD_FWD (R536): the holding member checks a forwarded command and answers CMD_ANS. -/
  | cmdFwd (n : Nat) (b : List Byte)
  /-- CMD_ANS (R536): the submitting queue receives CMD_ANS and accepts or refuses the forwarded command. -/
  | cmdAns (n : Nat) (b : List Byte)
  /-- CMD_FWD_TIMEOUT (R536): no CMD_ANS arrives within RELAY_TIMEOUT and the command is refused with OBJECT_GONE. -/
  | cmdFwdTimeout (q : Nat)
  /-- COMMIT_WAIT_EXPIRE (R538): A ring commit not reported by every member within COMMIT_WAIT is aborted. -/
  | commitWaitExpire
  /-- VOLT_ALARM (R548): A rail reads outside nominal ±4 % for 100 µs and VOLT_ALARM holds. -/
  | voltAlarm (m mv : Nat)
  /-- SUPPLY_RESET (R548): A rail reads below nominal −8 % for 2 µs and causes a COLD reset with cause SUPPLY. -/
  | supplyReset (m mv : Nat)
  /-- TEMP_SAMPLE (R550): A temperature sensor reads every 100 µs and TEMP_ALARM follows its threshold and hysteresis. -/
  | tempSample (u : Nat) (c : Int)
  /-- THERMAL_TRIP (R551): A sensor reads 115 °C or more for 1 ms, and the device records the trip, drives THERMTRIP_N and stops. -/
  | thermalTrip (u : Nat) (c : Int)
  /-- VOLT_ALARM_CLEAR (R548): every voltage monitor has read within nominal ±3 % for 100 µs and the VOLT_ALARM condition ends. -/
  | voltAlarmClear
  /-- PCIE_LINK_UP (R74): the PCIe link reaches L0 again, or the endpoint returns to D0, and host access through PCIe resumes. -/
  | pcieLinkUp
  /-- PCIE_ERROR (R106): A correctable or uncorrectable PCIe link error is detected and sets PCIE_CORR or the alarm PCIE_UNCORR, with AER reporting. -/
  | pcieError (uncorrectable : Bool)
  deriving DecidableEq, Repr

end Sys2Proof
end

