-- ==== Sys2Proof/Decode.lean ====
section
/-!
DEFINITION. Decode.lean: the opcode table of this block gives no row any bits ("fields" is empty in every row), so no
word spells a command.
-/
namespace Sys2Proof

/-- The command that a word spells by the opcode table's bits: none, because the table gives no bits. -/
def decodeTableWord (_nbits _w : Nat) : Option Instr := none

end Sys2Proof
end

