-- ==== Sys2Proof/Config.lean ====
section
/-!
DEFINITION. Config.lean: what the spec fixes without giving its arithmetic, what one part holds
from manufacture, and the free values: constants with no body, of which nothing can be proved but what a statement
assumes.
-/
namespace Sys2Proof

/-- What the ROM's patch check answers for a patch file: its level where signature and part are acceptable, none
otherwise (R115). The spec does not give the file's format. -/
opaque Config.patchCheck : List Byte → Option Nat

/-- The die identity fused at manufacture (TWN.UID). -/
opaque Config.uid : DWord

/-- Free value number `n` as a 32-bit word: any word the spec leaves open. -/
opaque Config.freeWord : Nat → Word

/-- Free value number `n` as a byte string: bytes the spec leaves open (undefined buffer contents, coder output). -/
opaque Config.freeBytes : Nat → List Byte

/-- Free value number `n` as a natural number. -/
opaque Config.freeNat : Nat → Nat

/-- Free value number `n` as a choice. -/
opaque Config.freeBool : Nat → Bool

/-- A statistic measured over time (pipe, pool, port and core use, slack, traffic, power) as the register at a BAR0
offset shows it: offset, CLK_F cycles counted, free values taken. The spec gives no exact value for it. -/
opaque Config.freeStat : Nat → Nat → Nat → Word

/-- Sample `key` of an image whose content the spec leaves open: `tag` names the content (a buffer never written, a
decoded picture, a surface written raw). -/
opaque Config.freeSample : Nat → Nat → Nat

/-- The error the codec makes on the samples of one tile (R310 to R312): mode, E, FSC.CFG.BIAS, format and the tile's
samples give one error per sample. The spec bounds it and fixes that it is a function of these alone. -/
opaque Config.codecError : Nat → Nat → Nat → Nat → List Nat → List Int

/-- How many bytes a tile takes in PACKED form (R309, R310), by the same arguments. -/
opaque Config.packedLen : Nat → Nat → Nat → Nat → List Nat → Nat

/-- Byte `k` of a tile's PACKED or BUDGET coding, by the same arguments and `k`. -/
opaque Config.codedByte : Nat → Nat → Nat → Nat → List Nat → Nat → Byte

/-- QUANT of a tile's BOUNDED or BUDGET coding (R307), by the same arguments as its error. -/
opaque Config.quant : Nat → Nat → Nat → Nat → List Nat → Nat

/-- Sample `k` that a tile's payload decodes to where the bytes are none that FSC wrote: mode, format, payload. -/
opaque Config.decodedSample : Nat → Nat → List Byte → Nat → Nat

/-- What an encoder's bitstream is and signals (R450): HEVC Main (Main 10 with `ten`) at level 5.1, Main tier, or H.264
High at level 5.1; the picture's size; 4:2:0 at 8 bits (10 with `ten`); VUI of BT.709 narrow range; no HRD parameters. -/
structure Coding where
  hevc : Bool
  ten  : Bool
  w    : Nat
  h    : Nat
  deriving DecidableEq, Repr

/-- profile_idc as the standards number it: HEVC Main 1, Main 10 2, H.264 High 100. -/
def Coding.profileIdc (c : Coding) : Nat := if c.hevc then (if c.ten then 2 else 1) else 100

/-- level_idc of level 5.1: 30 times it in HEVC, 10 times it in H.264. -/
def Coding.levelIdc (c : Coding) : Nat := if c.hevc then 153 else 51

/-- Bits of a sample. -/
def Coding.depth (c : Coding) : Nat := if c.ten then 10 else 8

/-- What a coder puts into a parameter set after its NAL header (R450): free value number; profile_idc, level_idc, tier
flag, chroma_format_idc, bit depth, width, height; colour primaries, transfer and matrix (1 is BT.709) and the full
range flag of its VUI; whether it has HRD parameters; the NAL unit type of the set. -/
opaque Config.paramSetBytes : Nat → List Nat → Bool → Nat → List Byte

/-- The payload of the parameter set of NAL unit type `type` for coding `c` (R450). -/
def Config.paramSet (n : Nat) (c : Coding) (type : Nat) : List Byte :=
  Config.paramSetBytes n [c.profileIdc, c.levelIdc, 0, 1, c.depth, c.w, c.h, 1, 1, 1, 0] false type

/-- What a coder makes of one row of 64 lines of a picture, one slice, after its NAL header (R450, R459): free value
number, coding, whether the picture is an IRAP (else a P picture with one reference), row, QP, whether a block may be a
skip, the row's samples. -/
opaque Config.codedRow : Nat → Coding → Bool → Nat → Nat → Bool → List Nat → List Byte

end Sys2Proof
end

