-- ==== Sys2Proof/Machine/Crc.lean ====
section
/-!
DEFINITION. Machine/Crc.lean: the one CRC model of the device (R409) and its presets (R410).
-/
namespace Sys2Proof.Machine

/-- The parameters of a CRC (R409). POLY, INIT and expected values are taken modulo 2^w. -/
structure CrcParams where
  w      : Nat
  poly   : Nat
  init   : Nat
  refin  : Bool
  refout : Bool
  xorout : Bool
  deriving DecidableEq, Repr

/-- `reflect` of R409: bit i of v goes to bit n - 1 - i. -/
def Crc.reflect (n v : Nat) : Nat :=
  (List.range n).foldl (fun acc i => if v.testBit i then acc ||| (1 <<< (n - 1 - i)) else acc) 0

/-- One bit of `feed` (R409). -/
def Crc.shift (p : CrcParams) (reg : Nat) : Nat :=
  if reg.testBit (p.w - 1) then ((reg <<< 1) ^^^ p.poly) % 2 ^ p.w else (reg <<< 1) % 2 ^ p.w

/-- One byte of `feed` (R409). -/
def Crc.feedByte (p : CrcParams) (reg : Nat) (b : Byte) : Nat :=
  let v := if p.refin then Crc.reflect 8 b.toNat else b.toNat
  let r := (reg ^^^ (v <<< (p.w - 8))) % 2 ^ p.w
  Crc.shift p (Crc.shift p (Crc.shift p (Crc.shift p (Crc.shift p (Crc.shift p (Crc.shift p (Crc.shift p r)))))))

/-- `feed` of R409: the register after the bytes. -/
def Crc.feed (p : CrcParams) (reg : Nat) (data : List Byte) : Nat := data.foldl (Crc.feedByte p) reg

/-- `finish` of R409: the result of a register. -/
def Crc.finish (p : CrcParams) (reg : Nat) : Nat :=
  let r := if p.refout then Crc.reflect p.w reg else reg
  if p.xorout then r ^^^ (2 ^ p.w - 1) else r

/-- The register a computation starts with (R409). -/
def Crc.start (p : CrcParams) : Nat := p.init % 2 ^ p.w

/-- The result over a byte sequence (R409). -/
def Crc.value (p : CrcParams) (data : List Byte) : Nat := Crc.finish p (Crc.feed p (Crc.start p) data)

/-- Preset 0, CRC-32C (R410). -/
def Crc.crc32c : CrcParams := ⟨32, 0x1EDC_6F41, 0xFFFF_FFFF, true, true, true⟩
/-- Preset 1, CRC-32/ISO-HDLC (R410). -/
def Crc.crc32 : CrcParams := ⟨32, 0x04C1_1DB7, 0xFFFF_FFFF, true, true, true⟩
/-- Preset 2, CRC-16/CCITT-FALSE (R410). -/
def Crc.crc16 : CrcParams := ⟨16, 0x1021, 0xFFFF, false, false, false⟩
/-- Preset 3, CRC-64/ECMA-182 (R410). -/
def Crc.crc64 : CrcParams := ⟨64, 0x42F0_E1EB_A9EA_3693, 0, false, false, false⟩

/-- Preset number `k`; presets 4 to 14 act as 0, 15 is the custom set (R410, CHK.CTRL). -/
def Crc.preset (custom : CrcParams) (k : Nat) : CrcParams :=
  match k with
  | 1 => Crc.crc32
  | 2 => Crc.crc16
  | 3 => Crc.crc64
  | 15 => custom
  | _ => Crc.crc32c

end Sys2Proof.Machine
end

