-- ==== Sys2Proof/Machine/Cells.lean ====
section
/-!
DEFINITION. Machine/Cells.lean: sparse storage. Everything the spec numbers (registers, memory bytes, streams, step
machines ...) is a list of (number, value) pairs in one canonical form: numbers strictly rising, and no entry equal to
what an unlisted number reads as (the default `d`).
-/
namespace Sys2Proof.Machine

/-- A sparse array: see `Cells.wf` for its canonical form. -/
abbrev Cells (α : Type) := List (Nat × α)

variable {α : Type}

/-- What number `k` reads as: its entry, or the default. -/
def Cells.get (d : Nat → α) : Cells α → Nat → α
  | [], k => d k
  | (k', v) :: t, k => if k' = k then v else Cells.get d t k

/-- The list without number `k`. -/
def Cells.drop (k : Nat) : Cells α → Cells α
  | [] => []
  | (k', v) :: t => if k' = k then Cells.drop k t else (k', v) :: Cells.drop k t

/-- Insert an entry before the first larger number. -/
def Cells.insert (k : Nat) (v : α) : Cells α → Cells α
  | [] => [(k, v)]
  | (k', v') :: t => if k < k' then (k, v) :: (k', v') :: t else (k', v') :: Cells.insert k v t

/-- Write number `k`: a value equal to the default removes the entry. -/
def Cells.put [DecidableEq α] (d : Nat → α) (m : Cells α) (k : Nat) (v : α) : Cells α :=
  if v = d k then Cells.drop k m else Cells.insert k v (Cells.drop k m)

/-- Every number of the list is above `b`, and the numbers rise strictly. -/
def Cells.above (b : Nat) : Cells α → Bool
  | [] => true
  | (k, _) :: t => decide (b < k) && Cells.above k t

/-- The numbers rise strictly. -/
def Cells.sorted : Cells α → Bool
  | [] => true
  | (k, _) :: t => Cells.above k t

/-- The canonical form: numbers strictly rising, no entry at its default. -/
def Cells.wf [DecidableEq α] (d : Nat → α) (m : Cells α) : Bool :=
  Cells.sorted m && m.all fun e => decide (e.2 ≠ d e.1)

end Sys2Proof.Machine
end

