-- ==== Sys2Proof/Machine/Regs.lean ====
section
/-!
DEFINITION. Machine/Regs.lean: every register that the spec's register tables describe, by its spec name
(`Reg.BLOCK_REGISTER`, its BAR0 offset) and its descriptor (access-code masks of R7, level mask of R8, reset value).
The block header registers of R86 are given once for all blocks.
-/
namespace Sys2Proof.Machine

/-- One register or register array of BAR0: base offset, up to two index strides, the reset value of every element
and, bit by bit, its access code (R7) and whether its level is X (R8). A bit in no access mask is RO or
reserved. `xReg` says that every field has level X (an X register, R13). -/
structure RegDesc where
  base    : Nat
  stride  : Nat
  count   : Nat
  stride2 : Nat
  count2  : Nat
  reset   : BitVec 32
  rw      : BitVec 32
  w1c     : BitVec 32
  w1s     : BitVec 32
  wo      : BitVec 32
  sh      : BitVec 32
  x       : BitVec 32
  xReg    : Bool
  deriving DecidableEq, Repr

/-- Does the array hold an element at BAR0 offset `off`? -/
def RegDesc.has (d : RegDesc) (off : Nat) : Bool :=
  (List.range d.count2).any fun j =>
    let o := d.base + d.stride2 * j
    decide (o ≤ off) && decide ((off - o) % d.stride = 0) && decide ((off - o) / d.stride < d.count)

/-- A register all of whose fields are RO at level B: one array of `count` elements. -/
def RegDesc.ro (base stride count : Nat) (reset : BitVec 32) : RegDesc :=
  ⟨base, stride, count, 4, 1, reset, 0, 0, 0, 0, 0, 0, false⟩

/-- The base of register block `k` (R85). -/
abbrev Reg.block (k : Nat) : Nat := 0x1_0000 * k
/-- BLOCK.INT_STATUS of block `k` (R86). -/
abbrev Reg.INT_STATUS (k : Nat) : Nat := 0x1_0000 * k + 0x10
/-- BLOCK.INT_ENABLE of block `k` (R86). -/
abbrev Reg.INT_ENABLE (k : Nat) : Nat := 0x1_0000 * k + 0x14
/-- BLOCK.INT_FORCE of block `k` (R86). -/
abbrev Reg.INT_FORCE (k : Nat) : Nat := 0x1_0000 * k + 0x18
/-- BLOCK.EVT_CNT[n] of block `k` (R86). -/
abbrev Reg.EVT_CNT (k n : Nat) : Nat := 0x1_0000 * k + 0x20 + 4 * n

/-- SYS.LOAD_STATUS (02_structure_image). -/
abbrev Reg.SYS_LOAD_STATUS : Nat := 0x000400
/-- SYS.LOAD_GEN (02_structure_image). -/
abbrev Reg.SYS_LOAD_GEN : Nat := 0x000404
/-- SYS.LOAD_DETAIL (02_structure_image). -/
abbrev Reg.SYS_LOAD_DETAIL : Nat := 0x000408
/-- SYS.LOAD_COPIES (02_structure_image). -/
abbrev Reg.SYS_LOAD_COPIES : Nat := 0x00040C
/-- SYS.LOAD_ACK (02_structure_image). -/
abbrev Reg.SYS_LOAD_ACK : Nat := 0x000410
/-- HIF.BAR2_BASE (03_host_interface_and_registers). -/
abbrev Reg.HIF_BAR2_BASE : Nat := 0x020100
/-- SYS.INT_TOP (03_host_interface_and_registers). -/
abbrev Reg.SYS_INT_TOP : Nat := 0x000040
/-- SYS.LEVEL_KEY (03_host_interface_and_registers). -/
abbrev Reg.SYS_LEVEL_KEY : Nat := 0x000080
/-- SYS.LEVEL_STATUS (03_host_interface_and_registers). -/
abbrev Reg.SYS_LEVEL_STATUS : Nat := 0x000084
/-- SYS.X_WRITES_LO (03_host_interface_and_registers). -/
abbrev Reg.SYS_X_WRITES_LO : Nat := 0x000088
/-- SYS.X_WRITES_HI (03_host_interface_and_registers). -/
abbrev Reg.SYS_X_WRITES_HI : Nat := 0x00008C
/-- SYS.X_REFUSED_ADDR (03_host_interface_and_registers). -/
abbrev Reg.SYS_X_REFUSED_ADDR : Nat := 0x000090
/-- BMX.QOS (03_host_interface_and_registers). -/
abbrev Reg.BMX_QOS (i : Nat) : Nat := 0x030040 + 4 * i
/-- BMX.MPU_BASE (03_host_interface_and_registers). -/
abbrev Reg.BMX_MPU_BASE (i : Nat) : Nat := 0x030200 + 8 * i
/-- BMX.MPU_LIMIT (03_host_interface_and_registers). -/
abbrev Reg.BMX_MPU_LIMIT (i : Nat) : Nat := 0x030204 + 8 * i
/-- BMX.ERR_ADDR (03_host_interface_and_registers). -/
abbrev Reg.BMX_ERR_ADDR : Nat := 0x030100
/-- BMX.ERR_INFO (03_host_interface_and_registers). -/
abbrev Reg.BMX_ERR_INFO : Nat := 0x030104
/-- SVP.MBOX_REQ (04_supervisor_and_step_machines). -/
abbrev Reg.SVP_MBOX_REQ : Nat := 0x040100
/-- SVP.MBOX_ARG (04_supervisor_and_step_machines). -/
abbrev Reg.SVP_MBOX_ARG (i : Nat) : Nat := 0x040110 + 4 * i
/-- SVP.MBOX_STATUS (04_supervisor_and_step_machines). -/
abbrev Reg.SVP_MBOX_STATUS : Nat := 0x040140
/-- SVP.MBOX_DATA (04_supervisor_and_step_machines). -/
abbrev Reg.SVP_MBOX_DATA (i : Nat) : Nat := 0x040144 + 4 * i
/-- SVP.MBOX_ACK (04_supervisor_and_step_machines). -/
abbrev Reg.SVP_MBOX_ACK : Nat := 0x040170
/-- SVP.FW_VERSION (04_supervisor_and_step_machines). -/
abbrev Reg.SVP_FW_VERSION : Nat := 0x040200
/-- SVP.LOCKSTEP (04_supervisor_and_step_machines). -/
abbrev Reg.SVP_LOCKSTEP : Nat := 0x040204
/-- STM.CTRL (04_supervisor_and_step_machines). -/
abbrev Reg.STM_CTRL (i : Nat) : Nat := 0x050100 + 4 * i
/-- STM.STATUS (04_supervisor_and_step_machines). -/
abbrev Reg.STM_STATUS (i : Nat) : Nat := 0x050300 + 4 * i
/-- STM.PROG_SEL (04_supervisor_and_step_machines). -/
abbrev Reg.STM_PROG_SEL : Nat := 0x050500
/-- STM.PROG_ADDR (04_supervisor_and_step_machines). -/
abbrev Reg.STM_PROG_ADDR : Nat := 0x050504
/-- STM.PROG_DATA (04_supervisor_and_step_machines). -/
abbrev Reg.STM_PROG_DATA : Nat := 0x050508
/-- STM.DBG_SEL (04_supervisor_and_step_machines). -/
abbrev Reg.STM_DBG_SEL : Nat := 0x050600
/-- STM.DBG_PC (04_supervisor_and_step_machines). -/
abbrev Reg.STM_DBG_PC : Nat := 0x050604
/-- STM.DBG_G (04_supervisor_and_step_machines). -/
abbrev Reg.STM_DBG_G (i : Nat) : Nat := 0x050610 + 4 * i
/-- STM.SHARE (04_supervisor_and_step_machines). -/
abbrev Reg.STM_SHARE (i : Nat) : Nat := 0x050700 + 4 * i
/-- CMD.Q_RING (05_commands_fences_commit). -/
abbrev Reg.CMD_Q_RING (i : Nat) : Nat := 0x060100 + 0x20 * i
/-- CMD.EV_RING (05_commands_fences_commit). -/
abbrev Reg.CMD_EV_RING (i : Nat) : Nat := 0x060104 + 0x20 * i
/-- CMD.Q_TAIL (05_commands_fences_commit). -/
abbrev Reg.CMD_Q_TAIL (i : Nat) : Nat := 0x060108 + 0x20 * i
/-- CMD.Q_STATUS (05_commands_fences_commit). -/
abbrev Reg.CMD_Q_STATUS (i : Nat) : Nat := 0x06010C + 0x20 * i
/-- CMD.Q_CTRL (05_commands_fences_commit). -/
abbrev Reg.CMD_Q_CTRL (i : Nat) : Nat := 0x060110 + 0x20 * i
/-- CMD.EV_PTR (05_commands_fences_commit). -/
abbrev Reg.CMD_EV_PTR (i : Nat) : Nat := 0x060114 + 0x20 * i
/-- CMD.FENCE_LO (05_commands_fences_commit). -/
abbrev Reg.CMD_FENCE_LO (i : Nat) : Nat := 0x060400 + 8 * i
/-- CMD.FENCE_HI (05_commands_fences_commit). -/
abbrev Reg.CMD_FENCE_HI (i : Nat) : Nat := 0x060404 + 8 * i
/-- CMD.FCLK_LAST (05_commands_fences_commit). -/
abbrev Reg.CMD_FCLK_LAST (i : Nat) : Nat := 0x060600 + 4 * i
/-- CMD.FCLK_COUNT (05_commands_fences_commit). -/
abbrev Reg.CMD_FCLK_COUNT (i : Nat) : Nat := 0x060620 + 4 * i
/-- CLK.STATUS (06_clocks_reset_startup). -/
abbrev Reg.CLK_STATUS : Nat := 0x010100
/-- SYS.RESET_CTRL (06_clocks_reset_startup). -/
abbrev Reg.SYS_RESET_CTRL : Nat := 0x000208
/-- SYS.RESET_CAUSE (06_clocks_reset_startup). -/
abbrev Reg.SYS_RESET_CAUSE : Nat := 0x000204
/-- SYS.STRAPS (06_clocks_reset_startup). -/
abbrev Reg.SYS_STRAPS : Nat := 0x000200
/-- SYS.BOOT_STAGE (06_clocks_reset_startup). -/
abbrev Reg.SYS_BOOT_STAGE : Nat := 0x00020C
/-- JLI.ALIGNED_LO (07_jlink). -/
abbrev Reg.JLI_ALIGNED_LO : Nat := 0x080040
/-- JLO.ALIGNED_LO (07_jlink). -/
abbrev Reg.JLO_ALIGNED_LO : Nat := 0x090040
/-- JLX.ALIGNED_LO (07_jlink). -/
abbrev Reg.JLX_ALIGNED_LO : Nat := 0x0A0040
/-- JLI.ALIGNED_HI (07_jlink). -/
abbrev Reg.JLI_ALIGNED_HI : Nat := 0x080044
/-- JLO.ALIGNED_HI (07_jlink). -/
abbrev Reg.JLO_ALIGNED_HI : Nat := 0x090044
/-- JLX.ALIGNED_HI (07_jlink). -/
abbrev Reg.JLX_ALIGNED_HI : Nat := 0x0A0044
/-- JLI.CNT_CLR (07_jlink). -/
abbrev Reg.JLI_CNT_CLR : Nat := 0x080048
/-- JLO.CNT_CLR (07_jlink). -/
abbrev Reg.JLO_CNT_CLR : Nat := 0x090048
/-- JLX.CNT_CLR (07_jlink). -/
abbrev Reg.JLX_CNT_CLR : Nat := 0x0A0048
/-- JLI.EQ_ADAPT (07_jlink). -/
abbrev Reg.JLI_EQ_ADAPT : Nat := 0x08004C
/-- JLO.EQ_ADAPT (07_jlink). -/
abbrev Reg.JLO_EQ_ADAPT : Nat := 0x09004C
/-- JLX.EQ_ADAPT (07_jlink). -/
abbrev Reg.JLX_EQ_ADAPT : Nat := 0x0A004C
/-- JLI.EQ_PRESET (07_jlink). -/
abbrev Reg.JLI_EQ_PRESET (i : Nat) : Nat := 0x080080 + 4 * i
/-- JLO.EQ_PRESET (07_jlink). -/
abbrev Reg.JLO_EQ_PRESET (i : Nat) : Nat := 0x090080 + 4 * i
/-- JLX.EQ_PRESET (07_jlink). -/
abbrev Reg.JLX_EQ_PRESET (i : Nat) : Nat := 0x0A0080 + 4 * i
/-- JLI.PORT_CTRL (07_jlink). -/
abbrev Reg.JLI_PORT_CTRL (i : Nat) : Nat := 0x080200 + 0x20 * i
/-- JLO.PORT_CTRL (07_jlink). -/
abbrev Reg.JLO_PORT_CTRL (i : Nat) : Nat := 0x090200 + 0x20 * i
/-- JLX.PORT_CTRL (07_jlink). -/
abbrev Reg.JLX_PORT_CTRL (i : Nat) : Nat := 0x0A0200 + 0x20 * i
/-- JLI.PORT_STATUS (07_jlink). -/
abbrev Reg.JLI_PORT_STATUS (i : Nat) : Nat := 0x080204 + 0x20 * i
/-- JLO.PORT_STATUS (07_jlink). -/
abbrev Reg.JLO_PORT_STATUS (i : Nat) : Nat := 0x090204 + 0x20 * i
/-- JLX.PORT_STATUS (07_jlink). -/
abbrev Reg.JLX_PORT_STATUS (i : Nat) : Nat := 0x0A0204 + 0x20 * i
/-- JLI.CNT_A (07_jlink). -/
abbrev Reg.JLI_CNT_A (i : Nat) : Nat := 0x08020C + 0x20 * i
/-- JLO.CNT_A (07_jlink). -/
abbrev Reg.JLO_CNT_A (i : Nat) : Nat := 0x09020C + 0x20 * i
/-- JLX.CNT_A (07_jlink). -/
abbrev Reg.JLX_CNT_A (i : Nat) : Nat := 0x0A020C + 0x20 * i
/-- JLI.CNT_B (07_jlink). -/
abbrev Reg.JLI_CNT_B (i : Nat) : Nat := 0x080210 + 0x20 * i
/-- JLO.CNT_B (07_jlink). -/
abbrev Reg.JLO_CNT_B (i : Nat) : Nat := 0x090210 + 0x20 * i
/-- JLX.CNT_B (07_jlink). -/
abbrev Reg.JLX_CNT_B (i : Nat) : Nat := 0x0A0210 + 0x20 * i
/-- JLI.PORT_SKEW (07_jlink). -/
abbrev Reg.JLI_PORT_SKEW (i : Nat) : Nat := 0x080208 + 0x20 * i
/-- JLX.PORT_SKEW (07_jlink). -/
abbrev Reg.JLX_PORT_SKEW (i : Nat) : Nat := 0x0A0208 + 0x20 * i
/-- JLO.HEAD_UID (07_jlink). -/
abbrev Reg.JLO_HEAD_UID (i : Nat) : Nat := 0x090208 + 0x20 * i
/-- JLO.HEAD_LAST (07_jlink). -/
abbrev Reg.JLO_HEAD_LAST (i : Nat) : Nat := 0x090214 + 0x20 * i
/-- JLO.CTRL_ACK (07_jlink). -/
abbrev Reg.JLO_CTRL_ACK (i : Nat) : Nat := 0x090218 + 0x20 * i
/-- JLX.FAR_STATUS (07_jlink). -/
abbrev Reg.JLX_FAR_STATUS (i : Nat) : Nat := 0x0A0214 + 0x20 * i
/-- JLX.PKT_TX (07_jlink). -/
abbrev Reg.JLX_PKT_TX (i : Nat) : Nat := 0x0A0218 + 0x20 * i
/-- JLX.PKT_RX (07_jlink). -/
abbrev Reg.JLX_PKT_RX (i : Nat) : Nat := 0x0A021C + 0x20 * i
/-- ETH.ALM_TAI_LO (08_ip_ingest_and_decode). -/
abbrev Reg.ETH_ALM_TAI_LO : Nat := 0x0B0100
/-- ETH.ALM_TAI_HI (08_ip_ingest_and_decode). -/
abbrev Reg.ETH_ALM_TAI_HI : Nat := 0x0B0104
/-- ETH.ALM_TS32 (08_ip_ingest_and_decode). -/
abbrev Reg.ETH_ALM_TS32 : Nat := 0x0B0108
/-- ETH.MCAST_USED (08_ip_ingest_and_decode). -/
abbrev Reg.ETH_MCAST_USED : Nat := 0x0B010C
/-- ETH.PORT_CTRL (08_ip_ingest_and_decode). -/
abbrev Reg.ETH_PORT_CTRL (i : Nat) : Nat := 0x0B0200 + 0x40 * i
/-- ETH.PORT_STATUS (08_ip_ingest_and_decode). -/
abbrev Reg.ETH_PORT_STATUS (i : Nat) : Nat := 0x0B0204 + 0x40 * i
/-- ETH.MAC_LO (08_ip_ingest_and_decode). -/
abbrev Reg.ETH_MAC_LO (i : Nat) : Nat := 0x0B0208 + 0x40 * i
/-- ETH.MAC_HI (08_ip_ingest_and_decode). -/
abbrev Reg.ETH_MAC_HI (i : Nat) : Nat := 0x0B020C + 0x40 * i
/-- ETH.IPV4 (08_ip_ingest_and_decode). -/
abbrev Reg.ETH_IPV4 (i : Nat) : Nat := 0x0B0210 + 0x40 * i
/-- ETH.CNT (08_ip_ingest_and_decode). -/
abbrev Reg.ETH_CNT (i : Nat) (j : Nat) : Nat := 0x0B0214 + 0x40 * i + 4 * j
/-- DEC.CORE_STATUS (08_ip_ingest_and_decode). -/
abbrev Reg.DEC_CORE_STATUS (i : Nat) : Nat := 0x0D0100 + 4 * i
/-- DEC.CTX_SEL (08_ip_ingest_and_decode). -/
abbrev Reg.DEC_CTX_SEL : Nat := 0x0D0140
/-- DEC.CTX_STATE (08_ip_ingest_and_decode). -/
abbrev Reg.DEC_CTX_STATE : Nat := 0x0D0144
/-- DEC.CTX_SSRC (08_ip_ingest_and_decode). -/
abbrev Reg.DEC_CTX_SSRC : Nat := 0x0D0148
/-- DEC.CTX_CNT (08_ip_ingest_and_decode). -/
abbrev Reg.DEC_CTX_CNT (i : Nat) : Nat := 0x0D0150 + 4 * i
/-- DEC.STAT (08_ip_ingest_and_decode). -/
abbrev Reg.DEC_STAT (i : Nat) : Nat := 0x0D0180 + 4 * i
/-- DEC.STAT_ROWS (08_ip_ingest_and_decode). -/
abbrev Reg.DEC_STAT_ROWS (i : Nat) : Nat := 0x0D0200 + 4 * i
/-- DEC.RUN_MASK (08_ip_ingest_and_decode). -/
abbrev Reg.DEC_RUN_MASK (i : Nat) : Nat := 0x0D0300 + 4 * i
/-- DEC.LOAD (08_ip_ingest_and_decode). -/
abbrev Reg.DEC_LOAD : Nat := 0x0D0340
/-- DEC.LAST_FAULT (08_ip_ingest_and_decode). -/
abbrev Reg.DEC_LAST_FAULT : Nat := 0x0D0344
/-- DEC.CORE_DISABLE (08_ip_ingest_and_decode). -/
abbrev Reg.DEC_CORE_DISABLE : Nat := 0x0D0348
/-- DEC.SKIP_TOL (08_ip_ingest_and_decode). -/
abbrev Reg.DEC_SKIP_TOL : Nat := 0x0D034C
/-- DEC.ZERO_MV (08_ip_ingest_and_decode). -/
abbrev Reg.DEC_ZERO_MV : Nat := 0x0D0350
/-- TIM.STATUS (09_time). -/
abbrev Reg.TIM_STATUS : Nat := 0x070100
/-- TIM.CTRL (09_time). -/
abbrev Reg.TIM_CTRL : Nat := 0x070104
/-- TIM.EPOCH (09_time). -/
abbrev Reg.TIM_EPOCH : Nat := 0x070108
/-- TIM.TS32 (09_time). -/
abbrev Reg.TIM_TS32 : Nat := 0x07010C
/-- TIM.ADDEND_LO (09_time). -/
abbrev Reg.TIM_ADDEND_LO : Nat := 0x070110
/-- TIM.ADDEND_HI (09_time). -/
abbrev Reg.TIM_ADDEND_HI : Nat := 0x070114
/-- TIM.LIMITS (09_time). -/
abbrev Reg.TIM_LIMITS : Nat := 0x070118
/-- TIM.OFFSET (09_time). -/
abbrev Reg.TIM_OFFSET : Nat := 0x07011C
/-- TIM.JUMP_SIZE (09_time). -/
abbrev Reg.TIM_JUMP_SIZE : Nat := 0x070120
/-- TIM.STEP_OLD (09_time). -/
abbrev Reg.TIM_STEP_OLD : Nat := 0x070124
/-- TIM.STEP_NEW (09_time). -/
abbrev Reg.TIM_STEP_NEW : Nat := 0x070128
/-- TIM.PTP_CFG (09_time). -/
abbrev Reg.TIM_PTP_CFG : Nat := 0x07012C
/-- TIM.FCLK_NEXT (09_time). -/
abbrev Reg.TIM_FCLK_NEXT (i : Nat) : Nat := 0x070200 + 4 * i
/-- TIM.TPO_TIME (09_time). -/
abbrev Reg.TIM_TPO_TIME (i : Nat) : Nat := 0x070300 + 8 * i
/-- TIM.TPO_CTRL (09_time). -/
abbrev Reg.TIM_TPO_CTRL (i : Nat) : Nat := 0x070304 + 8 * i
/-- MEM.CONFIG (10_memory_controller). -/
abbrev Reg.MEM_CONFIG : Nat := 0x100100
/-- MEM.SPACE (10_memory_controller). -/
abbrev Reg.MEM_SPACE : Nat := 0x100104
/-- MEM.OP_CTRL (10_memory_controller). -/
abbrev Reg.MEM_OP_CTRL : Nat := 0x100108
/-- MEM.OP_STATUS (10_memory_controller). -/
abbrev Reg.MEM_OP_STATUS : Nat := 0x10010C
/-- MEM.TEMP_LOG (10_memory_controller). -/
abbrev Reg.MEM_TEMP_LOG : Nat := 0x100110
/-- MEM.TEMP_TS (10_memory_controller). -/
abbrev Reg.MEM_TEMP_TS : Nat := 0x100114
/-- MEM.RETIRE (10_memory_controller). -/
abbrev Reg.MEM_RETIRE : Nat := 0x100118
/-- MEM.MIGRATE (10_memory_controller). -/
abbrev Reg.MEM_MIGRATE : Nat := 0x10011C
/-- MEM.ERR_ADDR_LO (10_memory_controller). -/
abbrev Reg.MEM_ERR_ADDR_LO : Nat := 0x100120
/-- MEM.ERR_ADDR_HI (10_memory_controller). -/
abbrev Reg.MEM_ERR_ADDR_HI : Nat := 0x100124
/-- MEM.ERR_INFO (10_memory_controller). -/
abbrev Reg.MEM_ERR_INFO : Nat := 0x100128
/-- MEM.SCRUB_CTRL (10_memory_controller). -/
abbrev Reg.MEM_SCRUB_CTRL : Nat := 0x10012C
/-- MEM.SCRUB_POS_LO (10_memory_controller). -/
abbrev Reg.MEM_SCRUB_POS_LO : Nat := 0x100130
/-- MEM.SCRUB_POS_HI (10_memory_controller). -/
abbrev Reg.MEM_SCRUB_POS_HI : Nat := 0x100134
/-- MEM.WRITE_DRAIN (10_memory_controller). -/
abbrev Reg.MEM_WRITE_DRAIN : Nat := 0x100138
/-- MEM.REFRESH_CTRL (10_memory_controller). -/
abbrev Reg.MEM_REFRESH_CTRL : Nat := 0x10013C
/-- MEM.CH_STATUS (10_memory_controller). -/
abbrev Reg.MEM_CH_STATUS (i : Nat) : Nat := 0x100150 + 4 * i
/-- MEM.RANK_STATUS (10_memory_controller). -/
abbrev Reg.MEM_RANK_STATUS (i : Nat) : Nat := 0x100200 + 4 * i
/-- MEM.RANK_ECC (10_memory_controller). -/
abbrev Reg.MEM_RANK_ECC (i : Nat) : Nat := 0x100240 + 4 * i
/-- MEM.RANK_TRAIN (10_memory_controller). -/
abbrev Reg.MEM_RANK_TRAIN (i : Nat) : Nat := 0x100280 + 4 * i
/-- MEM.PORT_QOS (10_memory_controller). -/
abbrev Reg.MEM_PORT_QOS (i : Nat) : Nat := 0x100300 + 4 * i
/-- MEM.PORT_BW (10_memory_controller). -/
abbrev Reg.MEM_PORT_BW (i : Nat) : Nat := 0x100320 + 4 * i
/-- MEM.TIMING (10_memory_controller). -/
abbrev Reg.MEM_TIMING (i : Nat) : Nat := 0x100400 + 4 * i
/-- FSC.SURF_SEL (11_frame_store_and_block_compressor). -/
abbrev Reg.FSC_SURF_SEL : Nat := 0x110100
/-- FSC.SURF_INFO (11_frame_store_and_block_compressor). -/
abbrev Reg.FSC_SURF_INFO : Nat := 0x110104
/-- FSC.SURF_ERR (11_frame_store_and_block_compressor). -/
abbrev Reg.FSC_SURF_ERR : Nat := 0x110108
/-- FSC.SURF_BYTES (11_frame_store_and_block_compressor). -/
abbrev Reg.FSC_SURF_BYTES : Nat := 0x11010C
/-- FSC.RAW_TILES (11_frame_store_and_block_compressor). -/
abbrev Reg.FSC_RAW_TILES : Nat := 0x110110
/-- FSC.WORST_TILE (11_frame_store_and_block_compressor). -/
abbrev Reg.FSC_WORST_TILE : Nat := 0x110114
/-- FSC.WORST_TS (11_frame_store_and_block_compressor). -/
abbrev Reg.FSC_WORST_TS : Nat := 0x110118
/-- FSC.STAT_CLR (11_frame_store_and_block_compressor). -/
abbrev Reg.FSC_STAT_CLR : Nat := 0x11011C
/-- FSC.POISON_LAST (11_frame_store_and_block_compressor). -/
abbrev Reg.FSC_POISON_LAST : Nat := 0x110120
/-- FSC.CFG (11_frame_store_and_block_compressor). -/
abbrev Reg.FSC_CFG : Nat := 0x110124
/-- FSC.TILES_LO (11_frame_store_and_block_compressor). -/
abbrev Reg.FSC_TILES_LO : Nat := 0x110128
/-- FSC.TILES_HI (11_frame_store_and_block_compressor). -/
abbrev Reg.FSC_TILES_HI : Nat := 0x11012C
/-- FSC.ERR_HIST (11_frame_store_and_block_compressor). -/
abbrev Reg.FSC_ERR_HIST (i : Nat) : Nat := 0x110140 + 4 * i
/-- BLK.SUBMIT_LO (11_frame_store_and_block_compressor). -/
abbrev Reg.BLK_SUBMIT_LO : Nat := 0x120100
/-- BLK.SUBMIT_HI (11_frame_store_and_block_compressor). -/
abbrev Reg.BLK_SUBMIT_HI : Nat := 0x120104
/-- BLK.QUEUE (11_frame_store_and_block_compressor). -/
abbrev Reg.BLK_QUEUE : Nat := 0x120108
/-- BLK.CTRL (11_frame_store_and_block_compressor). -/
abbrev Reg.BLK_CTRL : Nat := 0x12010C
/-- BLK.CFG (11_frame_store_and_block_compressor). -/
abbrev Reg.BLK_CFG : Nat := 0x120110
/-- BLK.ACTIVE (11_frame_store_and_block_compressor). -/
abbrev Reg.BLK_ACTIVE : Nat := 0x120114
/-- BLK.RESULT (11_frame_store_and_block_compressor). -/
abbrev Reg.BLK_RESULT : Nat := 0x120140
/-- BLK.RESULT_DATA (11_frame_store_and_block_compressor). -/
abbrev Reg.BLK_RESULT_DATA (i : Nat) : Nat := 0x120144 + 4 * i
/-- BLK.RESULT_ACK (11_frame_store_and_block_compressor). -/
abbrev Reg.BLK_RESULT_ACK : Nat := 0x120154
/-- CMP.NODE_SEL (12_composition). -/
abbrev Reg.CMP_NODE_SEL : Nat := 0x130100
/-- CMP.NODE_STATUS (12_composition). -/
abbrev Reg.CMP_NODE_STATUS : Nat := 0x130104
/-- CMP.FAULT_LAST (12_composition). -/
abbrev Reg.CMP_FAULT_LAST : Nat := 0x130108
/-- CMP.PIPE_USE (12_composition). -/
abbrev Reg.CMP_PIPE_USE : Nat := 0x13010C
/-- CMP.NODE_CTRL (12_composition). -/
abbrev Reg.CMP_NODE_CTRL (i : Nat) : Nat := 0x130400 + 4 * i
/-- SCL.LAYER_SEL (13_scalers). -/
abbrev Reg.SCL_LAYER_SEL : Nat := 0x140100
/-- SCL.LAYER_STATUS (13_scalers). -/
abbrev Reg.SCL_LAYER_STATUS : Nat := 0x140104
/-- SCL.LAST_EVENT (13_scalers). -/
abbrev Reg.SCL_LAST_EVENT : Nat := 0x140108
/-- SCL.PRE_LOAD (13_scalers). -/
abbrev Reg.SCL_PRE_LOAD : Nat := 0x14010C
/-- SCL.SCALER_STATUS (13_scalers). -/
abbrev Reg.SCL_SCALER_STATUS (i : Nat) : Nat := 0x140200 + 4 * i
/-- SCL.SET_STATUS (13_scalers). -/
abbrev Reg.SCL_SET_STATUS (i : Nat) : Nat := 0x140300 + 4 * i
/-- SCL.PRE_BUSY_LO (13_scalers). -/
abbrev Reg.SCL_PRE_BUSY_LO : Nat := 0x140400
/-- SCL.PRE_BUSY_HI (13_scalers). -/
abbrev Reg.SCL_PRE_BUSY_HI : Nat := 0x140404
/-- SCL.PRE_TEST (13_scalers). -/
abbrev Reg.SCL_PRE_TEST : Nat := 0x140408
/-- SCL.PRE_TEST_CNT (13_scalers). -/
abbrev Reg.SCL_PRE_TEST_CNT : Nat := 0x14040C
/-- OUT.SCAN_FAULT (14_outputs_and_lanterns). -/
abbrev Reg.OUT_SCAN_FAULT : Nat := 0x150100
/-- OUT.BONDED (14_outputs_and_lanterns). -/
abbrev Reg.OUT_BONDED : Nat := 0x150104
/-- OUT.UNDERFLOW_LAST (14_outputs_and_lanterns). -/
abbrev Reg.OUT_UNDERFLOW_LAST : Nat := 0x150108
/-- OUT.LANTERN_TOTAL (14_outputs_and_lanterns). -/
abbrev Reg.OUT_LANTERN_TOTAL : Nat := 0x15010C
/-- OUT.OUT_SEL (14_outputs_and_lanterns). -/
abbrev Reg.OUT_OUT_SEL : Nat := 0x150110
/-- OUT.SLACK_MIN (14_outputs_and_lanterns). -/
abbrev Reg.OUT_SLACK_MIN : Nat := 0x150114
/-- OUT.REGION_SEL (14_outputs_and_lanterns). -/
abbrev Reg.OUT_REGION_SEL : Nat := 0x150118
/-- OUT.REGION_X (14_outputs_and_lanterns). -/
abbrev Reg.OUT_REGION_X : Nat := 0x15011C
/-- OUT.REGION_Y (14_outputs_and_lanterns). -/
abbrev Reg.OUT_REGION_Y : Nat := 0x150120
/-- OUT.REGION_SRC (14_outputs_and_lanterns). -/
abbrev Reg.OUT_REGION_SRC : Nat := 0x150124
/-- OUT.REGION_OVER (14_outputs_and_lanterns). -/
abbrev Reg.OUT_REGION_OVER : Nat := 0x150128
/-- OUT.LANTERN_SEL (14_outputs_and_lanterns). -/
abbrev Reg.OUT_LANTERN_SEL : Nat := 0x15012C
/-- OUT.LANTERN_STATUS (14_outputs_and_lanterns). -/
abbrev Reg.OUT_LANTERN_STATUS : Nat := 0x150130
/-- OUT.LANTERN_POS (14_outputs_and_lanterns). -/
abbrev Reg.OUT_LANTERN_POS : Nat := 0x150134
/-- OUT.STATE_COUNT (14_outputs_and_lanterns). -/
abbrev Reg.OUT_STATE_COUNT (i : Nat) : Nat := 0x150140 + 4 * i
/-- OUT.CTRL (14_outputs_and_lanterns). -/
abbrev Reg.OUT_CTRL (i : Nat) : Nat := 0x150400 + 0x20 * i
/-- OUT.STATUS (14_outputs_and_lanterns). -/
abbrev Reg.OUT_STATUS (i : Nat) : Nat := 0x150404 + 0x20 * i
/-- OUT.GEOM (14_outputs_and_lanterns). -/
abbrev Reg.OUT_GEOM (i : Nat) : Nat := 0x150408 + 0x20 * i
/-- OUT.LINES (14_outputs_and_lanterns). -/
abbrev Reg.OUT_LINES (i : Nat) : Nat := 0x15040C + 0x20 * i
/-- OUT.UNDERFLOW (14_outputs_and_lanterns). -/
abbrev Reg.OUT_UNDERFLOW (i : Nat) : Nat := 0x150410 + 0x20 * i
/-- OUT.LAST_FS (14_outputs_and_lanterns). -/
abbrev Reg.OUT_LAST_FS (i : Nat) : Nat := 0x150414 + 0x20 * i
/-- OUT.REGIONS (14_outputs_and_lanterns). -/
abbrev Reg.OUT_REGIONS (i : Nat) : Nat := 0x150418 + 0x20 * i
/-- CHK.SEL (15_check_channels). -/
abbrev Reg.CHK_SEL : Nat := 0x160100
/-- CHK.STATUS (15_check_channels). -/
abbrev Reg.CHK_STATUS : Nat := 0x160104
/-- CHK.PARAM (15_check_channels). -/
abbrev Reg.CHK_PARAM : Nat := 0x160108
/-- CHK.POLY_LO (15_check_channels). -/
abbrev Reg.CHK_POLY_LO : Nat := 0x16010C
/-- CHK.POLY_HI (15_check_channels). -/
abbrev Reg.CHK_POLY_HI : Nat := 0x160110
/-- CHK.INIT_LO (15_check_channels). -/
abbrev Reg.CHK_INIT_LO : Nat := 0x160114
/-- CHK.INIT_HI (15_check_channels). -/
abbrev Reg.CHK_INIT_HI : Nat := 0x160118
/-- CHK.EXP_LO (15_check_channels). -/
abbrev Reg.CHK_EXP_LO : Nat := 0x16011C
/-- CHK.EXP_HI (15_check_channels). -/
abbrev Reg.CHK_EXP_HI : Nat := 0x160120
/-- CHK.CTX_LO (15_check_channels). -/
abbrev Reg.CHK_CTX_LO : Nat := 0x160124
/-- CHK.CTX_HI (15_check_channels). -/
abbrev Reg.CHK_CTX_HI : Nat := 0x160128
/-- CHK.DATA (15_check_channels). -/
abbrev Reg.CHK_DATA : Nat := 0x16012C
/-- CHK.CTRL (15_check_channels). -/
abbrev Reg.CHK_CTRL (i : Nat) : Nat := 0x160400 + 0x10 * i
/-- CHK.RESULT_LO (15_check_channels). -/
abbrev Reg.CHK_RESULT_LO (i : Nat) : Nat := 0x160404 + 0x10 * i
/-- CHK.RESULT_HI (15_check_channels). -/
abbrev Reg.CHK_RESULT_HI (i : Nat) : Nat := 0x160408 + 0x10 * i
/-- VGL.CHANGE_LAST (16_freshness). -/
abbrev Reg.VGL_CHANGE_LAST : Nat := 0x170100
/-- VGL.CHANGE_TS (16_freshness). -/
abbrev Reg.VGL_CHANGE_TS : Nat := 0x170104
/-- VGL.FROZEN_LAST (16_freshness). -/
abbrev Reg.VGL_FROZEN_LAST : Nat := 0x170108
/-- VGL.REPEAT_LAST (16_freshness). -/
abbrev Reg.VGL_REPEAT_LAST : Nat := 0x17010C
/-- VGL.GLASS_LAST (16_freshness). -/
abbrev Reg.VGL_GLASS_LAST : Nat := 0x170110
/-- VGL.GLASS_SENT (16_freshness). -/
abbrev Reg.VGL_GLASS_SENT : Nat := 0x170114
/-- VGL.GLASS_RETURNED (16_freshness). -/
abbrev Reg.VGL_GLASS_RETURNED : Nat := 0x170118
/-- VGL.STRICT_BAD (16_freshness). -/
abbrev Reg.VGL_STRICT_BAD : Nat := 0x17011C
/-- VGL.CFG (16_freshness). -/
abbrev Reg.VGL_CFG : Nat := 0x170120
/-- VGL.MISMATCH_MASK (16_freshness). -/
abbrev Reg.VGL_MISMATCH_MASK : Nat := 0x170124
/-- VGL.HEAD_FROZEN_MASK (16_freshness). -/
abbrev Reg.VGL_HEAD_FROZEN_MASK : Nat := 0x170128
/-- VGL.LOOP_OPEN_MASK (16_freshness). -/
abbrev Reg.VGL_LOOP_OPEN_MASK : Nat := 0x17012C
/-- VGL.LOOP (16_freshness). -/
abbrev Reg.VGL_LOOP (i : Nat) : Nat := 0x170200 + 4 * i
/-- ENC.STAT_SEL (17_wall_encoding). -/
abbrev Reg.ENC_STAT_SEL : Nat := 0x0E0100
/-- ENC.STAT (17_wall_encoding). -/
abbrev Reg.ENC_STAT (i : Nat) : Nat := 0x0E0104 + 4 * i
/-- TCH.MAP_CTRL (18_touch). -/
abbrev Reg.TCH_MAP_CTRL : Nat := 0x180100
/-- TCH.ZONE_SEL (18_touch). -/
abbrev Reg.TCH_ZONE_SEL : Nat := 0x180104
/-- TCH.ZONE_ACTIVE_LO (18_touch). -/
abbrev Reg.TCH_ZONE_ACTIVE_LO : Nat := 0x180108
/-- TCH.ZONE_ACTIVE_HI (18_touch). -/
abbrev Reg.TCH_ZONE_ACTIVE_HI : Nat := 0x18010C
/-- TCH.RING (18_touch). -/
abbrev Reg.TCH_RING (i : Nat) : Nat := 0x180200 + 0x10 * i
/-- TCH.RING_PTR (18_touch). -/
abbrev Reg.TCH_RING_PTR (i : Nat) : Nat := 0x180204 + 0x10 * i
/-- TCH.STATUS (18_touch). -/
abbrev Reg.TCH_STATUS (i : Nat) : Nat := 0x180208 + 0x10 * i
/-- TWN.STATUS (19_twin). -/
abbrev Reg.TWN_STATUS : Nat := 0x190100
/-- TWN.PATHS (19_twin). -/
abbrev Reg.TWN_PATHS : Nat := 0x190104
/-- TWN.CTRL (19_twin). -/
abbrev Reg.TWN_CTRL : Nat := 0x190108
/-- TWN.CFG (19_twin). -/
abbrev Reg.TWN_CFG : Nat := 0x19010C
/-- TWN.EPOCH_CFG (19_twin). -/
abbrev Reg.TWN_EPOCH_CFG : Nat := 0x190110
/-- TWN.LAST_EPOCH (19_twin). -/
abbrev Reg.TWN_LAST_EPOCH : Nat := 0x190114
/-- TWN.PEER_OFFSET (19_twin). -/
abbrev Reg.TWN_PEER_OFFSET : Nat := 0x190120
/-- TWN.PEER_GEN (19_twin). -/
abbrev Reg.TWN_PEER_GEN : Nat := 0x190124
/-- TWN.TAKEOVER_TS (19_twin). -/
abbrev Reg.TWN_TAKEOVER_TS : Nat := 0x190148
/-- TWN.FILL (19_twin). -/
abbrev Reg.TWN_FILL : Nat := 0x190118
/-- TWN.SLIPS (19_twin). -/
abbrev Reg.TWN_SLIPS : Nat := 0x19011C
/-- TWN.UID_LO (19_twin). -/
abbrev Reg.TWN_UID_LO : Nat := 0x190128
/-- TWN.UID_HI (19_twin). -/
abbrev Reg.TWN_UID_HI : Nat := 0x19012C
/-- TWN.PEER_UID_LO (19_twin). -/
abbrev Reg.TWN_PEER_UID_LO : Nat := 0x190130
/-- TWN.PEER_UID_HI (19_twin). -/
abbrev Reg.TWN_PEER_UID_HI : Nat := 0x190134
/-- TWN.CMP_LAST (19_twin). -/
abbrev Reg.TWN_CMP_LAST : Nat := 0x190138
/-- TWN.CMP_SIG_A (19_twin). -/
abbrev Reg.TWN_CMP_SIG_A : Nat := 0x19013C
/-- TWN.CMP_SIG_S (19_twin). -/
abbrev Reg.TWN_CMP_SIG_S : Nat := 0x190140
/-- TWN.CMP_SIG_H (19_twin). -/
abbrev Reg.TWN_CMP_SIG_H : Nat := 0x190144
/-- TWN.RESYNC (19_twin). -/
abbrev Reg.TWN_RESYNC : Nat := 0x19014C
/-- TWN.OUT_CMP (19_twin). -/
abbrev Reg.TWN_OUT_CMP (i : Nat) : Nat := 0x190200 + 4 * i
/-- CAS.STATUS (20_cascade). -/
abbrev Reg.CAS_STATUS : Nat := 0x1A0100
/-- CAS.RING_OFFSET (20_cascade). -/
abbrev Reg.CAS_RING_OFFSET : Nat := 0x1A0104
/-- CAS.COMMIT_GEN (20_cascade). -/
abbrev Reg.CAS_COMMIT_GEN : Nat := 0x1A0108
/-- CAS.COMMIT_INFO (20_cascade). -/
abbrev Reg.CAS_COMMIT_INFO : Nat := 0x1A010C
/-- CAS.SUBS (20_cascade). -/
abbrev Reg.CAS_SUBS : Nat := 0x1A0110
/-- CAS.CFG (20_cascade). -/
abbrev Reg.CAS_CFG : Nat := 0x1A0114
/-- CAS.RELAY_ADDR (20_cascade). -/
abbrev Reg.CAS_RELAY_ADDR : Nat := 0x1A0140
/-- CAS.RELAY_DATA (20_cascade). -/
abbrev Reg.CAS_RELAY_DATA : Nat := 0x1A0144
/-- CAS.RELAY_CTRL (20_cascade). -/
abbrev Reg.CAS_RELAY_CTRL : Nat := 0x1A0148
/-- CAS.RELAY_STATUS (20_cascade). -/
abbrev Reg.CAS_RELAY_STATUS : Nat := 0x1A014C
/-- CAS.RELAY_RESULT (20_cascade). -/
abbrev Reg.CAS_RELAY_RESULT : Nat := 0x1A0150
/-- CAS.RELAY_ACK (20_cascade). -/
abbrev Reg.CAS_RELAY_ACK : Nat := 0x1A0154
/-- CAS.LINK (20_cascade). -/
abbrev Reg.CAS_LINK (i : Nat) : Nat := 0x1A0200 + 0x10 * i
/-- CAS.TX_BW (20_cascade). -/
abbrev Reg.CAS_TX_BW (i : Nat) : Nat := 0x1A0204 + 0x10 * i
/-- CAS.RX_BW (20_cascade). -/
abbrev Reg.CAS_RX_BW (i : Nat) : Nat := 0x1A0208 + 0x10 * i
/-- CAS.DROP (20_cascade). -/
abbrev Reg.CAS_DROP (i : Nat) : Nat := 0x1A020C + 0x10 * i
/-- CAS.MEMBER (20_cascade). -/
abbrev Reg.CAS_MEMBER (i : Nat) : Nat := 0x1A0300 + 8 * i
/-- CAS.MEMBER_GEN (20_cascade). -/
abbrev Reg.CAS_MEMBER_GEN (i : Nat) : Nat := 0x1A0304 + 8 * i
/-- THM.STATUS (21_electrical_and_package). -/
abbrev Reg.THM_STATUS : Nat := 0x1B0100
/-- THM.CFG (21_electrical_and_package). -/
abbrev Reg.THM_CFG : Nat := 0x1B0104
/-- THM.POWER (21_electrical_and_package). -/
abbrev Reg.THM_POWER : Nat := 0x1B0108
/-- THM.VOLT_LAST (21_electrical_and_package). -/
abbrev Reg.THM_VOLT_LAST : Nat := 0x1B010C
/-- THM.TEMP (21_electrical_and_package). -/
abbrev Reg.THM_TEMP (i : Nat) : Nat := 0x1B0200 + 4 * i
/-- THM.VOLT (21_electrical_and_package). -/
abbrev Reg.THM_VOLT (i : Nat) : Nat := 0x1B0280 + 4 * i
/-- ENC.CFG (17_wall_encoding). -/
abbrev Reg.ENC_CFG (i : Nat) : Nat := 0x0E0200 + 0x40 * i
/-- ENC.RC (17_wall_encoding). -/
abbrev Reg.ENC_RC (i : Nat) : Nat := 0x0E0204 + 0x40 * i
/-- ENC.PATH (17_wall_encoding). -/
abbrev Reg.ENC_PATH (i : Nat) : Nat := 0x0E0208 + 0x40 * i
/-- ENC.DEST (17_wall_encoding). -/
abbrev Reg.ENC_DEST (i : Nat) (j : Nat) : Nat := 0x0E020C + 0x40 * i + 4 * j
/-- ENC.UDP (17_wall_encoding). -/
abbrev Reg.ENC_UDP (i : Nat) : Nat := 0x0E021C + 0x40 * i
/-- ENC.SSRC (17_wall_encoding). -/
abbrev Reg.ENC_SSRC (i : Nat) : Nat := 0x0E0220 + 0x40 * i
/-- ENC.RING (17_wall_encoding). -/
abbrev Reg.ENC_RING (i : Nat) : Nat := 0x0E0224 + 0x40 * i
/-- ENC.RING_PTR (17_wall_encoding). -/
abbrev Reg.ENC_RING_PTR (i : Nat) : Nat := 0x0E0228 + 0x40 * i
/-- ENC.STATUS (17_wall_encoding). -/
abbrev Reg.ENC_STATUS (i : Nat) : Nat := 0x0E022C + 0x40 * i

/-! Block numbers: the base of a block divided by 0x1_0000 (R86). -/
abbrev Blk.SYS : Nat := 0
abbrev Blk.CLK : Nat := 1
abbrev Blk.HIF : Nat := 2
abbrev Blk.BMX : Nat := 3
abbrev Blk.SVP : Nat := 4
abbrev Blk.STM : Nat := 5
abbrev Blk.CMD : Nat := 6
abbrev Blk.TIM : Nat := 7
abbrev Blk.JLI : Nat := 8
abbrev Blk.JLO : Nat := 9
abbrev Blk.JLX : Nat := 10
abbrev Blk.ETH : Nat := 11
abbrev Blk.ING : Nat := 12
abbrev Blk.DEC : Nat := 13
abbrev Blk.ENC : Nat := 14
abbrev Blk.MEM : Nat := 16
abbrev Blk.FSC : Nat := 17
abbrev Blk.BLK : Nat := 18
abbrev Blk.CMP : Nat := 19
abbrev Blk.SCL : Nat := 20
abbrev Blk.OUT : Nat := 21
abbrev Blk.CHK : Nat := 22
abbrev Blk.VGL : Nat := 23
abbrev Blk.TCH : Nat := 24
abbrev Blk.TWN : Nat := 25
abbrev Blk.CAS : Nat := 26
abbrev Blk.THM : Nat := 27

/-- The registers of block SYS after its header, as its chapter's tables give them. -/
def Reg.tableSYS : List RegDesc :=
  [.ro 0x000400 0x4 1 0,
   .ro 0x000404 0x4 1 0,
   .ro 0x000408 0x4 1 0xFFFF_FFFF,
   .ro 0x00040C 0x4 1 0x00FF_FFFF,
   ⟨0x000410, 0x4, 1, 0x4, 1, 0, 0, 0, 0, 0x0000_00FF, 0, 0, false⟩,
   .ro 0x000040 0x4 1 0,
   ⟨0x000080, 0x4, 1, 0x4, 1, 0, 0, 0, 0, 0xFFFF_FFFF, 0, 0, false⟩,
   ⟨0x000084, 0x4, 1, 0x4, 1, 0, 0, 0, 0x0000_0001, 0, 0, 0, false⟩,
   .ro 0x000088 0x4 1 0,
   .ro 0x00008C 0x4 1 0,
   .ro 0x000090 0x4 1 0,
   ⟨0x000208, 0x4, 1, 0x4, 1, 0, 0, 0, 0, 0xFFFF_FFFF, 0, 0xFFFF_FFFF, true⟩,
   .ro 0x000204 0x4 1 0,
   .ro 0x000200 0x4 1 0,
   .ro 0x00020C 0x4 1 0]
/-- The registers of block CLK after its header, as its chapter's tables give them. -/
def Reg.tableCLK : List RegDesc :=
  [.ro 0x010100 0x4 1 0]
/-- The registers of block HIF after its header, as its chapter's tables give them. -/
def Reg.tableHIF : List RegDesc :=
  [⟨0x020100, 0x4, 1, 0x4, 1, 0, 0x0003_FFFF, 0, 0, 0, 0, 0, false⟩]
/-- The registers of block BMX after its header, as its chapter's tables give them. -/
def Reg.tableBMX : List RegDesc :=
  [⟨0x030040, 0x4, 7, 0x4, 1, 0, 0x0000_000F, 0, 0, 0, 0, 0xFFFF_FFFF, true⟩,
   ⟨0x030200, 0x8, 16, 0x4, 1, 0, 0xC3FF_FFFF, 0, 0, 0, 0, 0xFFFF_FFFF, true⟩,
   ⟨0x030204, 0x8, 16, 0x4, 1, 0, 0x03FF_FFFF, 0, 0, 0, 0, 0xFFFF_FFFF, true⟩,
   .ro 0x030100 0x4 1 0,
   ⟨0x030104, 0x4, 1, 0x4, 1, 0x0000_00FF, 0, 0x8000_0000, 0, 0, 0, 0, false⟩]
/-- The registers of block SVP after its header, as its chapter's tables give them. -/
def Reg.tableSVP : List RegDesc :=
  [⟨0x040100, 0x4, 1, 0x4, 1, 0, 0x0000_00FF, 0, 0, 0, 0, 0, false⟩,
   ⟨0x040110, 0x4, 8, 0x4, 1, 0, 0xFFFF_FFFF, 0, 0, 0, 0, 0, false⟩,
   .ro 0x040140 0x4 1 0,
   .ro 0x040144 0x4 8 0,
   ⟨0x040170, 0x4, 1, 0x4, 1, 0, 0, 0, 0, 0x0000_00FF, 0, 0, false⟩,
   .ro 0x040200 0x4 1 0x0100_0000,
   .ro 0x040204 0x4 1 0]
/-- The registers of block STM after its header, as its chapter's tables give them. -/
def Reg.tableSTM : List RegDesc :=
  [⟨0x050100, 0x4, 65, 0x4, 1, 0, 0x83C0_03FF, 0, 0x6000_0000, 0, 0, 0xDFFF_FFFF, false⟩,
   .ro 0x050300 0x4 65 0,
   ⟨0x050500, 0x4, 1, 0x4, 1, 0, 0x0000_007F, 0x8000_0000, 0, 0, 0, 0xFFFF_FFFF, true⟩,
   ⟨0x050504, 0x4, 1, 0x4, 1, 0, 0x0000_01FF, 0, 0, 0, 0, 0xFFFF_FFFF, true⟩,
   ⟨0x050508, 0x4, 1, 0x4, 1, 0, 0xFFFF_FFFF, 0, 0, 0, 0, 0xFFFF_FFFF, true⟩,
   ⟨0x050600, 0x4, 1, 0x4, 1, 0, 0x0000_007F, 0, 0, 0, 0, 0x0000_007F, true⟩,
   ⟨0x050604, 0x4, 1, 0x4, 1, 0, 0, 0, 0, 0, 0, 0x0000_FDFF, true⟩,
   ⟨0x050610, 0x4, 8, 0x4, 1, 0, 0, 0, 0, 0, 0, 0xFFFF_FFFF, true⟩,
   ⟨0x050700, 0x4, 48, 0x4, 1, 0, 0xFFFF_FFFF, 0, 0, 0, 0, 0, false⟩]
/-- The registers of block CMD after its header, as its chapter's tables give them. -/
def Reg.tableCMD : List RegDesc :=
  [⟨0x060100, 0x20, 16, 0x4, 1, 0x6000_0000, 0xF3FF_FFFF, 0, 0, 0, 0, 0, false⟩,
   ⟨0x060104, 0x20, 16, 0x4, 1, 0x6000_0000, 0xF3FF_FFFF, 0, 0, 0, 0, 0, false⟩,
   ⟨0x060108, 0x20, 16, 0x4, 1, 0, 0x0000_FFFF, 0, 0, 0, 0, 0, false⟩,
   .ro 0x06010C 0x20 16 0,
   ⟨0x060110, 0x20, 16, 0x4, 1, 0, 0x8000_0000, 0, 0x6000_0000, 0, 0, 0, false⟩,
   ⟨0x060114, 0x20, 16, 0x4, 1, 0, 0x0000_FFFF, 0, 0, 0, 0, 0, false⟩,
   .ro 0x060400 0x8 64 0,
   .ro 0x060404 0x8 64 0,
   .ro 0x060600 0x4 8 0,
   .ro 0x060620 0x4 8 0]
/-- The registers of block TIM after its header, as its chapter's tables give them. -/
def Reg.tableTIM : List RegDesc :=
  [.ro 0x070100 0x4 1 0x2000_0000,
   ⟨0x070104, 0x4, 1, 0x4, 1, 0, 0x4000_0000, 0, 0x8000_0000, 0, 0, 0x4000_0000, false⟩,
   .ro 0x070108 0x4 1 0,
   .ro 0x07010C 0x4 1 0,
   ⟨0x070110, 0x4, 1, 0x4, 1, 0xAAAA_AAAB, 0xFFFF_FFFF, 0, 0, 0, 0, 0xFFFF_FFFF, true⟩,
   ⟨0x070114, 0x4, 1, 0x4, 1, 0x0000_01AA, 0x0000_FFFF, 0, 0, 0, 0, 0x0000_FFFF, true⟩,
   ⟨0x070118, 0x4, 1, 0x4, 1, 0x0064_000A, 0xFFFF_FFFF, 0, 0, 0, 0, 0xFFFF_FFFF, true⟩,
   .ro 0x07011C 0x4 1 0,
   .ro 0x070120 0x4 1 0,
   .ro 0x070124 0x4 1 0,
   .ro 0x070128 0x4 1 0,
   ⟨0x07012C, 0x4, 1, 0x4, 1, 0, 0xFFC0_0000, 0, 0, 0, 0, 0, false⟩,
   .ro 0x070200 0x4 8 0,
   ⟨0x070300, 0x8, 8, 0x4, 1, 0, 0xFFFF_FFFF, 0, 0, 0, 0, 0, false⟩,
   ⟨0x070304, 0x8, 8, 0x4, 1, 0, 0xFFFF_FFFF, 0, 0, 0, 0, 0, false⟩]
/-- The registers of block JLI after its header, as its chapter's tables give them. -/
def Reg.tableJLI : List RegDesc :=
  [.ro 0x080040 0x4 1 0,
   .ro 0x080044 0x4 1 0,
   ⟨0x080048, 0x4, 1, 0x4, 1, 0, 0, 0, 0, 0x0000_00FF, 0, 0xFFFF_FFFF, true⟩,
   ⟨0x08004C, 0x4, 1, 0x4, 1, 0, 0x8000_0000, 0, 0, 0, 0, 0xFFFF_FFFF, true⟩,
   ⟨0x080080, 0x4, 32, 0x4, 1, 0x8600_6800, 0, 0, 0, 0, 0xFF80_F800, 0xFFFF_FFFF, true⟩,
   ⟨0x080200, 0x20, 40, 0x4, 1, 0x8000_0000, 0, 0, 0, 0, 0xC01F_03FF, 0xFFFF_FFFF, true⟩,
   .ro 0x080204 0x20 40 0,
   .ro 0x08020C 0x20 40 0,
   .ro 0x080210 0x20 40 0,
   .ro 0x080208 0x20 40 0x1F1F_1F1F]
/-- The registers of block JLO after its header, as its chapter's tables give them. -/
def Reg.tableJLO : List RegDesc :=
  [.ro 0x090040 0x4 1 0,
   .ro 0x090044 0x4 1 0,
   ⟨0x090048, 0x4, 1, 0x4, 1, 0, 0, 0, 0, 0x0000_00FF, 0, 0xFFFF_FFFF, true⟩,
   ⟨0x09004C, 0x4, 1, 0x4, 1, 0, 0x8000_0000, 0, 0, 0, 0, 0xFFFF_FFFF, true⟩,
   ⟨0x090080, 0x4, 16, 0x4, 1, 0x8600_6800, 0, 0, 0, 0, 0xFF80_F800, 0xFFFF_FFFF, true⟩,
   ⟨0x090200, 0x20, 24, 0x4, 1, 0x8000_0000, 0, 0, 0, 0, 0xC01F_03FF, 0xFFFF_FFFF, true⟩,
   .ro 0x090204 0x20 24 0,
   .ro 0x09020C 0x20 24 0,
   .ro 0x090210 0x20 24 0,
   .ro 0x090208 0x20 24 0,
   .ro 0x090214 0x20 24 0,
   .ro 0x090218 0x20 24 0]
/-- The registers of block JLX after its header, as its chapter's tables give them. -/
def Reg.tableJLX : List RegDesc :=
  [.ro 0x0A0040 0x4 1 0,
   .ro 0x0A0044 0x4 1 0,
   ⟨0x0A0048, 0x4, 1, 0x4, 1, 0, 0, 0, 0, 0x0000_00FF, 0, 0xFFFF_FFFF, true⟩,
   ⟨0x0A004C, 0x4, 1, 0x4, 1, 0, 0x8000_0000, 0, 0, 0, 0, 0xFFFF_FFFF, true⟩,
   ⟨0x0A0080, 0x4, 16, 0x4, 1, 0x8600_6800, 0, 0, 0, 0, 0xFF80_F800, 0xFFFF_FFFF, true⟩,
   ⟨0x0A0200, 0x20, 6, 0x4, 1, 0x8000_0000, 0, 0, 0, 0, 0xC01F_03FF, 0xFFFF_FFFF, true⟩,
   .ro 0x0A0204 0x20 6 0,
   .ro 0x0A020C 0x20 6 0,
   .ro 0x0A0210 0x20 6 0,
   .ro 0x0A0208 0x20 6 0x1F1F_1F1F,
   .ro 0x0A0214 0x20 6 0,
   .ro 0x0A0218 0x20 6 0,
   .ro 0x0A021C 0x20 6 0]
/-- The registers of block ETH after its header, as its chapter's tables give them. -/
def Reg.tableETH : List RegDesc :=
  [.ro 0x0B0100 0x4 1 0,
   .ro 0x0B0104 0x4 1 0,
   .ro 0x0B0108 0x4 1 0,
   .ro 0x0B010C 0x4 1 0,
   ⟨0x0B0200, 0x40, 8, 0x4, 1, 0, 0, 0, 0, 0, 0xF800_0FFF, 0xFFFF_FFFF, true⟩,
   .ro 0x0B0204 0x40 8 0,
   .ro 0x0B0208 0x40 8 0,
   .ro 0x0B020C 0x40 8 0,
   .ro 0x0B0210 0x40 8 0,
   ⟨0x0B0214, 0x4, 11, 0x40, 8, 0, 0, 0, 0, 0, 0, 0, false⟩]
/-- The registers of block ING after its header, as its chapter's tables give them. -/
def Reg.tableING : List RegDesc :=
  []
/-- The registers of block DEC after its header, as its chapter's tables give them. -/
def Reg.tableDEC : List RegDesc :=
  [.ro 0x0D0100 0x4 8 0,
   ⟨0x0D0140, 0x4, 1, 0x4, 1, 0, 0x0000_00FF, 0, 0, 0, 0, 0, false⟩,
   .ro 0x0D0144 0x4 1 0,
   .ro 0x0D0148 0x4 1 0,
   .ro 0x0D0150 0x4 8 0,
   .ro 0x0D0180 0x4 16 0,
   .ro 0x0D0200 0x4 36 0,
   .ro 0x0D0300 0x4 8 0,
   .ro 0x0D0340 0x4 1 0,
   .ro 0x0D0344 0x4 1 0,
   ⟨0x0D0348, 0x4, 1, 0x4, 1, 0, 0x0000_00FF, 0, 0, 0, 0, 0x0000_00FF, true⟩,
   ⟨0x0D034C, 0x4, 1, 0x4, 1, 0, 0, 0, 0, 0, 0x0000_FFFF, 0x0000_FFFF, true⟩,
   ⟨0x0D0350, 0x4, 1, 0x4, 1, 0, 0, 0, 0, 0, 0x0000_00FF, 0x0000_00FF, true⟩]
/-- The registers of block ENC after its header, as its chapter's tables give them. -/
def Reg.tableENC : List RegDesc :=
  [⟨0x0E0100, 0x4, 1, 0x4, 1, 0, 0x0000_0003, 0, 0, 0, 0, 0, false⟩,
   .ro 0x0E0104 0x4 11 0,
   ⟨0x0E0200, 0x40, 4, 0x4, 1, 0x03C0_0000, 0xFFFF_0FFF, 0, 0, 0, 0, 0xFFFF_0FFF, true⟩,
   ⟨0x0E0204, 0x40, 4, 0x4, 1, 0xCCA0_0000, 0, 0, 0, 0, 0xFFFF_FFFF, 0xFFF0_0000, false⟩,
   ⟨0x0E0208, 0x40, 4, 0x4, 1, 0x0060_0000, 0xFFFF_0FFF, 0, 0, 0, 0, 0xFFFF_0FFF, true⟩,
   ⟨0x0E020C, 0x4, 4, 0x40, 4, 0, 0xFFFF_FFFF, 0, 0, 0, 0, 0xFFFF_FFFF, true⟩,
   ⟨0x0E021C, 0x40, 4, 0x4, 1, 0, 0xFFFF_FFFF, 0, 0, 0, 0, 0xFFFF_FFFF, true⟩,
   ⟨0x0E0220, 0x40, 4, 0x4, 1, 0, 0xFFFF_FFFF, 0, 0, 0, 0, 0xFFFF_FFFF, true⟩,
   ⟨0x0E0224, 0x40, 4, 0x4, 1, 0, 0xF3FF_FFFF, 0, 0, 0, 0, 0xF3FF_FFFF, true⟩,
   ⟨0x0E0228, 0x40, 4, 0x4, 1, 0, 0x0000_FFFF, 0, 0, 0, 0, 0, false⟩,
   .ro 0x0E022C 0x40 4 0]
/-- The registers of block MEM after its header, as its chapter's tables give them. -/
def Reg.tableMEM : List RegDesc :=
  [.ro 0x100100 0x4 1 0,
   .ro 0x100104 0x4 1 0,
   ⟨0x100108, 0x4, 1, 0x4, 1, 0, 0x0000_0001, 0, 0x8000_0000, 0, 0, 0x8000_0001, true⟩,
   .ro 0x10010C 0x4 1 0,
   .ro 0x100110 0x4 1 0,
   .ro 0x100114 0x4 1 0,
   ⟨0x100118, 0x4, 1, 0x4, 1, 0, 0, 0, 0, 0xFFFF_800F, 0, 0xFFFF_FFFF, true⟩,
   .ro 0x10011C 0x4 1 0,
   .ro 0x100120 0x4 1 0,
   .ro 0x100124 0x4 1 0,
   ⟨0x100128, 0x4, 1, 0x4, 1, 0x00F0_0000, 0, 0x8000_0000, 0, 0, 0, 0, false⟩,
   ⟨0x10012C, 0x4, 1, 0x4, 1, 0x8000_0018, 0x8000_00FF, 0, 0, 0, 0, 0x8000_00FF, true⟩,
   .ro 0x100130 0x4 1 0,
   .ro 0x100134 0x4 1 0,
   ⟨0x100138, 0x4, 1, 0x4, 1, 0x0000_3010, 0x0000_FFFF, 0, 0, 0, 0, 0x0000_FFFF, true⟩,
   ⟨0x10013C, 0x4, 1, 0x4, 1, 0x00FA_0004, 0xFFFF_0007, 0, 0, 0, 0, 0xFFFF_0007, true⟩,
   .ro 0x100150 0x4 4 0,
   .ro 0x100200 0x4 16 0,
   .ro 0x100240 0x4 16 0x0000_00F0,
   .ro 0x100280 0x4 16 0,
   ⟨0x100300, 0x4, 8, 0x4, 1, 0, 0xC000_FFFF, 0, 0, 0, 0, 0xC000_FFFF, true⟩,
   .ro 0x100320 0x4 8 0,
   ⟨0x100400, 0x4, 16, 0x4, 1, 0, 0xFFFF_FFFF, 0, 0, 0, 0, 0xFFFF_FFFF, true⟩]
/-- The registers of block FSC after its header, as its chapter's tables give them. -/
def Reg.tableFSC : List RegDesc :=
  [⟨0x110100, 0x4, 1, 0x4, 1, 0, 0x0000_0FFF, 0, 0, 0, 0, 0, false⟩,
   .ro 0x110104 0x4 1 0,
   .ro 0x110108 0x4 1 0,
   .ro 0x11010C 0x4 1 0,
   .ro 0x110110 0x4 1 0,
   .ro 0x110114 0x4 1 0,
   .ro 0x110118 0x4 1 0,
   ⟨0x11011C, 0x4, 1, 0x4, 1, 0, 0, 0, 0xC000_0000, 0, 0, 0, false⟩,
   .ro 0x110120 0x4 1 0,
   ⟨0x110124, 0x4, 1, 0x4, 1, 0x0000_0001, 0, 0, 0, 0, 0x0000_0003, 0xFFFF_FFFF, true⟩,
   .ro 0x110128 0x4 1 0,
   .ro 0x11012C 0x4 1 0,
   .ro 0x110140 0x4 8 0]
/-- The registers of block BLK after its header, as its chapter's tables give them. -/
def Reg.tableBLK : List RegDesc :=
  [⟨0x120100, 0x4, 1, 0x4, 1, 0, 0, 0, 0, 0xFFFF_FFFF, 0, 0, false⟩,
   ⟨0x120104, 0x4, 1, 0x4, 1, 0, 0, 0, 0, 0x0000_003F, 0, 0, false⟩,
   ⟨0x120108, 0x4, 1, 0x4, 1, 0, 0, 0x8000_0000, 0, 0, 0, 0, false⟩,
   ⟨0x12010C, 0x4, 1, 0x4, 1, 0, 0, 0, 0x8000_0000, 0, 0, 0, false⟩,
   ⟨0x120110, 0x4, 1, 0x4, 1, 0x4000_0000, 0xF000_FFFF, 0, 0, 0, 0, 0xFFFF_FFFF, true⟩,
   .ro 0x120114 0x4 1 0,
   .ro 0x120140 0x4 1 0,
   .ro 0x120144 0x4 4 0,
   ⟨0x120154, 0x4, 1, 0x4, 1, 0, 0, 0, 0, 0x0000_00FF, 0, 0, false⟩]
/-- The registers of block CMP after its header, as its chapter's tables give them. -/
def Reg.tableCMP : List RegDesc :=
  [⟨0x130100, 0x4, 1, 0x4, 1, 0, 0x0000_00FF, 0, 0, 0, 0, 0, false⟩,
   .ro 0x130104 0x4 1 0,
   .ro 0x130108 0x4 1 0,
   .ro 0x13010C 0x4 1 0,
   ⟨0x130400, 0x4, 256, 0x4, 1, 0x0000_0001, 0, 0, 0, 0, 0x0000_F031, 0xFFFF_FFFF, true⟩]
/-- The registers of block SCL after its header, as its chapter's tables give them. -/
def Reg.tableSCL : List RegDesc :=
  [⟨0x140100, 0x4, 1, 0x4, 1, 0, 0x0000_0FFF, 0, 0, 0, 0, 0, false⟩,
   .ro 0x140104 0x4 1 0,
   .ro 0x140108 0x4 1 0,
   .ro 0x14010C 0x4 1 0,
   .ro 0x140200 0x4 32 0,
   .ro 0x140300 0x4 16 0,
   .ro 0x140400 0x4 1 0,
   .ro 0x140404 0x4 1 0,
   .ro 0x140408 0x4 1 0,
   .ro 0x14040C 0x4 1 0]
/-- The registers of block OUT after its header, as its chapter's tables give them. -/
def Reg.tableOUT : List RegDesc :=
  [.ro 0x150100 0x4 1 0,
   .ro 0x150104 0x4 1 0,
   .ro 0x150108 0x4 1 0,
   .ro 0x15010C 0x4 1 0,
   ⟨0x150110, 0x4, 1, 0x4, 1, 0, 0x0000_001F, 0, 0, 0, 0, 0, false⟩,
   .ro 0x150114 0x4 1 0,
   ⟨0x150118, 0x4, 1, 0x4, 1, 0, 0x0000_003F, 0, 0, 0, 0, 0, false⟩,
   .ro 0x15011C 0x4 1 0,
   .ro 0x150120 0x4 1 0,
   .ro 0x150124 0x4 1 0,
   .ro 0x150128 0x4 1 0,
   ⟨0x15012C, 0x4, 1, 0x4, 1, 0, 0x0000_0FFF, 0, 0, 0, 0, 0, false⟩,
   .ro 0x150130 0x4 1 0,
   .ro 0x150134 0x4 1 0,
   .ro 0x150140 0x4 6 0,
   ⟨0x150400, 0x20, 24, 0x4, 1, 0, 0, 0, 0, 0, 0x8000_0000, 0xFFFF_FFFF, true⟩,
   .ro 0x150404 0x20 24 0,
   .ro 0x150408 0x20 24 0,
   .ro 0x15040C 0x20 24 0,
   .ro 0x150410 0x20 24 0,
   .ro 0x150414 0x20 24 0,
   .ro 0x150418 0x20 24 0]
/-- The registers of block CHK after its header, as its chapter's tables give them. -/
def Reg.tableCHK : List RegDesc :=
  [⟨0x160100, 0x4, 1, 0x4, 1, 0, 0x0000_033F, 0, 0, 0, 0, 0, false⟩,
   ⟨0x160104, 0x4, 1, 0x4, 1, 0, 0, 0x0000_1000, 0, 0, 0, 0, false⟩,
   ⟨0x160108, 0x4, 1, 0x4, 1, 0x0000_0720, 0x0000_077F, 0, 0, 0, 0, 0xFFFF_FFFF, true⟩,
   ⟨0x16010C, 0x4, 1, 0x4, 1, 0x1EDC_6F41, 0xFFFF_FFFF, 0, 0, 0, 0, 0xFFFF_FFFF, true⟩,
   ⟨0x160110, 0x4, 1, 0x4, 1, 0, 0xFFFF_FFFF, 0, 0, 0, 0, 0xFFFF_FFFF, true⟩,
   ⟨0x160114, 0x4, 1, 0x4, 1, 0xFFFF_FFFF, 0xFFFF_FFFF, 0, 0, 0, 0, 0xFFFF_FFFF, true⟩,
   ⟨0x160118, 0x4, 1, 0x4, 1, 0, 0xFFFF_FFFF, 0, 0, 0, 0, 0xFFFF_FFFF, true⟩,
   ⟨0x16011C, 0x4, 1, 0x4, 1, 0, 0xFFFF_FFFF, 0, 0, 0, 0, 0, false⟩,
   ⟨0x160120, 0x4, 1, 0x4, 1, 0, 0xFFFF_FFFF, 0, 0, 0, 0, 0, false⟩,
   ⟨0x160124, 0x4, 1, 0x4, 1, 0, 0xFFFF_FFFF, 0, 0, 0, 0, 0, false⟩,
   ⟨0x160128, 0x4, 1, 0x4, 1, 0, 0xFFFF_FFFF, 0, 0, 0, 0, 0, false⟩,
   ⟨0x16012C, 0x4, 1, 0x4, 1, 0, 0, 0, 0, 0xFFFF_FFFF, 0, 0, false⟩,
   ⟨0x160400, 0x10, 64, 0x4, 1, 0, 0, 0, 0xC000_0000, 0, 0x3F80_0FFF, 0x3FFF_FFFF, false⟩,
   .ro 0x160404 0x10 64 0,
   .ro 0x160408 0x10 64 0]
/-- The registers of block VGL after its header, as its chapter's tables give them. -/
def Reg.tableVGL : List RegDesc :=
  [.ro 0x170100 0x4 1 0,
   .ro 0x170104 0x4 1 0,
   .ro 0x170108 0x4 1 0,
   .ro 0x17010C 0x4 1 0,
   .ro 0x170110 0x4 1 0,
   .ro 0x170114 0x4 1 0,
   .ro 0x170118 0x4 1 0,
   .ro 0x17011C 0x4 1 0,
   ⟨0x170120, 0x4, 1, 0x4, 1, 0x0003_0202, 0, 0, 0, 0, 0x00FF_FFFF, 0xFFFF_FFFF, true⟩,
   .ro 0x170124 0x4 1 0,
   .ro 0x170128 0x4 1 0,
   .ro 0x17012C 0x4 1 0,
   .ro 0x170200 0x4 24 0]
/-- The registers of block TCH after its header, as its chapter's tables give them. -/
def Reg.tableTCH : List RegDesc :=
  [⟨0x180100, 0x4, 1, 0x4, 1, 0, 0x0000_001F, 0, 0x8000_0000, 0, 0, 0x8000_001F, false⟩,
   ⟨0x180104, 0x4, 1, 0x4, 1, 0, 0x0000_001F, 0, 0, 0, 0, 0, false⟩,
   .ro 0x180108 0x4 1 0,
   .ro 0x18010C 0x4 1 0,
   ⟨0x180200, 0x10, 24, 0x4, 1, 0x6000_0000, 0xF3FF_FFFF, 0, 0, 0, 0, 0, false⟩,
   ⟨0x180204, 0x10, 24, 0x4, 1, 0, 0x0000_FFFF, 0, 0, 0, 0, 0, false⟩,
   .ro 0x180208 0x10 24 0]
/-- The registers of block TWN after its header, as its chapter's tables give them. -/
def Reg.tableTWN : List RegDesc :=
  [.ro 0x190100 0x4 1 0,
   .ro 0x190104 0x4 1 0,
   ⟨0x190108, 0x4, 1, 0x4, 1, 0, 0, 0, 0xE000_0000, 0, 0, 0xC000_0000, false⟩,
   ⟨0x19010C, 0x4, 1, 0x4, 1, 0, 0xFFFF_FFF8, 0, 0, 0, 0, 0xFFFF_FFF8, true⟩,
   ⟨0x190110, 0x4, 1, 0x4, 1, 0, 0xFFFF_F0FF, 0, 0, 0, 0, 0xFFFF_F0FF, true⟩,
   .ro 0x190114 0x4 1 0,
   .ro 0x190120 0x4 1 0,
   .ro 0x190124 0x4 1 0,
   .ro 0x190148 0x4 1 0,
   .ro 0x190118 0x4 1 0,
   .ro 0x19011C 0x4 1 0,
   .ro 0x190128 0x4 1 0,
   .ro 0x19012C 0x4 1 0,
   .ro 0x190130 0x4 1 0,
   .ro 0x190134 0x4 1 0,
   .ro 0x190138 0x4 1 0,
   .ro 0x19013C 0x4 1 0,
   .ro 0x190140 0x4 1 0,
   .ro 0x190144 0x4 1 0,
   .ro 0x19014C 0x4 1 0,
   .ro 0x190200 0x4 24 0]
/-- The registers of block CAS after its header, as its chapter's tables give them. -/
def Reg.tableCAS : List RegDesc :=
  [.ro 0x1A0100 0x4 1 0x00FF_0000,
   .ro 0x1A0104 0x4 1 0,
   .ro 0x1A0108 0x4 1 0,
   .ro 0x1A010C 0x4 1 0,
   .ro 0x1A0110 0x4 1 0,
   ⟨0x1A0114, 0x4, 1, 0x4, 1, 0, 0xFFFF_00FF, 0, 0, 0, 0, 0xFFFF_FFFF, true⟩,
   ⟨0x1A0140, 0x4, 1, 0x4, 1, 0, 0x7CFF_FFFF, 0, 0, 0, 0, 0, false⟩,
   ⟨0x1A0144, 0x4, 1, 0x4, 1, 0, 0xFFFF_FFFF, 0, 0, 0, 0, 0, false⟩,
   ⟨0x1A0148, 0x4, 1, 0x4, 1, 0, 0, 0x4000_0000, 0x8000_0000, 0, 0, 0, false⟩,
   .ro 0x1A014C 0x4 1 0,
   .ro 0x1A0150 0x4 1 0,
   ⟨0x1A0154, 0x4, 1, 0x4, 1, 0, 0, 0, 0, 0x0000_00FF, 0, 0, false⟩,
   .ro 0x1A0200 0x10 4 0,
   .ro 0x1A0204 0x10 4 0,
   .ro 0x1A0208 0x10 4 0,
   .ro 0x1A020C 0x10 4 0,
   .ro 0x1A0300 0x8 8 0,
   .ro 0x1A0304 0x8 8 0]
/-- The registers of block THM after its header, as its chapter's tables give them. -/
def Reg.tableTHM : List RegDesc :=
  [.ro 0x1B0100 0x4 1 0x0000_8000,
   ⟨0x1B0104, 0x4, 1, 0x4, 1, 0x6405_0000, 0xFFFF_0000, 0, 0, 0, 0, 0xFFFF_FFFF, true⟩,
   .ro 0x1B0108 0x4 1 0,
   .ro 0x1B010C 0x4 1 0,
   .ro 0x1B0200 0x4 16 0x8080_8000,
   .ro 0x1B0280 0x4 16 0]

/-- The header registers of every block (R86), at offsets from the block's base. The reset of BLOCK_ID holds the
stepping; its block number is added by `Reg.resetValue`. -/
def Reg.headerTable : List RegDesc :=
  [⟨0x00, 4, 1, 4, 1, 0x0000_00B1, 0, 0, 0, 0, 0, 0, false⟩,
   ⟨0x10, 4, 1, 4, 1, 0, 0, 0x0000_00FF, 0, 0, 0, 0, false⟩,
   ⟨0x14, 4, 1, 4, 1, 0, 0x0000_00FF, 0, 0, 0, 0, 0, false⟩,
   ⟨0x18, 4, 1, 4, 1, 0, 0, 0, 0, 0x0000_00FF, 0, 0xFFFF_FFFF, true⟩,
   ⟨0x20, 4, 8, 4, 1, 0, 0, 0, 0, 0, 0, 0, false⟩]

/-- The descriptors of one block (R85): the registers that the spec describes. What R85 counts beyond them it describes
nowhere; their offsets are unmapped here (DESIGN CHOICE, assumption 50). -/
def Reg.tableOf (k : Nat) : List RegDesc :=
  match k with
  | 0 => Reg.tableSYS
  | 1 => Reg.tableCLK
  | 2 => Reg.tableHIF
  | 3 => Reg.tableBMX
  | 4 => Reg.tableSVP
  | 5 => Reg.tableSTM
  | 6 => Reg.tableCMD
  | 7 => Reg.tableTIM
  | 8 => Reg.tableJLI
  | 9 => Reg.tableJLO
  | 10 => Reg.tableJLX
  | 11 => Reg.tableETH
  | 12 => Reg.tableING
  | 13 => Reg.tableDEC
  | 14 => Reg.tableENC
  | 16 => Reg.tableMEM
  | 17 => Reg.tableFSC
  | 18 => Reg.tableBLK
  | 19 => Reg.tableCMP
  | 20 => Reg.tableSCL
  | 21 => Reg.tableOUT
  | 22 => Reg.tableCHK
  | 23 => Reg.tableVGL
  | 24 => Reg.tableTCH
  | 25 => Reg.tableTWN
  | 26 => Reg.tableCAS
  | 27 => Reg.tableTHM
  | _ => []

/-- The block of a BAR0 offset: its bits above 0xFFFF. -/
def Reg.blockOf (off : Nat) : Nat := off / 0x1_0000

/-- Is `k` the number of a register block of R85 (15 is the reserved block)? -/
def Reg.isBlock (k : Nat) : Bool := decide (k ≤ 27) && decide (k ≠ 15)

/-- The descriptor of the register at a BAR0 offset, none where no register lies. -/
def Reg.find (off : Nat) : Option RegDesc :=
  let k := Reg.blockOf off
  if Reg.isBlock k then
    match Reg.headerTable.find? (fun d => d.has (off % 0x1_0000)) with
    | some d => some d
    | none => (Reg.tableOf k).find? (fun d => d.has off)
  else none

end Sys2Proof.Machine
end

