-- ==== Sys2Proof/Machine/State.lean ====
section
/-!
DEFINITION. Machine/State.lean: everything the spec gives the machine, as plain data. Registers (R85, R86) and table
windows (R9) have one home, `regs`, keyed by BAR0 offset; what the spec gives the device beside its registers stands
in one structure per chapter. A field's default is its value at reset.
-/
namespace Sys2Proof.Machine

/-! ### What leaves the device -/

/-- One thing the device puts on a pin, a lane or the host's bus. -/
inductive Emit where
  /-- An MSI-X message: vector, then the address and data of its table entry (R90, R91). -/
  | msix (vec : Nat) (addrLo addrHi data : Word)
  /-- A PCIe read completion with data (R73). -/
  | cpl (v : Word)
  /-- A PCIe completion of a BAR2 read: its bytes, and the poisoned (EP) bit (R77, R294). -/
  | cplBytes (bytes : List Byte) (ep : Bool)
  /-- A PCIe completion with Completer Abort status (R103). -/
  | cplAbort
  /-- Bytes driven on the SPI port (R78). -/
  | spi (bytes : List Byte)
  /-- A J-Link packet on a port (numbers of R56): header, payload, CRC and guard (R189, R190, R192). -/
  | packet (port : Nat) (bytes : List Byte)
  /-- One block on a J-Link port: for each data lane the 64 code groups it sends, a bit each, first bit most significant
  (R181). -/
  | block (port : Nat) (lanes : List (List Nat))
  /-- An Ethernet frame of the supervisor or an engine: port ETHn, kind, fields. -/
  | eth (port : Nat) (kind : Nat) (fields : List Nat)
  /-- Read data that the memory controller returns to a memory port: port, address, data, poison (R294). -/
  | memData (port addr : Nat) (data : List Byte) (poison : Bool)
  /-- A pulse on TPOk, high for `width` ns (R271). -/
  | pulse (k width : Nat)
  /-- One 100 µs period of MAYPOLE_OUT, high for `high` ns (R498). -/
  | maypole (high : Nat)
  deriving DecidableEq, Repr

/-! ### Non-volatile store and supervisor (chapter 04) -/

/-- The state of a key slot ("Keys and generations", before R61). -/
inductive KeyState where
  | empty
  | active
  | revoked
  deriving DecidableEq, Repr

/-- One of the four key slots: a SHA-256 digest and a state (before R61). -/
structure KeySlot where
  state  : KeyState := .empty
  digest : List Byte := []
  deriving DecidableEq, Repr

/-- An installed firmware patch (R115). -/
structure Patch where
  bytes : List Byte
  level : Nat
  deriving DecidableEq, Repr

/-- A touch head's reference map (R471): COLS, ROWS, the four frequencies in kHz, the captured baselines keyed frequency
index * 6,144 + node, and the CRC-32C stored with them; COLS 0: none. -/
structure TouchMap where
  cols  : Nat := 0
  rows  : Nat := 0
  freqs : List Nat := []
  vals  : Cells Nat := []
  crc   : Word := 0
  deriving DecidableEq, Repr

/-- The MRAM metadata and regions that every reset keeps (R165). The three copies of the metadata and their majority
are one resolved value here (DESIGN CHOICE, assumption 9). -/
structure Mram where
  /-- four key slots; state and 256-bit digest each (R61) -/
  keys : List KeySlot := [{}, {}, {}, {}]
  /-- GEN_FLOOR, 32 bits (R62) -/
  genFloor : Word := 0
  /-- SYS.X_WRITES, 64 bits (R14) -/
  xWrites : DWord := 0
  /-- history entries of eight words, newest first, at most 4,096 (R519) -/
  history : List (List Word) := []
  /-- boot copy C, at most 4 MiB (before R64) -/
  copyC : List Byte := []
  /-- installed patch, none if none (R115) -/
  patch : Option Patch := none
  /-- highest patch level ever installed, 8 bits (R115) -/
  patchTop : Nat := 0
  /-- TIM.PTP_CFG as kept, 32 bits (R254) -/
  ptpCfg : Word := 0
  /-- trained values kept, keyed rank * 2 + operating point (R289) -/
  trained : Cells Nat := []
  /-- kept retirements: retired ranks with their cause (R299) -/
  retired : List (Nat × Nat) := []
  /-- ranks whose retirement is cleared at the next device reset (R296) -/
  retireClear : List Nat := []
  /-- touch reference maps by head (R471) -/
  touchMaps : Cells TouchMap := []
  /-- the last stop was a thermal trip (R551) -/
  lastTrip : Bool := false
  deriving DecidableEq, Repr

/-- A mailbox request that was accepted and awaits its reply (R108, R109): opcode, captured arguments. -/
structure MboxReq where
  op   : Nat
  args : List Word
  deriving DecidableEq, Repr

/-- The supervisor (R107 to R117). -/
structure Supervisor where
  /-- request being carried out with its captured arguments, none if none (R108) -/
  req : Option MboxReq := none
  /-- the supervisor is restarting after a comparator mismatch (R116) -/
  restarting : Bool := false
  /-- a request was in progress at the mismatch and is answered RESTARTED: opcode and none otherwise (R116) -/
  lostOp : Option Nat := none
  /-- uptime of the last comparator mismatch, none if none (R117) -/
  lastMismatch : Option Nat := none
  /-- TIM.PTP_CFG was written while the supervisor did not run: master selection restarts as it does (R116, R254) -/
  reselect : Bool := false
  deriving DecidableEq, Repr

/-! ### Host ports (chapter 03) -/

/-- What the endpoint's configuration space holds that can change (R73, R165). No row writes it: the model takes the
host's enumeration as part of the link coming up (DESIGN CHOICE, assumption 51). -/
structure PcieConfig where
  /-- the host has enumerated the function: BARs placed, memory space and bus master on, MSI-X Enable set -/
  enumerated : Bool := false
  /-- Function Mask of the MSI-X capability -/
  funcMask : Bool := false
  /-- AER has a correctable, an uncorrectable error on record -/
  corr   : Bool := false
  uncorr : Bool := false
  deriving DecidableEq, Repr

/-- What the host ports hold beside registers. -/
structure HostPort where
  /-- the first key word of R14 has been taken and its 1 ms window runs -/
  keyArmed : Bool := false
  /-- GET_STATUS bit 2, ACCESS_ERR (R83) -/
  spiAccessErr : Bool := false
  /-- GET_STATUS bit 1, CRC_ERR (R83) -/
  spiCrcErr : Bool := false
  /-- the PCIe link is in L0 and the endpoint in D0 (R74) -/
  pcieUp : Bool := false
  /-- configuration space (R165) -/
  cfg : PcieConfig := {}
  /-- pending bits of the 64 MSI-X vectors, read at BAR0 0x02_9000 (R75, R91) -/
  msixPending : DWord := 0
  deriving DecidableEq, Repr

/-! ### Structures and the loader (chapters 01, 02) -/

/-- One record of a structure: TYPE, ID and body (R54). -/
structure Rec where
  type : Nat
  id   : Nat
  body : List Byte
  deriving DecidableEq, Repr

/-- What one record of a delta does to the structure (R69): it takes its place there, or an object leaves. -/
inductive RecAct where
  | put (r : Rec)
  | remove (type id : Nat)
  deriving DecidableEq, Repr

/-- A part of a delta that waits for its own frame clock (R46). -/
structure Late where
  clock : Nat
  act   : RecAct
  deriving DecidableEq, Repr

/-- An accepted delta that awaits its commit point (R46): its generation, frame clock, records and removals. -/
structure Delta where
  gen     : Nat
  fclk    : Nat
  recs    : List Rec
  removes : List (Nat × Nat)
  /-- the mirror epoch it rides on a twin (R146), none where it rides none -/
  epoch   : Option Nat := none
  /-- its bytes, for a peer that resyncs (R515) -/
  image   : List Byte := []
  deriving DecidableEq, Repr

/-- An image submitted by the host that waits for the loader (R72). -/
structure Submission where
  bytes : List Byte
  deriving DecidableEq, Repr

/-- A result that the loader has finished and not yet delivered (R95): code, source, generation, failing record index
and ID, KEYS_UNPROVISIONED. -/
structure LoadResult where
  code   : Nat
  source : Nat
  gen    : Nat
  record : Nat
  object : Nat
  unprov : Bool
  deriving DecidableEq, Repr

/-- How a full image on its way to running stands (R68, R175). -/
inductive StartPhase where
  /-- accepted by the loader over a running structure: startup card at the next FCLK0 commit point -/
  | accepted
  /-- startup card shown, or loaded at boot: starts at the next FCLK0 commit point -/
  | card
  /-- a cascade member that waits for CASCADE_TIME (R175) -/
  | cascadeWait
  deriving DecidableEq, Repr

/-- A full image on its way to running. -/
structure NextPlan where
  gen   : Nat
  recs  : List Rec
  phase : StartPhase
  /-- the mirror epoch it rides on a twin (R146, R510), and its bytes (R515) -/
  epoch : Option Nat := none
  image : List Byte := []
  deriving DecidableEq, Repr

/-- The structure loader and the structure. -/
structure Loader where
  /-- generation of the running structure, 0 for the fallback structure (R67, R69) -/
  gen : Nat := 0
  /-- records of the running structure; none: the fallback structure runs (R67) -/
  recs : List Rec := []
  /-- a loaded structure runs (BOOT_STAGE 5), not the fallback structure (R67) -/
  loaded : Bool := false
  /-- full image on its way to running (R68, R175) -/
  next : Option NextPlan := none
  /-- accepted deltas in acceptance order, at most 4 (R46) -/
  deltas : List Delta := []
  /-- what applied deltas have left for other frame clocks, in acceptance order (R46) -/
  late : List Late := []
  /-- bytes of the running full image and of the deltas applied to it, for a peer that resyncs (R515) -/
  images : List (List Byte) := []
  /-- images submitted and not yet checked (R72) -/
  submitted : List Submission := []
  /-- outputs show the startup card until the next structure starts (R68) -/
  startCard : Bool := false
  /-- a finished result that waits for the window (R95) -/
  held : Option LoadResult := none
  /-- a delta accepted here that awaits the peer's verdict (R510) -/
  deltaVerdict : Option Delta := none
  /-- a full image accepted here that awaits the peer's verdict (R510); one accepted before stands beside it (R68) -/
  nextVerdict : Option NextPlan := none
  deriving DecidableEq, Repr

/-! ### Step machines (chapter 04) -/

/-- What a WAITING step machine waits for (R121). -/
inductive StmWait where
  | none
  /-- IN from port `p` into register `d` -/
  | port (p d : Nat)
  /-- WAITE with `mask` into register `d` -/
  | event (mask d : Nat)
  deriving DecidableEq, Repr

/-- One of the 65 step machines (R119), beside its registers STM.CTRL and STM.STATUS. -/
structure StepMachine where
  /-- program memory, 512 words of 32 bits (R119) -/
  prog : Cells Word := []
  /-- program counter, 9 bits (R119) -/
  pc : Nat := 0
  /-- general registers G0 to G7, 32 bits each (R119) -/
  g : Cells Word := []
  /-- flag Z (R119) -/
  z : Bool := false
  /-- flag N (R119) -/
  n : Bool := false
  /-- flag C (R119) -/
  c : Bool := false
  /-- call stack of at most 4 return addresses, newest first (R119) -/
  stack : List Nat := []
  /-- local data words 0 to 63 (R119) -/
  loc : Cells Word := []
  /-- latched event lines E0 to E15 (R119) -/
  ev : BitVec 16 := 0
  /-- P0 alarm time set and not yet reached (R123) -/
  alarm : Option Word := none
  /-- what a WAITING machine waits for (R121) -/
  wait : StmWait := .none
  /-- tap column and step written to P2, in force from the next frame start: first x, step (R123) -/
  tapX : Nat × Nat := (0, 0)
  /-- tap line, count and sub-stream written to P3 (R123) -/
  tapY : Nat × Nat × Nat := (0, 0, 0)
  /-- the tap settings in force in the current frame: x, step, y, count, sub-stream (R123) -/
  tapNow : List Nat := []
  /-- words present at port P1 TAP, oldest first (R123) -/
  tapFifo : List Word := []
  /-- words present at port P5 ANC, oldest first (R199) -/
  ancFifo : List Word := []
  /-- alive counter written to P4 since the frame's TAP_READY (R124) -/
  alive : Option Nat := none
  /-- TAP_READY of the current frame has occurred (R124) -/
  tapReady : Bool := false
  /-- line written to P2 LINE_SET (R123), none before a write -/
  lineSet : Option Nat := none
  /-- words present at port P1 PROPOSAL of the touch machine (R481) -/
  proposals : List Word := []
  deriving DecidableEq, Repr

/-! ### Command queues and commit points (chapter 05) -/

/-- A command record (R136): the fields of the 32 bytes. -/
structure CmdRec where
  op    : Nat
  flags : Nat
  tag   : Nat
  obj   : Nat
  clock : Nat
  seq   : Nat
  a     : List Nat
  deriving DecidableEq, Repr

/-- What a WAITING queue waits for (R149, R150). -/
inductive QWait where
  | none
  /-- FENCE_WAIT: fence, value, uptime (in CLK_F cycles) at which it times out, its record -/
  | fence (f : Nat) (v : DWord) (deadline : Option Nat) (r : CmdRec)
  /-- WAIT_COMMIT: clock, commit points still to pass, its record -/
  | commits (clk left : Nat) (r : CmdRec)
  /-- SET_SOURCE and others forwarded to another member (R536): the forward's sequence number, its record -/
  | forward (seq : Nat) (r : CmdRec)
  deriving DecidableEq, Repr

/-- One host queue, beside its CMD registers. -/
structure QueueSt where
  /-- what it waits for (R151) -/
  wait : QWait := .none
  /-- queue index of the record it waits in (R149) -/
  waitIndex : Nat := 0
  /-- its event ring refused a record and no slot has been freed since (R156) -/
  ringFull : Bool := false
  /-- HOST streams whose next FLIP from this queue is refused with DMA_FAILED (R140) -/
  dmaFailed : List Nat := []
  deriving DecidableEq, Repr

/-- Who made a change that awaits its commit point. -/
inductive Origin where
  /-- a direct write through a host port (R145) -/
  | direct
  /-- command of a host queue: queue, index, opcode, TAG, OBJECT, EVENT flag -/
  | queue (q index op tag obj : Nat) (event : Bool)
  /-- command of the twin-mirror queue, 16 + the host queue it came from, or of the supervisor queue, 32 (before R132),
  with its opcode -/
  | internal (q op : Nat)
  deriving DecidableEq, Repr

/-- A change that awaits its commit point (R144, R145). -/
inductive Change where
  /-- masked words of registers or table windows: offset, mask, value -/
  | words (l : List (Nat × Word × Word))
  /-- a touch zone: head, zone, kind, x0, y0, x1, y1, maximum hold (R482) -/
  | zone (head zone kind x0 y0 x1 y1 hold : Nat)
  /-- ENC_CTRL: core, action, rate (R454) -/
  | encCtrl (core act rate : Nat)
  /-- a change that another member of the ring holds and makes (R536): nothing changes here -/
  | remote
  deriving DecidableEq, Repr

/-- A held change: acceptance number, origin, commit clock, deferring clock still to pass (R138), the object whose
removal discards it (record TYPE and ID, R49), the mirror epoch it rides (R146), the least FCLK0 count of its commit
point (R536) and the change. -/
structure Held where
  seq    : Nat
  origin : Origin
  clock  : Nat
  defer  : Option Nat
  object : Nat × Nat
  epoch  : Option Nat
  least  : Nat := 0
  change : Change
  deriving DecidableEq, Repr

/-- A COMMIT-mode fence signal that waits for the earlier accepted commands of its queue (R148). -/
structure FencePend where
  /-- its own acceptance number -/
  seq : Nat
  queue : Nat
  /-- queue index and record of the FENCE_SIGNAL -/
  index : Nat
  cmd : CmdRec
  fence : Nat
  value : DWord
  /-- acceptance numbers still outstanding -/
  after : List Nat
  /-- the mirror epoch it rides (R146) -/
  epoch : Option Nat := none
  deriving DecidableEq, Repr

/-- A DMA transfer in progress (R140). -/
structure Dma where
  seq    : Nat
  queue  : Nat
  index  : Nat
  tag    : Nat
  event  : Bool
  stream : Nat
  src    : Nat
  pitch  : Nat
  first  : Nat
  count  : Nat
  window : Nat
  qos    : Nat
  engine : Nat
  /-- the frame was dropped at its start: completes with NO_BUFFER -/
  dropped : Bool
  /-- first address outside its MPU window as the transfer started: of a source line it reads, or else of a tile group
  it stores into (R104) -/
  stray : Option Nat
  /-- the stray access is a write -/
  strayWrite : Bool := false
  deriving DecidableEq, Repr

/-- An accepted DEC_CTRL that waits for its context's picture boundary (R138, R226). -/
structure DecPend where
  seq   : Nat
  queue : Nat
  index : Nat
  cmd   : CmdRec
  deriving DecidableEq, Repr

/-- Queues, fences' pending signals and commit points, beside the CMD registers. -/
structure Cmd where
  /-- the 16 host queues (R132) -/
  queues : Cells QueueSt := []
  /-- changes that await their commit points, in acceptance order, at most 1,024 commands among them (R135, R145) -/
  held : List Held := []
  /-- acceptance number of the next accepted change -/
  nextSeq : Nat := 0
  /-- COMMIT-mode fence signals pending (R148) -/
  fences : List FencePend := []
  /-- DMA transfers in progress, in start order (R140) -/
  dmas : List Dma := []
  /-- DEC_CTRL commands that await their picture boundaries -/
  decs : List DecPend := []
  /-- mirrored FLIPs of a standby that await its own earlier DMAs: queue and record (R140, R493) -/
  flips : List (Nat × CmdRec) := []
  deriving DecidableEq, Repr

/-! ### Start-up and pins (chapter 06) -/

/-- Pins and start-up state. -/
structure Boot where
  /-- PORST_N is high (R166) -/
  porst : Bool := false
  /-- RESET_N is high (R166) -/
  resetN : Bool := true
  /-- the device is held in reset (R166) -/
  inReset : Bool := true
  /-- the reset in force is COLD, so DRAM training is in full (R165) -/
  cold : Bool := true
  /-- ranks fitted on the board, bit i for rank i -/
  fitted : BitVec 16 := 0
  /-- sets of strap reads found unstable (R168) -/
  strapTries : Nat := 0
  /-- the straps are settled (R167, R168) -/
  strapsDone : Bool := false
  /-- the device stopped after a thermal trip until PORST_N falls (R551) -/
  stopped : Bool := false
  /-- THERMTRIP_N is driven low (R551) -/
  thermTrip : Bool := false
  /-- levels driven on GPIO0 to GPIO15 (R125) -/
  gpio : BitVec 16 := 0
  /-- GPIO lines that a machine or the host drives (R125) -/
  gpioDriven : BitVec 16 := 0
  /-- P8 writes kept by a standby: mask of written lines and their values (R125) -/
  gpioShadow : BitVec 16 × BitVec 16 := (0, 0)
  deriving DecidableEq, Repr

/-! ### Time (chapter 09) -/

/-- One frame clock beside TIM.FCLK_NEXT (R267, R268). -/
structure Fclk where
  /-- the clock runs -/
  on : Bool := false
  /-- RATE_NUM and RATE_DEN (R267) -/
  num : Nat := 60
  den : Nat := 1
  /-- ALIGN, SOURCE (false TIME, true FRAME_REF) and PHASE (R267) -/
  align : Bool := false
  ref   : Bool := false
  phase : Nat := 0
  /-- fraction of a nanosecond of the next edge, in 2^-32 ns (R268) -/
  frac : Nat := 0
  /-- error against the TAI grid still to remove, in ns (R264) -/
  err : Int := 0
  /-- last measured period of FRAME_REF in ns, 0 before a measurement (R269) -/
  measured : Nat := 0
  /-- TS32 of the last accepted FRAME_REF edge -/
  lastRef : Option Word := none
  /-- an accepted FRAME_REF edge's clock edge is still to come (R269) -/
  armed : Bool := false
  /-- it runs on its own period, FRAME_REF being lost or not yet followed again (R269) -/
  runOn : Bool := false
  /-- the standby or ring member has locked it to the clock it follows (R496, R529) -/
  locked : Bool := false
  deriving DecidableEq, Repr

/-- A PTP master as a port hears it (R252): ETH port, source port identity, grandmaster identity. -/
structure PtpMaster where
  port : Nat
  src  : Nat
  gm   : Nat
  deriving DecidableEq, Repr

/-- A master and its Announce data set in the order the best master clock algorithm compares (R252). -/
structure Announced where
  who : PtpMaster
  set : List Nat
  deriving DecidableEq, Repr

/-- The delay mechanism of a PTP port (R253, R255). Times are in 1/327,680 ns, so that fifths of a nanosecond and PTP's
corrections are whole. -/
structure PtpPort where
  /-- sequence of the next request -/
  reqSeq : Nat := 0
  /-- two-step Syncs that wait for their Follow_Ups: sender, sequence, stamp, correction -/
  sync : List (Nat × Nat × Int × Int) := []
  /-- stamp of the selected master's last Sync minus its origin and corrections -/
  last : Option Int := none
  /-- request sent: sequence, stamp -/
  req : Option (Nat × Int) := none
  /-- Pdelay_Resp that waits for its Follow_Up: sequence, stamp, time of receipt at the peer less the correction -/
  resp : Option (Nat × Int × Int) := none
  /-- path delay measured, and Sync messages of the selected master since -/
  delay : Option Int := none
  age : Nat := 0
  deriving DecidableEq, Repr

/-- A time epoch that a step has ended (R262): its number, how far TS32 jumped at its end, its last Almanac pair (R265). -/
structure PastEpoch where
  epoch : Nat
  step  : Word
  tai   : DWord
  ts    : Word
  deriving DecidableEq, Repr

/-- TIM and the PTP servo, beside the TIM registers. -/
structure Tim where
  /-- the 72-bit accumulator (R250); TS32 is its bits [71:40] -/
  acc : BitVec 72 := 0
  /-- the derived clocks run, so the accumulator advances (R170) -/
  running : Bool := false
  /-- masters heard and not lost (R252) -/
  announces : List Announced := []
  /-- the selected master, none if none (R252) -/
  master : Option PtpMaster := none
  /-- delay mechanism of each ETH port (R253) -/
  ports : Cells PtpPort := []
  /-- the rate estimate: ADDEND without any slew term, 48 bits (R255) -/
  rate : Nat := 0x1AAAAAAAAAB
  /-- a slew is in progress (R256) -/
  slewing : Bool := false
  /-- the servo has entered TRACK since the last device reset (R428) -/
  tracked : Bool := false
  /-- a step has been taken since reset, so the Almanac holds TAI (R265) -/
  stepped : Bool := false
  /-- 2^32 ns counted above TS32: full device time is hi * 2^32 + TS32, nanoseconds since reset before the first step
  and TAI after it (R265) -/
  hi : Int := 0
  /-- last offset estimate in ns (R265) -/
  lastOffset : Int := 0
  /-- frame clocks FCLK0 to FCLK7 -/
  fclk : Cells Fclk := []
  /-- UTC offset of the PTP domain in seconds, TAI minus UTC as the last ANNOUNCE gave it (R233) -/
  utc : Int := 0
  /-- a step that a cascade member armed to follow its upstream (R260, R528) -/
  cascadeArm : Bool := false
  /-- the time epochs before this one, latest first, as many as CAP_EPOCH tells apart (R266, R440) -/
  past : List PastEpoch := []
  deriving DecidableEq, Repr

/-! ### Twin redundancy (chapter 19) -/

/-- One mirrored item (R505). -/
inductive Item where
  /-- an accepted command: queue and its record -/
  | command (q : Nat) (r : CmdRec)
  /-- an accepted write: BAR0 offset, mask, value -/
  | write (off : Nat) (mask v : Word)
  /-- an accepted image: GEN, DELTA -/
  | image (gen : Nat) (delta : Bool)
  | handover
  deriving DecidableEq, Repr

/-- The SEAL trailer (R506): target FCLK0 count, CRC over the DATA bodies, HEAD of each queue, each fence. -/
structure Trailer where
  target : Nat
  crc    : Word
  heads  : List Nat
  fences : List DWord
  deriving DecidableEq, Repr

/-- How the standby answered the active's sealed epoch. -/
inductive Answer where
  | none
  | ack
  | nack (code : Nat)
  deriving DecidableEq, Repr

/-- The epoch the active has sealed and not yet committed (R506, R508). -/
structure Sealed where
  num     : Nat
  items   : List Item
  trailer : Trailer
  /-- target boundary, an FCLK0 count -/
  target  : Nat
  slips   : Nat
  answer  : Answer
  /-- its fate is commit at the target (COMMIT sent, or alone) -/
  decided : Bool
  /-- it commits on the active alone -/
  alone   : Bool
  deriving DecidableEq, Repr

/-- A mirrored item as the standby holds it, with CMD.FCLK_COUNT of the eight clocks as it arrived: by them a deferring
clock's commit point since the active accepted a command is known (R138, R146). -/
structure RxItem where
  counts : List Nat
  item   : Item
  deriving DecidableEq, Repr

/-- A DATA packet received (R505): epoch, INDEX, items, body. -/
structure RxData where
  epoch : Nat
  index : Nat
  items : List RxItem
  body  : List Byte
  deriving DecidableEq, Repr

/-- A sealed epoch that the standby holds (R507, R509). -/
structure RxEpoch where
  num       : Nat
  items     : List RxItem
  trailer   : Trailer
  target    : Nat
  answer    : Answer
  committed : Bool
  /-- SLIPs received for it (R507) -/
  slips     : Nat := 0
  deriving DecidableEq, Repr

/-- The last HEARTBEAT accepted on a twin port (R497). -/
structure Beat where
  role   : Nat
  side   : Nat
  sync   : Nat
  bflags : Nat
  beat   : Nat
  tSend  : Word
  tEcho  : Word
  tEchoRx : Word
  gen    : Word
  epoch  : Word
  fclk0  : Nat
  uid    : DWord
  health : Word
  fclkNext : List Word
  /-- local TS32 at its EOP -/
  rx     : Word
  /-- local uptime, in CLK_F cycles, at its EOP -/
  upAt   : Nat
  deriving DecidableEq, Repr

/-- The pattern on MAYPOLE_IN (R498). -/
inductive Maypole where
  | silent
  | active
  | standby
  | undefined
  deriving DecidableEq, Repr

/-- Region signatures of one frame of one output, own or received (R406, R512). -/
structure SigFrame where
  out      : Nat
  frame    : Nat
  settling : Bool
  sigs     : List Word
  onAir    : Bool := false
  deriving DecidableEq, Repr

/-- The twin, beside the TWN registers. -/
structure Twin where
  /-- number of the epoch being filled (R506) -/
  filling : Nat := 1
  /-- items of the epoch being filled, newest first (R505) -/
  items : List Item := []
  /-- the sealed epoch whose fate is open or set (R508) -/
  sealed : Option Sealed := none
  /-- DATA packets received and not yet sealed (R505) -/
  rxData : List RxData := []
  /-- channel that the active's last mirrored CHK.SEL names (R418) -/
  mirrorSel : Nat := 0
  /-- sealed epochs held by the standby, oldest first, at most 2 (R507) -/
  rxSealed : List RxEpoch := []
  /-- last accepted beat on TWN0 and TWN1, whether Hornpipe is received there still or not (R497) -/
  beats : List (Option Beat) := [none, none]
  /-- offsets by the last 8 beats of TWN0 and of TWN1, newest first, in ns (R496) -/
  offsets : List (List Int) := [[], []]
  /-- beats sent -/
  beatNo : Nat := 0
  /-- Hornpipe content is not refreshed while the supervisor restarts (R116) -/
  health : List Word := [0, 0, 0, 0, 0, 0, 0, 0]
  /-- pattern of the last complete MAYPOLE_IN period, before agreement (R498) -/
  mpLast : Maypole := .silent
  /-- TS32 of the last rising edge seen on MAYPOLE_IN -/
  mpRise : Option Word := none
  /-- high time in ns of each period that MAYPOLE_OUT is driven with, 0 no edges (R498) -/
  mpHigh : Nat := 0
  /-- MAYPOLE_IN shows edges -/
  mpAlive : Bool := false
  /-- the structure's listen of 10 ms is over (R174) -/
  listened : Bool := false
  /-- becomes ACTIVE at the next FCLK0 commit point (R174, R500) -/
  promote : Bool := false
  /-- FCLK0 commit points since structure start, as both twins count them (R496, R497) -/
  fclk0 : Nat := 0
  /-- own region signatures of recent frames, newest first (R512) -/
  own : List SigFrame := []
  /-- signatures received from the standby, newest first (R512) -/
  peer : List SigFrame := []
  /-- per output: consecutive frames of ACTIVE_DOUBT evidence (R513) -/
  doubt : Cells Nat := []
  /-- per output: consecutive verdict frames in which everything matched (R516) -/
  qual : Cells Nat := []
  /-- a handover was accepted and rides epoch number (R514) -/
  handover : Option Nat := none
  /-- SNAPSHOT packets received: INDEX, items (R515) -/
  snap : List (Nat × List Item) := []
  /-- trailer of the snapshot once complete (R515) -/
  snapTrailer : Option Trailer := none
  /-- image bytes received through IMAGE packets (R510) -/
  image : List Byte := []
  /-- image length announced by IMAGE packets -/
  imageLen : Nat := 0
  /-- images that passed the check here, by generation, and await their APPLY_IMAGE item (R510) -/
  checked : List (Nat × List Byte) := []
  /-- items of the epoch being filled that have left in DATA packets, and those packets' number (R505) -/
  sentItems : Nat := 0
  dataNo : Nat := 0
  /-- trailer of the last epoch or snapshot applied here (R153, R509) -/
  applied : Option Trailer := none
  /-- a peer has been heard since the structure start (R174) -/
  met : Bool := false
  /-- images received for a resync, in order (R515) -/
  fetched : List (List Byte) := []
  /-- the startup card stands for the structure start that a snapshot causes (R515, R68) -/
  snapCard : Bool := false
  /-- CMD.FCLK_COUNT of the eight clocks as the snapshot's trailer arrived (R496) -/
  snapCounts : List Nat := []
  /-- the answer to the last SEAL was a NACK -/
  nacked : Bool := false
  /-- region CRCs that heads have reported, newest first: output, frame, REGION_CRC (R513) -/
  reports : List (Nat × Nat × List Word) := []
  /-- the loader check that awaits the peer's VERDICT: own code, source and generation (R510) -/
  verdict : Option LoadResult := none
  /-- health item results: FAILED bits, DEGRADED or UNTESTED bits (R517) -/
  failed : BitVec 16 := 0
  degraded : BitVec 16 := 0
  /-- per health item: periods in which its test could not run (R517) -/
  untested : Cells Nat := []
  /-- items whose test has run since the last complete pass (R518) -/
  passed : List Nat := []
  /-- last margin sampled of each lane in 1/256 UI, keyed block * 1,024 + port * 8 + lane (R517, R518) -/
  margins : Cells Nat := []
  /-- failed region-signature accumulators, 64 * output + region (R420, R517) -/
  accBad : List Nat := []
  /-- mirror packets whose other copy has not come: KIND, EPOCH, INDEX and the twin port of the copy taken (R504) -/
  seen : List (Nat × Nat × Nat × Nat) := []
  /-- last epoch that the snapshot in transfer holds (R515) -/
  snapEpoch : Nat := 0
  /-- bytes received in the last resync (TWN.RESYNC.KIB) -/
  xfer : Nat := 0
  /-- an active that owes its standby a snapshot, once an epoch that commits alone has committed (R508, R515) -/
  wantSnap : Bool := false
  /-- TS32 at which it became ACTIVE by an exchange of roles, until its peer is heard as STANDBY (R501, R514) -/
  since : Option Word := none
  deriving DecidableEq, Repr

/-! ### Streams and surfaces (chapters 01, 11, 16) -/

/-- A freshness state (R11), in the encoding order of R195. -/
inductive Fresh where
  | live
  | late
  | stale
  | frozen
  | failed
  | unknown
  deriving DecidableEq, Repr

/-- The samples a writer handed to the codec for one level of one buffer (R305, R309): width, height, format code, a
tag that names the undefined content of samples never written, and rows of samples: row keyed plane * 2^14 + y, sample
keyed x. `over`: tiles whose bytes in DRAM the host has changed since (R77): the samples the bytes hold now, none for
a header that R308 calls damaged. -/
structure Img where
  w   : Nat := 0
  h   : Nat := 0
  fmt : Nat := 0
  tag : Nat := 0
  px  : Cells (Cells Nat) := []
  rawTiles : List (Nat × Option (List Nat)) := []
  deriving DecidableEq, Repr

/-- One buffer of a surface: its levels, base first (R21, R22), and the FSC.CFG.BIAS they were coded with (R312). -/
structure Buf where
  levels : List Img := []
  bias   : Nat := 1
  deriving DecidableEq, Repr

/-- What a SURFACE or CASCADE frame states of itself (R438, R439): composite age in 0.1 ms, composite state with its
sub-cause, NEW, FAULT_FRAME, and whether it sets COMPOSITE (a CASCADE frame of a plain stream states no state). -/
structure Stated where
  age   : Nat
  state : Fresh
  sub   : Nat
  new   : Bool
  fault : Bool
  composite : Bool
  /-- composite age at the latch and the TS32 of that latch, which a cascade frame carries (R531) -/
  latchAge : Nat := 0
  latch : Word := 0
  deriving DecidableEq, Repr

/-- A frame on its way to a stream's flip (R195, R198, R428): alive counter, capture time and its domain,
TIM.EPOCH[7:0] when it was stamped, size and format, what has arrived of it. -/
structure Incoming where
  alive : Nat
  cap   : Word
  ptp   : Bool
  epoch : Nat
  w     : Nat
  h     : Nat
  fmt   : Nat
  /-- its pixels as received: the picture to be flipped -/
  img   : Img := {}
  /-- segments received, as (line, first pixel, pixel count) -/
  segs  : List (Nat × Nat × Nat) := []
  /-- no buffer was free at its start (R22) -/
  dropped : Bool := false
  /-- FSC.CFG.BIAS at its start, which codes all of it (DESIGN CHOICE, assumption 61) -/
  bias : Nat := 1
  /-- a part of it is missing or wrong: it is discarded whole (R198) -/
  bad : Bool := false
  deriving DecidableEq, Repr

/-- Who holds a buffer until its frame ends (R22): a layer's latch, an encoder. -/
inductive Reader where
  | layer (i : Nat)
  | encoder (e : Nat)
  deriving DecidableEq, Repr

/-- One stream: its Stream Table entry (R425), its surface binding (R316), its surface's buffers (R22) and the state
of Vigil for it. -/
structure StreamSt where
  /-- the stream exists -/
  on     : Bool := false
  /-- KIND: 0 CAPTURE, 1 IPDEC, 2 SURFACE, 3 HOST, 4 CASCADE (R425) -/
  kind   : Nat := 0
  format : Nat := 0
  width  : Nat := 0
  height : Nat := 0
  /-- EFLAGS.FREEZE_ON -/
  freezeOn : Bool := false
  freezeN  : Nat := 0
  src    : Nat := 0
  rate   : Nat := 0
  /-- MODE, E, PYRAMID, BASE and SIZE of the surface binding (R316) -/
  mode   : Nat := 0
  e      : Nat := 0
  pyramid : Bool := false
  base   : Nat := 0
  size   : Nat := 0
  /-- live fields of the entry (R425) -/
  cap    : Word := 0
  age    : Nat := 0
  state  : Fresh := .unknown
  sub    : Nat := 0
  composite : Bool := false
  rebase : Bool := false
  new    : Bool := false
  faultFrame : Bool := false
  capEpoch : Nat := 0
  alive  : Nat := 0
  crc    : Word := 0
  same   : Nat := 0
  skipRun : Nat := 0
  still  : Nat := 0
  ptp    : Bool := false
  frames : Nat := 0
  lost   : Nat := 0
  repeats : Nat := 0
  flipTs : Word := 0
  changeTs : Word := 0
  restarts : Nat := 0
  tsReject : Nat := 0
  /-- a frame has flipped since the stream started or its source changed (R432) -/
  held   : Bool := false
  /-- FROZEN under R430 -/
  frozen : Bool := false
  /-- state and sub-cause the held frame carries (COMPOSITE streams, R432) -/
  carried : Fresh × Nat := (.live, 0)
  /-- decoder cause of the running FAILED chain, 0 none (R247) -/
  chain  : Nat := 0
  /-- a tile of the held frame reads poison after a rank retirement (R433) -/
  poison : Bool := false
  /-- the three buffers (R22) -/
  bufs   : List Buf := [{}, {}, {}]
  /-- buffer of the most recent complete frame -/
  complete : Option Nat := none
  /-- buffer being written -/
  writing : Option Nat := none
  /-- buffers held by readers -/
  holders : List (Reader × Nat) := []
  /-- frame on its way to the flip -/
  cur    : Option Incoming := none
  /-- HOST: a DMA has completed since the last FLIP, or since the stream started (R140) -/
  dmaDone : Bool := false
  /-- HOST: the frame's first DMA has started (R140) -/
  dmaStarted : Bool := false
  /-- HOST: the frame is dropped for want of a buffer (R140) -/
  dmaDropped : Bool := false
  /-- its allocation was written raw through BAR2 since the last frame start (R77) -/
  rawWritten : Bool := false
  /-- surface statistics (R318): MAX, FRAME_MAX, histogram, bytes and RAW tiles of the last frame, worst tile -/
  statMax : Nat := 0
  statFrameMax : Nat := 0
  statHist : List Nat := [0, 0, 0, 0, 0, 0, 0, 0]
  statBytes : Nat := 0
  statRaw : Nat := 0
  statWorst : Nat × Nat × Nat := (0, 0, 0)
  statWorstTs : Word := 0
  statFrames : Nat := 0
  deriving DecidableEq, Repr

/-! ### Composition, scalers, outputs (chapters 12, 13, 14) -/

/-- A working pixel (R341, R349): R', G', B' and alpha at 12 bits; `fault`: it is fault fill, or was computed through a
scaler tap on fault fill, drawn while the frame was composed (R197, R361). -/
structure Pix where
  r : Nat
  g : Nat
  b : Nat
  a : Nat
  fault : Bool := false
  deriving DecidableEq, Repr

/-- A colour conversion set (R342): m row by row, o, q, and which inputs are aligned by shift (R341). -/
structure Csc where
  m : List Int
  o : List Int
  q : List Int
  shift : List Bool
  deriving DecidableEq, Repr

/-- Where a layer's samples come from in one frame. -/
inductive LayerSrc where
  /-- a SOLID layer's FILL (R333) -/
  | solid (argb : Word)
  /-- a latched surface level: stream, buffer, level, codec MODE, E and BIAS, its samples -/
  | image (strm buf level mode e bias : Nat) (img : Img)
  /-- the canvas of an INLINE node -/
  | node (n : Nat)
  | nothing
  deriving DecidableEq, Repr

/-- What a layer draws in one frame (R353, R358, R441). -/
inductive LayerDraw where
  | content
  /-- the stale card with the seconds shown (R402) -/
  | card (secs : Nat)
  /-- fault fill over the layer's rectangle, with its cause (R358) -/
  | fill (cause : Nat)
  | nothing
  deriving DecidableEq, Repr

/-- One axis of a layer's mapping (R335, R367): crop size, crop origin at the level, destination size; the taps in use
and, row by row, their coefficients; `pass`: vertical pass-through (R377). -/
structure Axis where
  s : Nat
  c : Nat
  d : Nat
  taps : Nat := 0
  coef : List (List Int) := []
  pass : Bool := false
  deriving DecidableEq, Repr

/-- A layer as one frame draws it: descriptor fields, source and policy fixed at the latch (R337, R357). -/
structure DrawLayer where
  index : Nat
  draw  : LayerDraw
  src   : LayerSrc
  /-- destination origin, unclipped -/
  dx : Int
  dy : Int
  /-- clipped rectangle [x0, x1) × [y0, y1) -/
  x0 : Nat
  y0 : Nat
  x1 : Nat
  y1 : Nat
  scaled : Bool
  h : Axis
  v : Axis
  /-- layer format: 0 OPAQUE, 1 STRAIGHT, 2 PREMULT -/
  alpha  : Nat
  lalpha : Nat
  csc : Csc
  /-- palette of an INDEX8 source -/
  palette : List Word := []
  deriving DecidableEq, Repr

/-- A node as one frame draws it: canvas, start value, layers in blending order (R351, R352). -/
structure NodePlan where
  node : Nat
  w : Nat
  h : Nat
  start : Pix
  layers : List DrawLayer
  deriving DecidableEq, Repr

/-- Composite freshness of a node at a latch (R438). -/
structure Composite where
  age   : Nat := 0
  state : Fresh := .live
  sub   : Nat := 0
  new   : Bool := true
  cap   : Word := 0
  deriving DecidableEq, Repr

/-- Output conversion of a frame (R346, R347): destination format, set, dither. -/
structure OutConv where
  fmt : Nat
  csc : Csc
  dither : Bool
  deriving DecidableEq, Repr

/-- A lantern of one frame (R396 to R400): layer, window, glyph origin, state, phase, seconds, guard STRICT, drawn. -/
structure Lantern where
  layer : Nat
  x0 : Nat
  y0 : Nat
  x1 : Nat
  y1 : Nat
  gx : Nat
  gy : Nat
  corner : Nat
  state : Fresh
  phase : Nat
  secs  : Nat
  strict : Bool
  drawn : Bool
  deriving DecidableEq, Repr

/-- A signature region (R404): rectangle, KIND and SOURCE of OUT.REGION_SRC. -/
structure Region where
  x0 : Nat
  y0 : Nat
  x1 : Nat
  y1 : Nat
  kind : Nat
  src  : Nat
  deriving DecidableEq, Repr

/-- A frame being composed: the latched plans (its node first, then the INLINE nodes beneath it), composite freshness
and the TS32 of the latch, and the segments composed so far, keyed line * 1024 + segment. -/
structure Frame where
  plans : List NodePlan
  comp  : Composite
  latch : Word
  /-- ticks counted at the latch (R427, R439) -/
  tick  : Nat := 0
  /-- TIM.EPOCH[7:0] at the latch, by which a step before the flip is seen (R440) -/
  epoch : Nat := 0
  /-- the SURFACE stream it is written to, with its canvas (R33): a NODE record that replaces the node's meanwhile does
  not change the frame in progress -/
  strm  : Nat := 0
  w     : Nat := 0
  h     : Nat := 0
  conv  : OutConv
  segs  : Cells (List Pix) := []
  /-- segments that hold fault fill -/
  faultSegs : Nat := 0
  /-- segments of INLINE nodes beneath that hold fault fill: node, line, segment (R355) -/
  inline : List (Nat × Nat × Nat) := []
  /-- lines [y0, y1) of the windows of its counted layers at the latch (R456) -/
  guarded : List (Nat × Nat) := []
  deriving DecidableEq, Repr

/-- A layer beside its Layer Descriptor Table entry: what Vigil, the scalers and the fabric keep of it. -/
structure LayerSt where
  /-- state and sub-cause at the last latch (R435) -/
  state : Fresh := .unknown
  sub   : Nat := 0x20
  /-- age read at the last latch, in 0.1 ms -/
  age   : Nat := 0
  /-- seconds base of its card: AGE or STILL (R441) -/
  shown : Nat := 0
  /-- LIVE phase of its lantern (R400) -/
  phase : Nat := 0
  /-- its source has changed: the next latch shows phase 0 (R48, R400) -/
  restart : Bool := true
  /-- frame of the last latch: stream, FRAMES, FRAME_CRC (R436) -/
  last : Option (Nat × Nat × Word) := none
  /-- it read a damaged tile in its previous frame: stream and FRAMES of that frame (R437) -/
  poison : Option (Nat × Nat) := none
  /-- a direct write left its descriptor breaking R336 -/
  bad : Bool := false
  /-- a set it names was not valid at its last commit point (R375) -/
  setsBad : Bool := false
  /-- pyramid level in use (R339) -/
  level : Nat := 0
  /-- configured vertical taps, taps in use, pixel-line share, pass-through, short (R378) -/
  tapsConf : Nat := 0
  tapsUsed : Nat := 0
  share : Nat := 0
  pass  : Bool := false
  short : Bool := false
  wc    : Nat := 0
  /-- coefficient rows its scaler took up at its last commit point, horizontal and vertical (R375) -/
  coefH : List (List Int) := []
  coefV : List (List Int) := []
  /-- it meets the GUARD_FAILED condition at its last latch (R447) -/
  strictBad : Bool := false
  /-- its lantern window of the last latch (OUT.LANTERN_STATUS, OUT.LANTERN_POS): output and lantern -/
  lantern : Option (Nat × Lantern) := none
  deriving DecidableEq, Repr

/-- A MEMORY node, or the memory side of a GLASS_MEMORY node, beside its registers. -/
structure NodeSt where
  /-- frame in progress of a MEMORY node (R33) -/
  frame : Option Frame := none
  /-- frames completed since structure start: the alive counter of its SURFACE stream (R429) -/
  count : Nat := 0
  /-- FAULT_SEGS of CMP.NODE_STATUS: segments of the last frame that held fault fill -/
  faultSegs : Nat := 0
  /-- OVERRUN of CMP.NODE_STATUS (R33) -/
  overrun : Nat := 0
  /-- the lanterns its output drew in the frame its surface shows (R456) -/
  glyphs : List Lantern := []
  /-- lines [y0, y1) of the windows of the counted layers of that frame (R456) -/
  guarded : List (Nat × Nat) := []
  /-- the layers before the latch of the frame that started at the last commit point (R33, R375) -/
  before : Option (Cells LayerSt) := none
  deriving DecidableEq, Repr

/-- An OUTPUT_TIMING record (R385). -/
structure Timing where
  w : Nat
  h : Nat
  total : Nat
  fmt : Nat
  bonded : Bool
  commitLead : Nat
  mode : Nat
  gridX : Nat
  gridY : Nat
  deriving DecidableEq, Repr

/-- The frame an output is sending. -/
structure OutFrame where
  no    : Nat
  frame : Frame
  /-- the startup card, no node (R403) -/
  card  : Bool
  lanterns : List Lantern
  onAir : Bool
  /-- regions of the set in force and the register of each accumulator (R420) -/
  regions : List Region
  sigs  : List Nat
  settling : Bool
  /-- commit frame of that set -/
  setNo : Nat := 0
  /-- VIDEO_LINE packets with FAULT and lines sent, per half: even or only port, odd port (R395) -/
  faults : Nat × Nat := (0, 0)
  lines  : Nat × Nat := (0, 0)
  /-- LATE segments in this frame -/
  late : Nat := 0
  /-- composite freshness of a GLASS_MEMORY node's memory copy: a buffer was free at its start (R22) -/
  memory : Bool := false
  /-- the output conversion of that copy, as it stood at the latch (R388) -/
  memConv : Option OutConv := none
  deriving DecidableEq, Repr

/-- A region set announced to the head and not yet in force (R405): set, commit frame, SEQ of its packet. -/
structure RegionFlight where
  set : List Region
  commit : Nat
  /-- an acknowledgement covers a packet that carried its REGION_COMMIT -/
  acked : Bool := false
  deriving DecidableEq, Repr

/-- The signatures of one sent frame, kept for the glass loop (R443). -/
structure SentSigs where
  no : Nat
  sigs : List Word
  settling : Bool
  /-- commit frame of the region set they belong to -/
  setNo : Nat := 0
  /-- a report has been compared with them -/
  compared : Bool := false
  deriving DecidableEq, Repr

/-- One output OUTn, beside its registers; a bonded pair lives in its even port. -/
structure OutputSt where
  /-- a frame has begun at a commit point, or at S (R387, R388) -/
  begun : Bool := false
  /-- TS32 at which the frame began, C or S -/
  start : Word := 0
  /-- period P in force at C, in 2^-32 ns -/
  period : Nat := 0
  /-- a commit point arrived before the frame's VIDEO_FE left (R388) -/
  waitStart : Bool := false
  /-- no CONTROL packet in this shortened blanking (R388) -/
  noControl : Bool := false
  /-- FRAME_NO of the next frame -/
  nextNo : Nat := 0
  /-- raster line now running -/
  line : Nat := 0
  /-- frame being sent, from its latch to its VIDEO_FE -/
  cur : Option OutFrame := none
  /-- raster and lead of a frame that began in a structure which another has replaced since (R388) -/
  old : Option (Timing × Nat) := none
  /-- region set in force, the FRAME_NO from which it applies, whether it is settling (R405) -/
  regions : List Region := []
  commitFrame : Nat := 0
  settling : Bool := false
  /-- raster lines of the current frame that have begun its VIDEO_FS and VIDEO_FE -/
  fsSent : Bool := false
  flight : Option RegionFlight := none
  /-- set derived and not yet announced (R405) -/
  wanted : Option (List Region) := none
  /-- lantern windows without a region (OUT.REGION_OVER) -/
  overCount : Nat := 0
  /-- consecutive underflowing frames (R392) -/
  run : Nat := 0
  /-- in scan-fault hold until this uptime (R392) -/
  hold : Option Nat := none
  /-- CONTROL entries sent and not acknowledged: the SEQs of the packets that carried it, and CODE, INDEX, VALUE (R203) -/
  unacked : List (List Nat × Nat × Nat × Nat) := []
  /-- CONTROL entries queued for the next packet: CODE, INDEX, VALUE -/
  queue : List (Nat × Nat × Nat) := []
  /-- signatures of recent frames, newest first (R443) -/
  sent : List SentSigs := []
  /-- last HEAD_STATUS: FRAME_NO and SCAN_TS32 (R445) -/
  lastReport : Option (Nat × Word) := none
  /-- per region: run of differing and of equal frames, in mismatch (R444) -/
  runs : List (Nat × Nat × Bool) := []
  /-- bad and good pairs in a row, frozen (R445) -/
  badRun  : Nat := 0
  goodRun : Nat := 0
  frozen  : Bool := false
  /-- consecutive missed frames, loop open (R446) -/
  missed : Nat := 0
  openLoop : Bool := false
  /-- the latest HEAD_STATUS of this port reports DUAL_ON_AIR (R212) -/
  dual : Bool := false
  /-- when the last HEAD_STATUS arrived, TS32 -/
  reportTs : Option Word := none
  /-- frames whose every region compared equal, mod 2^16, shown in VGL.LOOP at the next latch -/
  matched : Nat := 0
  deriving DecidableEq, Repr

/-! ### Check channels (chapter 15) -/

/-- One general channel beside CHK.CTRL (R411 to R416). -/
structure Channel where
  /-- IDLE 0, RUNNING 1, FRAME 2, WAIT 3 (CHK.STATUS.STATE) -/
  state : Nat := 0
  /-- context register (R409) -/
  reg : Nat := 0
  /-- parameters of the last computation started, none before one (R417) -/
  par : Option CrcParams := none
  /-- custom set: PARAM, POLY, INIT -/
  param : Word := 0x720
  poly  : DWord := 0x1EDC_6F41
  init  : DWord := 0xFFFF_FFFF
  /-- EXPECT -/
  exp : DWord := 0
  /-- finishes (STATUS.ALIVE, MISMATCH, IGNORED, FAILS) -/
  alive : Nat := 0
  mismatch : Bool := false
  ignored  : Bool := false
  fails : Nat := 0
  deriving DecidableEq, Repr

/-! ### Block compressor (chapter 11) -/

/-- The end of the running job that awaits JOB_DONE: OP, code, the four data words, DRAM address at which a container
still lacks its MAGIC (R323, R326). -/
structure JobEnd where
  op    : Nat
  code  : Nat
  data  : List Word
  magic : Option Nat
  deriving DecidableEq, Repr

/-- The block compressor beside its registers. -/
structure BlkSt where
  /-- descriptor addresses of the host jobs held, oldest first, at most 8; the first runs while the result window is
  empty (R319) -/
  jobs : List Nat := []
  /-- the running job has done its work -/
  done : Option JobEnd := none
  deriving DecidableEq, Repr

/-! ### Prescalers (chapter 13) -/

/-- The pool of 40 ingest prescalers (R384). -/
structure Prescale where
  /-- uptime at which each prescaler has finished its band -/
  busy : Cells Nat := []
  /-- prescalers out of the pool until the next device reset (R517) -/
  out : List Nat := []
  deriving DecidableEq, Repr

/-! ### Encoders (chapter 17) -/

/-- A picture being coded (R455): what the latch took of its frame, its budget, why it is an IRAP. -/
structure EncPic where
  state : Fresh
  sub   : Nat
  age   : Nat
  cap   : Word
  alive : Nat
  epoch : Nat
  /-- RTP timestamp of the capture time -/
  rtp   : Word
  again : Bool
  /-- it holds a damaged tile -/
  damaged : Bool
  forced : Bool
  wanted : Bool
  /-- B under R458 and R460 -/
  budget : Int
  /-- it follows an overrun (R460) -/
  hot   : Bool
  /-- rows of 64 luma lines, those guarded (R456), QP_MIN and QP_MAX in force -/
  rows  : Nat
  guarded : List Nat
  qpMin : Nat
  qpMax : Nat
  standby : Bool
  /-- the picture to code: the level as FSC delivers it, damaged tiles as fault fill, lanterns drawn (R456, R457) -/
  input : Img
  deriving DecidableEq, Repr

/-- A frame that an encoder has coded (R455): its stream, its FRAMES, the RTP timestamp it was given. -/
structure EncSeen where
  strm   : Nat
  frames : Nat
  rtp    : Word
  deriving DecidableEq, Repr

/-- An encoder core beside its registers. -/
structure EncSt where
  /-- commit points of the source clock since its start (R455) -/
  points : Nat := 0
  /-- a latch is due at the commit point that has just passed -/
  due : Bool := false
  /-- an IRAP is requested by ENC_CTRL (R454); forced ones stand in `encIrap` -/
  wanted : Bool := false
  /-- picture being coded -/
  pic : Option EncPic := none
  /-- the frame last coded (R455) -/
  last : Option EncSeen := none
  /-- debt D and installment I in bits (R460) -/
  debt : Nat := 0
  inst : Nat := 0
  /-- the last picture overran by more than a quarter of its budget -/
  hot : Bool := false
  /-- pictures since the last IRAP, that IRAP included -/
  since : Nat := 0
  /-- next picture number and next RTP sequence number -/
  count : Nat := 0
  seq   : Nat := 0
  /-- the 11 STAT words -/
  stat : List Word := [0, 0, 0, 0, 0, 0, 0, 0, 0, 0, 0]
  /-- pictures completed within the last second: uptime and bits (RATE) -/
  coded : List (Nat × Nat) := []
  deriving DecidableEq, Repr


/-! ### Memory controller (chapter 10) -/

/-- A request in a channel's pool (R279): port, write, DRAM address of its line, data written, uptime of arrival. -/
structure MemReq where
  port  : Nat
  write : Bool
  addr  : Nat
  data  : List Byte
  arr   : Nat
  /-- a later access to its line has come: its data stand in DRAM, or `data` holds what it reads, nothing for poison -/
  settled : Bool := false
  deriving DecidableEq, Repr

/-- The memory controller beside its registers. -/
structure MemSt where
  /-- 128-byte lines of DRAM that read as poison, by line number (R294) -/
  poison : List Nat := []
  /-- ranks out of service: the addresses they serve read as poison, writes to them are discarded (R299) -/
  dead : List Nat := []
  /-- home ranks whose spare serves in their place, with the byte ranges written since (R297) -/
  lost : List (Nat × List (Nat × Nat)) := []
  /-- DRAM ranges that a decoder core has left in a layout the spec does not give, and that nothing has written since (R222) -/
  laid : List (Nat × Nat) := []
  /-- requests held by each channel, oldest first (R279) -/
  pool : Cells (List MemReq) := []
  /-- requests that wait at the ports of each channel, oldest first (R279) -/
  waiting : Cells (List MemReq) := []
  /-- open row of each bank plus 1, 0 closed; bank rank * 32 + group * 4 + bank -/
  rows : Cells Nat := []
  /-- bank last picked by each channel (R281) -/
  lastBank : Cells Nat := []
  /-- FCLK0 commit points counted as the pending switch was requested (R291) -/
  switchAt : Nat := 0
  /-- operating point of the pending switch -/
  switchTo : Bool := false
  /-- STATE that a rank returns to after CATCH_UP or TRAINING, by rank; 0 for ACTIVE (R285, R290) -/
  back : Cells Nat := []
  /-- ranks that have left self-refresh and whose MR4 has not been read since (R284, R287) -/
  mr4 : List Nat := []
  /-- copies that wait for the one that runs to end: retiring rank and its spare (R298) -/
  copies : List (Nat × Nat) := []
  /-- the hold of the pending switch has expired (R292) -/
  abandoned : Bool := false
  /-- next place of patrol scrub: the addressed space, then each spare (R294) -/
  scrubPos : Nat := 0
  /-- a SPARE_READY spare that has left self-refresh to be scrubbed (R288) -/
  scrubbed : Option Nat := none
  deriving DecidableEq, Repr

/-! ### J-Link (chapter 07) -/

/-- A block that a LOCKED lane delivered, waiting for its port's other lanes (R185): lane, symbol time of arrival, its
symbols; none for a block discarded for its header (R184). -/
structure LaneSlot where
  lane : Nat
  time : Nat
  syms : Option (List Sym)
  deriving DecidableEq, Repr

/-- The bits of a lane not yet taken as symbols, and where its symbol boundary lies (R183). -/
structure Deser where
  /-- a comma has given the boundary -/
  sync : Bool := false
  /-- the last bits, newest first, at most ten -/
  bits : List Bool := []
  /-- how many of them belong to the symbol in progress -/
  cnt  : Nat := 0
  /-- running disparity, positive when true -/
  rd   : Bool := false
  deriving DecidableEq, Repr

/-- A receive lane (R183). -/
structure Lane where
  /-- 0 HUNT, 1 CHECK, 2 LOCKED, 3 RELOCK, 4 IDLE -/
  st : Nat := 0
  /-- sequence expected of the next header -/
  seq : Nat := 0
  /-- consecutive valid headers in CHECK or RELOCK -/
  run : Nat := 0
  /-- validity of the last headers in LOCKED, newest first, at most 16 -/
  hist : List Bool := []
  /-- its last candidate carried another lane's id (R184) -/
  swap : Bool := false
  /-- it went idle by EIDLE_ENTER (R186) -/
  eidle : Bool := false
  /-- uptime at which it went idle -/
  idleAt : Nat := 0
  /-- symbols after the earliest lane (R185) -/
  skew : Nat := 0
  /-- its bits and symbol boundary (R180, R183) -/
  bits : Deser := {}
  /-- symbols received of the block in progress; in HUNT the header-kind symbol that may open a candidate -/
  blk : List Sym := []
  /-- symbol time of the first symbol of that block -/
  blkAt : Nat := 0
  deriving DecidableEq, Repr

/-- The receiver of a J-Link port, beside its registers; lanes D0 to D3, or BK as lane 0 (R176, R188). -/
structure Link where
  lanes : List Lane := [{}, {}, {}, {}]
  /-- the skew is within limits (R185) -/
  skewOk : Bool := false
  /-- DESKEW_FAIL -/
  deskewFail : Bool := false
  /-- block sequence at which a failed deskew is measured again -/
  measureAt : Nat := 0
  /-- blocks waiting for the port's other lanes, by sequence -/
  slots : Cells (List LaneSlot) := []
  /-- packet in progress: its bytes after SOP, newest first (R189) -/
  pkt : Option (List Byte) := none
  /-- SEQ of the last accepted packet (R194) -/
  lastSeq : Option Nat := none
  /-- CK is present; BK above the idle threshold on JLO -/
  ck : Bool := false
  /-- uptime of the last IDLE packet (R204) -/
  idleRx : Option Nat := none
  deriving DecidableEq, Repr

/-- The transmitter of a JLO or JLX port (R181, R182, R186, R187): its four data lanes send blocks in lockstep. -/
structure Tx where
  /-- out of electrical idle -/
  on : Bool := false
  /-- sequence of the next block -/
  seq : Nat := 0
  /-- running disparity of D0 to D3, positive when true -/
  rd : List Bool := [false, false, false, false]
  /-- payload symbols that wait for a data block -/
  queue : List Sym := []
  /-- idle blocks of the training burst still to be sent -/
  burst : Nat := 0
  /-- uptime at which the lanes went idle -/
  idleAt : Nat := 0
  /-- CK has run since then -/
  ckKept : Bool := false
  deriving DecidableEq, Repr

/-! ### Network and decoders (chapter 08) -/

/-- A membership report that is still to be sent a second time (R219): port, group, source (none without SSM), join. -/
structure Report where
  port  : Nat
  ip6   : Bool
  group : List Byte
  source : List Byte
  join  : Bool
  deriving DecidableEq, Repr

/-- An access unit (R230): RTP timestamp, TS32 of arrival of its first packet, coded bytes, damage, IRAP or IDR, CRA,
RASL, an open fragment, TS32 at which it completed. -/
structure AccessUnit where
  rtp    : Word
  arrive : Word
  bytes  : Nat
  damaged : Bool
  irap   : Bool
  cra    : Bool
  rasl   : Bool
  /-- the fragmented NAL unit that is open: its bytes so far and its type -/
  frag   : Option (Nat × Nat)
  done   : Word := 0
  /-- capture time, TIM.EPOCH[7:0] as it was formed, more than 2,000 ms before arrival (R231, R232, R234) -/
  cap    : Word := 0
  epoch  : Nat := 0
  old    : Bool := false
  /-- no sender report has given it a capture time yet (R233) -/
  untimed : Bool := false
  deriving DecidableEq, Repr

/-- An RTP packet that is held out of order (R228): sequence number, timestamp, marker, payload, arrival TS32. -/
structure HeldRtp where
  seq : Nat
  rtp : Word
  marker : Bool
  payload : List Byte
  arrive : Word
  deriving DecidableEq, Repr

/-- A decoded picture in the DPB (R238, R243 to R247). -/
structure Picture where
  /-- PIC_COUNT -/
  no : Nat
  rtp : Word
  cap : Word
  epoch : Nat
  ptp : Bool
  /-- capture time more than 2,000 ms before arrival (R234) -/
  old : Bool
  /-- decoded before the first sender report (R225) -/
  untimed : Bool
  irap : Bool
  cause : Nat
  /-- cause of the FAILED chain that runs as it is decoded, 0 none (R247) -/
  chain : Nat
  allSkip : Bool
  img : Img
  /-- picture order count -/
  poc : Int := 0
  /-- used for reference -/
  ref : Bool := true
  /-- output already -/
  shown : Bool := false
  deriving DecidableEq, Repr

/-- What waits for a context's picture boundary (R226): a DEC_CTRL action, or the stop and the start that go with a new
record, with the record it replaces. -/
inductive CtxAct where
  | ctrl (act : Nat)
  | replace (old : List Byte) (start : Bool)
  deriving DecidableEq, Repr

/-- A decoder context (R221 to R248). -/
structure DecCtx where
  /-- STATE of R225 -/
  st : Nat := 0
  /-- its groups are joined -/
  joined : Bool := false
  /-- what waits for the picture boundary (R226) -/
  ctrl : List CtxAct := []
  ssrc : Option Word := none
  /-- another SSRC heard since the locked one's last packet (R227) -/
  other : Option Word := none
  /-- sequence number expected next -/
  next : Option Nat := none
  /-- sequence numbers received, among the last 1,024 before the one expected and those ahead of it (R228) -/
  recent : List Nat := []
  held : List HeldRtp := []
  /-- access unit in assembly -/
  au : Option AccessUnit := none
  /-- the next packet follows a gap declared lost -/
  afterGap : Bool := false
  /-- access units are discarded up to the next IRAP or IDR (R230) -/
  skip : Bool := false
  /-- coded picture buffer, oldest first -/
  cpb : List AccessUnit := []
  /-- decoded picture buffer -/
  dpb : List Picture := []
  /-- the next IRAP is the first of a run -/
  fresh : Bool := true
  /-- RASL pictures are neither decoded nor output (R246) -/
  dropRasl : Bool := false
  /-- CTX_CNT words 0 to 6, TS_OLD, TS_FUTURE -/
  cnt : List Nat := [0, 0, 0, 0, 0, 0, 0, 0, 0]
  /-- rtp_ref of R235, none before the first output picture of a run -/
  ref : Option Word := none
  base : Nat := 0
  /-- last alive counter and RTP timestamp delivered, none after a start -/
  alive : Nat := 0
  prevRtp : Option Word := none
  /-- an output picture has taken a counter since the start -/
  started : Bool := false
  /-- consecutive output pictures not later than the one before (R236) -/
  backRun : Nat := 0
  /-- sr_tai and sr_rtp of the last sender report (R233) -/
  sr : Option (Int × Word) := none
  /-- cause of the first picture of the FAILED chain, 0 none (R247) -/
  chain : Nat := 0
  /-- PIC_COUNT -/
  pics : Nat := 0
  /-- STAT and STAT_ROWS of the last picture: 52 words -/
  stat : List Word := []
  deriving DecidableEq, Repr

/-- A decoder core: the context and access unit it decodes, TS32 at which it began (R239), and the context's record as
it stood then (R226). -/
structure DecCore where
  job : Option (Nat × AccessUnit × Word) := none
  body : List Byte := []
  deriving DecidableEq, Repr

/-- ETH and DEC, beside their registers. -/
structure Net where
  /-- decoder contexts C0 to C255 -/
  ctx : Cells DecCtx := []
  /-- decoder cores 0 to 7 -/
  cores : Cells DecCore := []
  /-- reports to be repeated, oldest first (R219) -/
  reports : List Report := []
  /-- uptime until which an older querier governs a port, by port * 2 + 1 for MLD (R215) -/
  oldQuery : Cells Nat := []
  deriving DecidableEq, Repr

/-! ### Touch (chapter 18) -/

/-- A touch that is down (R474, R475). -/
structure TouchPt where
  id : Nat
  x  : Nat
  y  : Nat
  strength : Nat
  glove : Bool
  /-- PRESENT_AT_START (R472) -/
  atStart : Bool
  /-- node of its last peak -/
  node : Nat
  /-- time since its DOWN in ns of SCAN_TS32, summed scan by scan, and where it went down -/
  held  : Nat
  downX : Nat
  downY : Nat
  /-- the zone it belongs to (R482) -/
  zone : Option Nat
  /-- its LONG_HOLD record has been written (R486) -/
  long : Bool
  deriving DecidableEq, Repr

/-- A touch zone (R482 to R485). -/
structure TouchZone where
  /-- 0 off, 1 tap, 2 hold, 3 hold-to-run -/
  kind : Nat := 0
  x0 : Nat := 0
  y0 : Nat := 0
  x1 : Nat := 0
  y1 : Nat := 0
  /-- A3: maximum hold in ms, 0 none -/
  hold : Nat := 0
  /-- 0 RELEASED, 1 PRESSED, 2 TAPPED, 3 TIMEOUT -/
  state : Nat := 0
  /-- ID of the owning touch -/
  owner : Option Nat := none
  /-- consecutive valid scans with no touch in it, at most 2; at 2 it has had its clean release -/
  clean : Nat := 0
  deriving DecidableEq, Repr

/-- A map capture in progress (R471): frequency indices still to take, what has been taken, and whether it waits for a
settle scan that was pending (R490). -/
structure TouchCapture where
  left : List Nat
  vals : Cells Nat
  waits : Bool := false
  deriving DecidableEq, Repr

/-- A touch head. -/
structure TouchHead where
  present : Bool := false
  /-- it has been lost since the structure start (R469) -/
  wasLost : Bool := false
  /-- SCAN_SEQ and SCAN_TS32 of the last scan processed -/
  seq : Nat := 0
  ts  : Word := 0
  /-- baselines B of 24 bits, keyed frequency index * 6,144 + node (R470) -/
  base : Cells Nat := []
  /-- frequency indices whose baselines are seeded (R472) -/
  seeded : List Nat := []
  /-- suspect nodes (R472) -/
  suspect : List Nat := []
  /-- nodes in anti-touch with the SCAN_TS32 at which it began (R473) -/
  anti : List (Nat × Word) := []
  /-- wet nodes of the last scan (R477) -/
  wet : List Nat := []
  touches : List TouchPt := []
  /-- last ID issued (R476) -/
  lastId : Nat := 255
  flooded : Bool := false
  /-- SCAN_TS32 since which wet nodes stay below 20 % -/
  dry : Option Word := none
  /-- consecutive noisy scans (R478) -/
  noisy : Nat := 0
  /-- N of the last valid scan -/
  noise : Nat := 0
  /-- uptime of the last hop -/
  hopAt : Option Nat := none
  /-- a settle scan is to come: at this frequency index, 4 at any (R469, R478) -/
  settle : Option Nat := none
  /-- scan-rate step and frequency index in force, and as decided (R478, R479) -/
  rate : Nat := 0
  freq : Nat := 0
  rateNext : Nat := 0
  freqNext : Nat := 0
  /-- CONTROL entries for the coming frames, one group a frame: CODE, INDEX, VALUE (R480) -/
  later : List (List (Nat × Nat × Nat)) := []
  /-- proposals that await a decision: kind, value (R481) -/
  proposals : List (Nat × Nat) := []
  /-- zones 0 to 63 -/
  zones : Cells TouchZone := []
  /-- it has no valid reference map (R471) -/
  noMap : Bool := true
  capture : Option TouchCapture := none
  /-- a node was touched, suspect, wet or in anti-touch in the last scan -/
  busy : Bool := false
  /-- HSTATE of the last HEAD record (R487) -/
  hstate : Nat := 2
  /-- records dropped, saturating, and whether the next record is preceded by a RESYNC (R488) -/
  lost : Nat := 0
  resync : Bool := false
  deriving DecidableEq, Repr


/-! ### Cascade (chapter 20) -/

/-- A direct CASCADE_TIME packet as accepted on a cascade port (R524): its fields, TS32 and uptime at its EOP. -/
structure CasTime where
  cid  : Nat
  side : Nat
  role : Nat
  hops : Nat
  beat : Nat
  tSend : Word
  tEcho : Word
  tEchoRx : Word
  epoch : Word
  fclk0 : Nat
  fclk0Next : Word
  almTai : DWord
  almTs : Word
  pendGen : Nat
  commitGen : Nat
  commitCount : Nat
  rx   : Word
  upAt : Nat
  deriving DecidableEq, Repr

/-- What a device of the ring was last heard to say, direct or forwarded (R525, R537, R540). -/
structure CasDev where
  /-- its last BEAT values, newest first: the copies already taken -/
  beats : List Nat
  role : Nat
  pendGen : Nat
  upAt : Nat
  /-- uptime at which a copy last came in from the east and from the west -/
  east : Option Nat := none
  west : Option Nat := none
  deriving DecidableEq, Repr

/-- An own subscription (R530): stream here, stream there, sending member, whether a device of it has accepted, and
whether one has refused since the last SUBSCRIBE. -/
structure CasSub where
  strm : Nat
  src : Nat
  member : Nat
  /-- TAG of its last SUBSCRIBE, which the answers carry -/
  tag : Nat := 0
  ok : Bool := false
  refused : Bool := false
  deriving DecidableEq, Repr

/-- A subscription served (R530): receiving member and stream here. -/
structure CasSend where
  member : Nat
  strm : Nat
  deriving DecidableEq, Repr

/-- A frame arriving from one device of the sending member (R533): its FS fields and samples so far (segments as plane
* 2^14 + line, first, count), and the number of DATA segments. -/
structure CasCopy where
  onAir : Bool
  inc   : Incoming
  state : Nat
  age   : Nat
  new   : Bool
  fault : Bool
  latch : Word
  count : Nat := 0
  /-- cascade port 0 to 3 that it arrives on -/
  port  : Nat := 0
  /-- it is whole and waits for the ON_AIR copy of its FRAME (R533) -/
  done  : Bool := false
  deriving DecidableEq, Repr

/-- A relay request of this master that awaits its answer (R539): message tag, target, uptime of its timeout. -/
structure CasRelay where
  tag : Nat
  cid : Nat
  side : Nat
  due : Nat
  deriving DecidableEq, Repr

/-- The cascade, beside the CAS registers. -/
structure Cascade where
  /-- last direct packet on CAS_E, CAS_W, CAS_EX, CAS_WX (R525) -/
  direct : List (Option CasTime) := [none, none, none, none]
  /-- T_SEND of the last direct packet received on each of them, and TS32 at its EOP (R524) -/
  echo : List (Word × Word) := [(0, 0), (0, 0), (0, 0), (0, 0)]
  /-- devices heard, keyed CID * 2 + SIDE -/
  devs : Cells CasDev := []
  /-- packets made (R524) -/
  beat : Nat := 0
  /-- members that are lost (R540) -/
  lost : List Nat := []
  /-- tag of the next ring control message -/
  tag : Nat := 0
  /-- local TS32 minus the upstream's: the last off of R527, moved by each step since -/
  off : Word := 0
  /-- upstream port 0 to 3, none without upstream (R527) -/
  upstream : Option Nat := none
  /-- TIM.EPOCH of the upstream's previous sample (R528) -/
  upEpoch : Option Word := none
  /-- own subscriptions (R530) -/
  subs : List CasSub := []
  /-- subscriptions served (R530) -/
  sends : List CasSend := []
  /-- frames arriving, keyed stream * 2 + SIDE of the sending device -/
  copies : Cells (Option CasCopy) := []
  /-- FRAME of the last frame flipped, by stream, plus 1 (R533) -/
  taken : Cells Nat := []
  /-- FRAME of the last ON_AIR copy that failed the test, by stream, plus 1 (R533) -/
  failed : Cells Nat := []
  /-- forwarded commands that wait for room among the 1,024 held commands: TAG and record (R135, R536) -/
  forwarded : List (Nat × CmdRec) := []
  /-- relay request outstanding (R539) -/
  relay : Option CasRelay := none
  /-- ring commit announced: GEN and FCLK0 count (R537) -/
  ring : Option (Nat × Nat) := none
  /-- GEN whose abort this master announces (R538) -/
  abort : Option Nat := none
  /-- COMMIT_GEN and COMMIT_COUNT of the master's last announcement, none while it announces nothing (R537, R538) -/
  heard : Option (Nat × Nat) := none
  /-- GEN whose first report the master has heard, and its uptime (R538) -/
  first : Option (Nat × Nat) := none
  /-- device last seen as master: CID * 2 + SIDE (MASTER_CHANGES) -/
  master : Option Nat := none
  deriving DecidableEq, Repr

/-! ### The machine -/

/-- The state of the block. -/
structure State where
  /-- commands that wait, first in first out (the model's queue of commands, empty at reset) -/
  pending : List Instr := []
  /-- every register of BAR0 and every table-window word, by BAR0 offset; unlisted: the reset value (R75, R85) -/
  regs : Cells Word := []
  /-- staging latches of writable register pairs, keyed by the offset of _LO (R88) -/
  pairs : Cells Word := []
  /-- conditions of alarm flags that hold now, 8 bits per block number (R87) -/
  alarmCond : Cells (BitVec 8) := []
  /-- external DRAM, 38-bit byte addresses; an unlisted byte reads 0 (R273) -/
  dram : List Host.Cell := []
  /-- non-volatile store (R165) -/
  mram : Mram := {}
  /-- boot flashes A and B as read from offset 0 (before R64) -/
  flashA : List Byte := []
  flashB : List Byte := []
  /-- what the device has put on pins, lanes and buses, newest first (the model's own log of its outputs) -/
  out : List Emit := []
  /-- how many free values have been taken (the model's own counter) -/
  free : Nat := 0
  /-- CLK_F cycles since the clocks started, advanced by the idle step (the model's own clock) -/
  uptime : Nat := 0
  /-- ticks of R427 since reset (the model's own count) -/
  ticks : Nat := 0
  /-- host ports -/
  host : HostPort := {}
  /-- supervisor -/
  svp : Supervisor := {}
  /-- loader and structure -/
  ld : Loader := {}
  /-- the 65 step machines (R118) -/
  stm : Cells StepMachine := []
  /-- command queues -/
  cmd : Cmd := {}
  /-- start-up and pins -/
  boot : Boot := {}
  /-- time -/
  tim : Tim := {}
  /-- the 4,096 streams with their surfaces (R15) -/
  streams : Cells StreamSt := []
  /-- J-Link receivers, by port number of R56 -/
  links : Cells Link := []
  /-- packet sequence of each J-Link transmit direction, by port number of R56 (R194) -/
  txSeq : Cells Nat := []
  /-- transmitters of the J-Link ports, by port (R186) -/
  tx : Cells Tx := []
  /-- nodes N0 to N255 -/
  nodes : Cells NodeSt := []
  /-- layers, by node * 16 + slot -/
  layers : Cells LayerSt := []
  /-- outputs OUT0 to OUT23 -/
  outputs : Cells OutputSt := []
  /-- check channels CH0 to CH63 -/
  chk : Cells Channel := []
  /-- block compressor -/
  blk : BlkSt := {}
  /-- prescaler pool -/
  pre : Prescale := {}
  /-- encoder cores 0 to 3 -/
  enc : Cells EncSt := []
  /-- memory controller -/
  mem : MemSt := {}
  /-- Ethernet ports and decoders -/
  net : Net := {}
  /-- encoders that must code their next picture as an IRAP (R297, R454) -/
  encIrap : List Nat := []
  /-- touch heads 0 to 23 -/
  touch : Cells TouchHead := []
  /-- twin -/
  twin : Twin := {}
  /-- cascade -/
  cas : Cascade := {}
  deriving DecidableEq, Repr

/-- Why the block stops with a fault. -/
inductive Fault where
  /-- Raised by no command: an empty type would do; kept so that a repair can name a fault. Safe: nothing raises it. -/
  | unused
  deriving DecidableEq, Repr

/-- Why the block refuses a command. -/
inductive Refusal where
  /-- The command has no meaning yet. Raised by the dispatcher's refused arms only. Safe. -/
  | notModelled (mnemonic : String)
  deriving DecidableEq, Repr

/-- The machine right after reset: a COLD reset by PORST_N, the device held in reset (R164, R166). -/
def State.reset : State := {}

end Sys2Proof.Machine
end

