-- ==== Sys2Proof/Machine/Ops.lean ====
section
/-!
DEFINITION. Machine/Ops.lean: the named operations over the state that every meaning uses: bit fields, registers,
DRAM, emissions, flags and interrupts, result windows, history.
-/
namespace Sys2Proof.Machine

/-- What a meaning answers. -/
abbrev Res := Host.Outcome State Fault Refusal

/-! ### Bit fields and bytes -/

/-- Bits [hi:lo] of a natural number (R3). -/
def bitsN (v hi lo : Nat) : Nat := (v / 2 ^ lo) % 2 ^ (hi - lo + 1)

/-- Bits [hi:lo] of a word (R3). -/
def wbits (w : Word) (hi lo : Nat) : Nat := bitsN w.toNat hi lo

/-- A word with ones in bits [hi:lo]. -/
def maskW (hi lo : Nat) : Word := BitVec.ofNat 32 ((2 ^ (hi - lo + 1) - 1) * 2 ^ lo)

/-- A word with bits [hi:lo] replaced by `v` modulo the field's size. -/
def wput (w : Word) (hi lo v : Nat) : Word :=
  (w &&& ~~~ maskW hi lo) ||| BitVec.ofNat 32 ((v % 2 ^ (hi - lo + 1)) * 2 ^ lo)

/-- The bits of `v` where the mask is set, the bits of `old` elsewhere. -/
def merge (old mask v : Word) : Word := (old &&& ~~~ mask) ||| (v &&& mask)

/-- Is bit `n` of a word set? -/
def wbit (w : Word) (n : Nat) : Bool := w.getLsbD n

/-- A word from a natural number, modulo 2^32. -/
abbrev w32 (n : Nat) : Word := BitVec.ofNat 32 n

/-- The signed value of the low `n` bits of `v`. -/
def signedN (n v : Nat) : Int := if v % 2 ^ n < 2 ^ (n - 1) then ((v % 2 ^ n : Nat) : Int) else ((v % 2 ^ n : Nat) : Int) - 2 ^ n

/-- Two's complement of an integer in `n` bits. -/
def unsignedN (n : Nat) (i : Int) : Nat := (i % (2 ^ n : Int)).toNat

/-- A count saturating at `2^n - 1`. -/
def satN (n v : Nat) : Nat := min v (2 ^ n - 1)

/-- An integer saturating to a signed 32-bit register field. -/
def satS32 (i : Int) : Word :=
  BitVec.ofInt 32 (if i > 2147483647 then 2147483647 else if i < -2147483648 then -2147483648 else i)

/-- The little-endian value of a byte string (R51, R136). -/
def leNat : List Byte → Nat
  | [] => 0
  | b :: t => b.toNat + 256 * leNat t

/-- `n` bytes of a natural number, little-endian. -/
def leBytes : Nat → Nat → List Byte
  | 0, _ => []
  | n + 1, v => BitVec.ofNat 8 v :: leBytes n (v / 256)

/-- The big-endian value of a byte string (R80). -/
def beNat (l : List Byte) : Nat := leNat l.reverse

/-- `n` bytes of a natural number, most significant first (R80). -/
def beBytes (n v : Nat) : List Byte := (leBytes n v).reverse

/-- `n` bytes of a byte string from an offset. -/
def slice (l : List Byte) (off n : Nat) : List Byte := (l.drop off).take n

/-- The little-endian field of `n` bytes at an offset of a record or image. -/
def leAt (l : List Byte) (off n : Nat) : Nat := leNat (slice l off n)

/-- Ceiling division. -/
def cdiv (a b : Nat) : Nat := (a + b - 1) / b

/-! ### Registers -/

/-- The reset value of MSI-X vector control words: masked, as the PCIe specification has it (R75; PRESUMED, assumption
6). -/
def Reg.isMsixControl (off : Nat) : Bool :=
  decide (0x2_8000 ≤ off) && decide (off < 0x2_8400) && decide (off % 16 = 12)

/-- BASE and TARGET of memory port `p` (R280), as MEM.PORT_QOS holds them. -/
def Reg.portQosReset (p : Nat) : Word :=
  match p with
  | 0 => 0x4000_07D0
  | 1 => 0x4000_0FA0
  | 2 => 0x0000_1F40
  | 3 => 0x0000_1F40
  | 4 => 0x0000_3E80
  | 5 => 0x4000_0FA0
  | 6 => 0x0000_0FA0
  | _ => 0

/-- Parameter `k` of R303 in tCK at 6400 MT/s, with 16 Gb devices. -/
def Reg.timingAt6400 (k : Nat) : Nat :=
  match k with
  | 0 => 52 | 1 => 50 | 2 => 52 | 3 => 52 | 4 => 103 | 5 => 8 | 6 => 16 | 7 => 32
  | 8 => 8 | 9 => 16 | 10 => 96 | 11 => 8 | 12 => 32 | 13 => 24 | 14 => 944 | _ => 12480

/-- Default QoS of bus master `m` (R99). -/
def Reg.qosReset (m : Nat) : Word :=
  match m with
  | 0 => 8 | 1 => 12 | 2 => 6 | 3 => 6 | 4 => 14 | 5 => 10 | _ => 4

/-- The reset value of the register or table word at a BAR0 offset: its table's reset column, with the entries that
depend on the index (R86, R99, R280, R303, the fixed scaler sets of R374) and the masked MSI-X vectors. -/
def Reg.resetValue (off : Nat) : Word :=
  if Reg.isMsixControl off then 1
  else if 0x31_0200 ≤ off ∧ off < 0x31_0400 ∧ (off % 64 = 0 ∨ off % 64 = 16 ∨ off % 64 = 32) then 0x4000
  else
    match Reg.find off with
    | none => 0
    | some d =>
      if off % 0x1_0000 = 0 then w32 (off / 0x1_0000 * 0x100_0000 + 0xB1)
      else if d.base = Reg.BMX_QOS 0 then Reg.qosReset ((off - Reg.BMX_QOS 0) / 4)
      else if d.base = Reg.MEM_PORT_QOS 0 then Reg.portQosReset ((off - Reg.MEM_PORT_QOS 0) / 4)
      else if d.base = Reg.MEM_TIMING 0 then
        let v := Reg.timingAt6400 ((off - Reg.MEM_TIMING 0) / 4)
        w32 (v * 0x1_0000 + v)
      else if off = Reg.SCL_SET_STATUS 0 then 0x009D_DCB9
      else d.reset

/-- The value of the register or table word at BAR0 offset `off`; for a shadowed field, the value in force. -/
def State.reg (s : State) (off : Nat) : Word := Cells.get Reg.resetValue s.regs off

/-- Write a register or table word. -/
def State.setReg (s : State) (off : Nat) (v : Word) : State :=
  { s with regs := Cells.put Reg.resetValue s.regs off v }

/-- A register field as a number. -/
def State.fld (s : State) (off hi lo : Nat) : Nat := wbits (s.reg off) hi lo

/-- Write a register field. -/
def State.setFld (s : State) (off hi lo v : Nat) : State := s.setReg off (wput (s.reg off) hi lo v)

/-- Is bit `n` of a register set? -/
def State.bit (s : State) (off n : Nat) : Bool := (s.reg off).getLsbD n

/-- Write one bit of a register. -/
def State.setBit (s : State) (off n : Nat) (b : Bool) : State := s.setFld off n n (if b then 1 else 0)

/-- Add 1 to a field of a register that wraps. -/
def State.incWrap (s : State) (off hi lo : Nat) : State := s.setFld off hi lo (s.fld off hi lo + 1)

/-- Add to a field of a register that saturates. -/
def State.addSat (s : State) (off hi lo n : Nat) : State :=
  s.setFld off hi lo (min (s.fld off hi lo + n) (2 ^ (hi - lo + 1) - 1))

/-- A 64-bit register pair: _HI at the next offset (R88). -/
def State.pair (s : State) (lo : Nat) : DWord := (s.reg (lo + 4)) ++ (s.reg lo)

/-- Write a 64-bit register pair in one cycle (R88). -/
def State.setPair (s : State) (lo : Nat) (v : DWord) : State :=
  (s.setReg lo (v.truncate 32)).setReg (lo + 4) ((v >>> 32).truncate 32)

/-! ### Emissions and free values -/

/-- Put one thing on a pin, lane or bus. -/
def State.emit (s : State) (e : Emit) : State := { s with out := e :: s.out }

/-- Advance the free-value counter: the next free value is one never taken before. -/
def State.nextFree (s : State) : State := { s with free := s.free + 1 }

/-- The next `n` free values are taken. -/
def State.takeFree (s : State) (n : Nat) : State := { s with free := s.free + n }

/-- `n` bytes whose content is open: free value number `k`. -/
def freeFill (k n : Nat) : List Byte := (Config.freeBytes k).take n ++ List.replicate (n - (Config.freeBytes k).length) 0

/-! ### Time -/

/-- TS32: accumulator bits [71:40] (R250). -/
def State.ts (s : State) : Word := (s.tim.acc >>> 40).truncate 32

/-- `b` is later than or equal to `a` under the comparison of R251. -/
def tsReached (now deadline : Word) : Bool := decide (0 ≤ (now - deadline).toInt)

/-- The signed difference `b - a` of R251. -/
def tsDiff (a b : Word) : Int := (b - a).toInt

/-- Full device time in ns: since reset before the first step, TAI after it (R265). -/
def State.fullNs (s : State) : Int := s.tim.hi * 4294967296 + (s.ts.toNat : Int)

/-- CLK_F cycles in one millisecond (R159). -/
abbrev cyclesPerMs : Nat := 600000

/-! ### DRAM (R273, R276) -/

/-- The byte at a DRAM address; a byte nothing has written reads 0. -/
def State.dramByte (s : State) (a : Nat) : Byte := Cells.get (fun _ => 0) s.dram a

/-- Write one DRAM byte. -/
def State.setDramByte (s : State) (a : Nat) (b : Byte) : State :=
  { s with dram := Cells.put (fun _ => 0) s.dram a b }

/-- `n` DRAM bytes from an address. -/
def State.dramRead (s : State) (a n : Nat) : List Byte := (List.range n).map fun i => s.dramByte (a + i)

/-- Write a byte list, its first byte at the lowest address. -/
def dramPut (m : List Host.Cell) : Nat → List Byte → List Host.Cell
  | _, [] => m
  | a, b :: t => dramPut (Cells.put (fun _ => 0) m a b) (a + 1) t

/-- Write DRAM bytes from an address. -/
def State.dramWrite (s : State) (a : Nat) (l : List Byte) : State := { s with dram := dramPut s.dram a l }

/-- A DRAM word, little-endian. -/
def State.dramWord (s : State) (a : Nat) : Word := w32 (leNat (s.dramRead a 4))

/-- Write a DRAM word, little-endian. -/
def State.setDramWord (s : State) (a : Nat) (v : Word) : State := s.dramWrite a (leBytes 4 v.toNat)

/-! ### Interrupts (R87 to R92, R106) -/

/-- The alarm flags of block `k` (R106); every other listed flag is an event flag. -/
def alarmMask (k : Nat) : BitVec 8 :=
  match k with
  | 0 => 0x07 | 2 => 0x02 | 4 => 0x02 | 7 => 0x01 | 9 => 0x08 | 16 => 0x1A | 19 => 0x01 | 21 => 0x02
  | 23 => 0x2E | 24 => 0x02 | 25 => 0x0D | 26 => 0x03 | 27 => 0x07
  | _ => 0

/-- The flags that exist in block `k` (R106). -/
def flagMask (k : Nat) : BitVec 8 :=
  match k with
  | 0 => 0x1F | 2 => 0x0F | 3 => 0x0F | 4 => 0x03 | 5 => 0x01 | 6 => 0x07 | 7 => 0x07 | 8 => 0x07 | 9 => 0x0F
  | 10 => 0x07 | 11 => 0x03 | 13 => 0x07 | 14 => 0x01 | 16 => 0x3F | 17 => 0x01 | 18 => 0x07 | 19 => 0x03
  | 20 => 0x03 | 21 => 0x03 | 22 => 0x01 | 23 => 0x3F | 24 => 0x07 | 25 => 0x0F | 26 => 0x03 | 27 => 0x07
  | _ => 0

/-- INT_STATUS flags of block `k`. -/
def State.flags (s : State) (k : Nat) : BitVec 8 := (s.reg (Reg.INT_STATUS k)).truncate 8

/-- Enabled flags of block `k` that are set. -/
def State.enabled (s : State) (k : Nat) : BitVec 8 := s.flags k &&& (s.reg (Reg.INT_ENABLE k)).truncate 8

/-- The numbers of the register blocks (R85). -/
def blocks : List Nat := [0, 1, 2, 3, 4, 5, 6, 7, 8, 9, 10, 11, 12, 13, 14, 16, 17, 18, 19, 20, 21, 22, 23, 24, 25, 26, 27]

/-- The condition of vector 18: any enabled alarm flag (R90). -/
def State.alarmIrq (s : State) : Bool := blocks.any fun k => decide (s.enabled k &&& alarmMask k ≠ 0)

/-- The condition of vector 62: any enabled event flag (R90). -/
def State.eventIrq (s : State) : Bool := blocks.any fun k => decide (s.enabled k &&& ~~~ alarmMask k ≠ 0)

/-- ALARM_N is asserted while any alarm flag is set, whatever INT_ENABLE holds (R92). -/
def State.alarmN (s : State) : Bool := blocks.any fun k => decide (s.flags k &&& alarmMask k ≠ 0)

/-- SYS.INT_TOP: one bit per block with an enabled flag set (R89). -/
def State.intTop (s : State) : Word :=
  blocks.foldl (fun acc k => if s.enabled k ≠ 0 then acc ||| w32 (2 ^ k) else acc) 0

/-- Is MSI-X vector `v` masked? -/
def State.vecMasked (s : State) (v : Nat) : Bool := s.bit (0x2_8000 + 16 * v + 12) 0

/-- The endpoint may send MSI-X messages: the link is up (R74), and MSI-X is enabled and not masked as a whole (R73,
R91). -/
def State.msixOpen (s : State) : Bool := s.host.pcieUp && s.host.cfg.enumerated && !s.host.cfg.funcMask

/-- Send the message of vector `v`, or set its pending bit while it is masked or cannot be sent (R91, R74). -/
def State.sendVector (s : State) (v : Nat) : State :=
  if s.vecMasked v || !s.msixOpen then
    { s with host := { s.host with msixPending := s.host.msixPending ||| BitVec.ofNat 64 (2 ^ v) } }
  else
    s.emit (.msix v (s.reg (0x2_8000 + 16 * v)) (s.reg (0x2_8000 + 16 * v + 4)) (s.reg (0x2_8000 + 16 * v + 8)))

/-- The condition of vector `v` has ended: its pending bit clears, as the PCIe specification defines (R91). -/
def State.dropVector (s : State) (v : Nat) : State :=
  { s with host := { s.host with msixPending := s.host.msixPending &&& ~~~ BitVec.ofNat 64 (2 ^ v) } }

/-- The pending bits of vectors 18 and 62 clear where their conditions do not hold (R91). -/
def State.dropIrqs (s : State) : State :=
  let s1 := if s.alarmIrq then s else s.dropVector 18
  if s1.eventIrq then s1 else s1.dropVector 62

/-- Send vectors 18 and 62 where their conditions turned true between two states (R91). -/
def State.irqEdge (before s : State) : State :=
  let s1 := if !before.alarmIrq && s.alarmIrq then s.sendVector 18 else s
  if !before.eventIrq && s.eventIrq then s1.sendVector 62 else s1

/-- An event of flag `n` of block `k`: the flag sets, its counter increments, the vector follows (R87). -/
def State.event (s : State) (k n : Nat) : State :=
  let s1 := s.setReg (Reg.INT_STATUS k) (s.reg (Reg.INT_STATUS k) ||| w32 (2 ^ n))
  let s2 := s1.setReg (Reg.EVT_CNT k n) (s1.reg (Reg.EVT_CNT k n) + 1)
  State.irqEdge s s2

/-- The alarm conditions of block `k` that hold. -/
def State.conds (s : State) (k : Nat) : BitVec 8 := Cells.get (fun _ => 0) s.alarmCond k

/-- Does the condition of alarm flag `n` of block `k` hold? -/
def State.condOn (s : State) (k n : Nat) : Bool := (s.conds k).getLsbD n

/-- Record the conditions of block `k`. -/
def State.setConds (s : State) (k : Nat) (c : BitVec 8) : State :=
  { s with alarmCond := Cells.put (fun _ => 0) s.alarmCond k c }

/-- The condition of alarm flag `n` of block `k` becomes `on` (R87): an onset sets the flag and counts once, the end
of the condition clears the flag in the same cycle. -/
def State.alarm (s : State) (k n : Nat) (on : Bool) : State :=
  if on == s.condOn k n then s
  else if on then (s.setConds k (s.conds k ||| BitVec.ofNat 8 (2 ^ n))).event k n
  else
    let s1 := s.setConds k (s.conds k &&& ~~~ BitVec.ofNat 8 (2 ^ n))
    (s1.setReg (Reg.INT_STATUS k) (s1.reg (Reg.INT_STATUS k) &&& ~~~ w32 (2 ^ n))).dropIrqs

/-- As `State.alarm`, for a flag whose counter counts something else than onsets (R392). -/
def State.alarmNoCount (s : State) (k n : Nat) (on : Bool) : State :=
  if on == s.condOn k n then s
  else if on then
    let s1 := s.setConds k (s.conds k ||| BitVec.ofNat 8 (2 ^ n))
    State.irqEdge s (s1.setReg (Reg.INT_STATUS k) (s1.reg (Reg.INT_STATUS k) ||| w32 (2 ^ n)))
  else
    let s1 := s.setConds k (s.conds k &&& ~~~ BitVec.ofNat 8 (2 ^ n))
    (s1.setReg (Reg.INT_STATUS k) (s1.reg (Reg.INT_STATUS k) &&& ~~~ w32 (2 ^ n))).dropIrqs

/-! ### Result windows (R93 to R95) -/

/-- The SEQ of the next result of a window: one above the previous, wrapping (R94). -/
def State.nextSeqOf (s : State) (status : Nat) : Nat := (s.fld status 23 16 + 1) % 256

/-- The vector of the result window whose status word lies at `status` (R90); 63, which is never sent, for none. -/
def windowVector (status : Nat) : Nat :=
  if status = Reg.SVP_MBOX_STATUS then 16 else if status = Reg.SYS_LOAD_STATUS then 17
  else if status = Reg.BLK_RESULT then 55 else 63

/-- A write of `v` to the ACK of the window whose status word lies at `status`: the current SEQ while READY is 1
consumes the result, anything else is ignored (R94); a vector pending for it is so no longer (R91). -/
def State.ackWindow (s : State) (status : Nat) (v : Word) : State :=
  if s.bit status 31 && wbits v 7 0 == s.fld status 23 16 then
    (s.setBit status 31 false).dropVector (windowVector status)
  else s

/-! ### X access (R13, R14) -/

/-- X access is open: SYS.LEVEL_STATUS.X_OPEN. -/
def State.xOpen (s : State) : Bool := s.bit Reg.SYS_LEVEL_STATUS 31

/-- SOURCE of SYS.X_REFUSED_ADDR for a host port. -/
def portCode (p : Port) : Nat :=
  match p with
  | .pcie => 0
  | .spi => 1

/-- A refused X access: it is logged in SYS.X_REFUSED_ADDR and sets X_REFUSED (R13, R106). -/
def State.refuseX (s : State) (source : Nat) (write : Bool) (off : Nat) : State :=
  (s.setReg Reg.SYS_X_REFUSED_ADDR
    (w32 ((if write then 2 ^ 31 else 0) + source % 8 * 2 ^ 28 + off % 2 ^ 28))).event Blk.SYS 4

/-- One X write carried out: the MRAM counter increments and never wraps (R14). -/
def State.countX (s : State) : State :=
  if s.mram.xWrites = BitVec.allOnes 64 then s
  else { s with mram := { s.mram with xWrites := s.mram.xWrites + 1 } }

/-! ### MRAM history (R519) -/

/-- Append a history entry: KIND, code, TAI seconds or seconds since reset, TS32 and up to four detail words. -/
def State.history (s : State) (kind code : Nat) (detail : List Word) : State :=
  let sec := s.fullNs / 1000000000
  let e := [w32 (kind * 2 ^ 24 + code % 2 ^ 24), BitVec.ofInt 32 sec, BitVec.ofInt 32 (sec / 4294967296), s.ts]
    ++ (detail ++ [0, 0, 0, 0]).take 4
  { s with mram := { s.mram with history := (e :: s.mram.history).take 4096 } }

/-! ### Roles (R491) -/

/-- The device is the standby of a twin pair: TWN.STATUS.ROLE 1. -/
def State.standby (s : State) : Bool := s.fld Reg.TWN_STATUS 31 30 == 1

/-- The device is the active of a twin pair: TWN.STATUS.ROLE 2. -/
def State.active (s : State) : Bool := s.fld Reg.TWN_STATUS 31 30 == 2

/-- Registers are reachable: stage CARD or later (R172), and the device has not stopped for heat (R551). -/
def State.ready (s : State) : Bool := decide (2 ≤ s.fld Reg.SYS_BOOT_STAGE 3 0) && !s.boot.stopped

/-- The device is held in reset, or has stopped for heat: nothing reaches a register (R165, R551). -/
def State.inert (s : State) : Bool := s.boot.inReset || s.boot.stopped

/-- A host port reaches registers: the device is ready, and the link is up where the port is PCIe (R74, R172). -/
def State.access (s : State) (p : Port) : Bool :=
  s.ready && match p with
    | .pcie => s.host.pcieUp
    | .spi => true

/-- BAR0 offsets of mirrored state (R494): the blocks ING, DEC (except CORE_DISABLE), ENC, FSC, CMP, SCL, OUT, VGL,
TCH, STM, and the table windows. The X fields of CHK are mirrored too; see `State.chkCtrlWrite`. -/
def mirroredOff (off : Nat) : Bool :=
  let k := Reg.blockOf off
  (([5, 12, 13, 14, 17, 19, 20, 21, 23, 24].contains k && off != Reg.DEC_CORE_DISABLE)
    || (decide (0x20_0000 ≤ off) && decide (off < 0x40_0000)))

/-- Is the register at an offset an X register (R13)? -/
def Reg.isX (off : Nat) : Bool :=
  match Reg.find off with
  | some d => d.xReg
  | none => false

/-- The bits of level X of the register at an offset. -/
def Reg.xBits (off : Nat) : Word :=
  match Reg.find off with
  | some d => d.x
  | none => 0

/-- The bits that a write reaches: all with X access, those of level B without (R563). -/
def Reg.reach (x : Bool) (off : Nat) : Word := if x then BitVec.allOnes 32 else ~~~ Reg.xBits off

/-- A write of `v` to _LO of a writable pair lands in its staging latch (R88). -/
def State.stagePair (s : State) (lo : Nat) (v : Word) : State :=
  { s with pairs := Cells.put (fun _ => 0) s.pairs lo v }

/-- The staging latch of a writable pair. -/
def State.staged (s : State) (lo : Nat) : Word := Cells.get (fun _ => 0) s.pairs lo

/-- An accepted change on an active rides the epoch being filled (R146, R505). -/
def State.mirror (s : State) (i : Item) : State :=
  if s.active then { s with twin := { s.twin with items := i :: s.twin.items } } else s

/-- A host write to the register at `off` through port `p`, whose effect is `f`: nothing where the port reaches no
registers; ignored and counted on a standby where the state is mirrored (R495); mirrored from an active where it is
accepted (R494). -/
def State.hostWrite (s : State) (p : Port) (off : Nat) (v : Word) (f : State → State) : Res :=
  if !s.access p then .next s
  else if s.standby && mirroredOff off && (s.xOpen || !Reg.isX off) then .next (s.addSat Reg.TWN_STATUS 15 0 1)
  else if mirroredOff off && (s.xOpen || !Reg.isX off) then
    .next (f (s.mirror (.write off (Reg.reach s.xOpen off) v)))
  else .next (f s)

/-- A host write to the X register at `off` (R13): without X access it is refused and recorded, with X access it is an
X write that counts (R14). -/
def State.hostWriteX (s : State) (p : Port) (off : Nat) (v : Word) (f : State → State) : Res :=
  s.hostWrite p off v fun t => if t.xOpen then (f t).countX else t.refuseX (portCode p) true off

/-! ### Lists of pending things -/

/-- The value of the first entry whose key matches. -/
def lookupD {α : Type} (l : List (Nat × α)) (k : Nat) (d : α) : α :=
  match l.find? (fun e => e.1 == k) with
  | some e => e.2
  | none => d

end Sys2Proof.Machine
end

