-- ==== Sys2Proof/Machine/Flags.lean ====
section
/-!
DEFINITION. Machine/Flags.lean: every status flag of the device (R106) by name, with its block, bit and class, and the
two ways a flag changes: an event, and the condition of an alarm (R87).
-/
namespace Sys2Proof.Machine

/-- The flags of R106. LOCK_LOST, CHECK_DAMAGED and PACKET_CRC stand in three blocks. -/
inductive Flag where
  | structConflict | structNone | structRefused | loadResult | xRefused
  | pcieCorr | pcieUncorr | spiCrc | spiAccess
  | busDefault | busWidth | busBurst | mpuViolation
  | mboxReply | lockstep
  | reelFault
  | cmdRefused | objectGone | eventRingFull
  | timeJump | timeEpoch | holdover
  | lockLost (k : Nat) | checkDamaged (k : Nat) | packetCrc (k : Nat)
  | dualOnAir
  | linkDown | rtpLoss
  | missingRef | corrupt | decTimeout
  | rcOverrun
  | tempStep | trainFail | eccCorr | eccUncorr | rankRetired | wcrcAlert
  | poisonRead
  | jobDone | noGain | noSpace
  | guardCodec | nodeOverrun
  | tapsReduced | lbShort
  | underflow | scanFault
  | compareFail
  | stateChange | regionMismatch | headFrozen | freezeDetected | repeatFrame | guardFailed
  | longHold | flooded | reportRingFull
  | twinLinkDown | commitSlip | shadowFault | takeover
  | ringBreak | memberLost
  | tempAlarm | voltAlarm | healthFail
  deriving DecidableEq, Repr

/-- Block number and INT_STATUS bit of a flag (R106). -/
def Flag.place : Flag → Nat × Nat
  | .structConflict => (0, 0) | .structNone => (0, 1) | .structRefused => (0, 2) | .loadResult => (0, 3)
  | .xRefused => (0, 4)
  | .pcieCorr => (2, 0) | .pcieUncorr => (2, 1) | .spiCrc => (2, 2) | .spiAccess => (2, 3)
  | .busDefault => (3, 0) | .busWidth => (3, 1) | .busBurst => (3, 2) | .mpuViolation => (3, 3)
  | .mboxReply => (4, 0) | .lockstep => (4, 1)
  | .reelFault => (5, 0)
  | .cmdRefused => (6, 0) | .objectGone => (6, 1) | .eventRingFull => (6, 2)
  | .timeJump => (7, 0) | .timeEpoch => (7, 1) | .holdover => (7, 2)
  | .lockLost k => (k, 0) | .checkDamaged k => (k, 1) | .packetCrc k => (k, 2)
  | .dualOnAir => (9, 3)
  | .linkDown => (11, 0) | .rtpLoss => (11, 1)
  | .missingRef => (13, 0) | .corrupt => (13, 1) | .decTimeout => (13, 2)
  | .rcOverrun => (14, 0)
  | .tempStep => (16, 0) | .trainFail => (16, 1) | .eccCorr => (16, 2) | .eccUncorr => (16, 3)
  | .rankRetired => (16, 4) | .wcrcAlert => (16, 5)
  | .poisonRead => (17, 0)
  | .jobDone => (18, 0) | .noGain => (18, 1) | .noSpace => (18, 2)
  | .guardCodec => (19, 0) | .nodeOverrun => (19, 1)
  | .tapsReduced => (20, 0) | .lbShort => (20, 1)
  | .underflow => (21, 0) | .scanFault => (21, 1)
  | .compareFail => (22, 0)
  | .stateChange => (23, 0) | .regionMismatch => (23, 1) | .headFrozen => (23, 2) | .freezeDetected => (23, 3)
  | .repeatFrame => (23, 4) | .guardFailed => (23, 5)
  | .longHold => (24, 0) | .flooded => (24, 1) | .reportRingFull => (24, 2)
  | .twinLinkDown => (25, 0) | .commitSlip => (25, 1) | .shadowFault => (25, 2) | .takeover => (25, 3)
  | .ringBreak => (26, 0) | .memberLost => (26, 1)
  | .tempAlarm => (27, 0) | .voltAlarm => (27, 1) | .healthFail => (27, 2)

/-- An event of a flag: it sets, its EVT_CNT increments (R87). -/
def State.raise (s : State) (f : Flag) : State := s.event f.place.1 f.place.2

/-- The condition of an alarm flag becomes `on` (R87). -/
def State.hold (s : State) (f : Flag) (on : Bool) : State := s.alarm f.place.1 f.place.2 on

/-- `n` events of a flag. -/
def State.raiseN (s : State) (f : Flag) : Nat → State
  | 0 => s
  | n + 1 => (s.raise f).raiseN f n

end Sys2Proof.Machine
end

