-- ==== Sys2Proof/Machine/Inflate.lean ====
section
/-!
DEFINITION. Machine/Inflate.lean: expanding one block of the block compressor: raw DEFLATE (RFC 1951) and the LZ4 block
format, the two standards that R321 names. A stream that breaks its standard, refers before the start of its block or
goes on past its end expands to nothing.
-/
namespace Sys2Proof.Machine

/-! ### Bits -/

/-- The bits of a byte string, least significant bit of each byte first. -/
def bitList (l : List Byte) : List Bool := l.flatMap fun b => (List.range 8).map fun i => b.getLsbD i

/-- `n` bits as a number, least significant first, and the rest. -/
def takeBits : Nat → List Bool → Option (Nat × List Bool)
  | 0, l => some (0, l)
  | _ + 1, [] => none
  | n + 1, b :: t =>
    match takeBits n t with
    | some (v, r) => some ((if b then 1 else 0) + 2 * v, r)
    | none => none

/-! ### Canonical Huffman codes (RFC 1951, 3.2.2) -/

/-- Symbols of one code length, in order. -/
def symsOfLen (lens : List Nat) (n : Nat) : List Nat := (List.range lens.length).filter fun i => lens.getD i 0 == n

/-- A code by length 1 to 15: the symbols of each length in order. -/
def huffTable (lens : List Nat) : List (List Nat) := (List.range 15).map fun n => symsOfLen lens (n + 1)

/-- Share of the code space that is used, of 2^15; a code may not use more. -/
def huffUse (t : List (List Nat)) : Nat :=
  ((List.range 15).map fun n => (t.getD n []).length * 2 ^ (14 - n)).foldl (· + ·) 0

/-- The code is complete, or has one code of one bit (RFC 1951, 3.2.7). -/
def huffOk (t : List (List Nat)) : Bool :=
  huffUse t == 2 ^ 15 || ((t.getD 0 []).length == 1 && huffUse t == 2 ^ 14)

/-- Read one symbol: `code` bits read so far, `first` code of this length; the table from this length on. -/
def huffRead : List (List Nat) → Nat → Nat → List Bool → Option (Nat × List Bool)
  | [], _, _, _ => none
  | _ :: _, _, _, [] => none
  | syms :: t, code, first, b :: bits =>
    let c := 2 * code + (if b then 1 else 0)
    if c - first < syms.length then
      match syms[c - first]? with
      | some v => some (v, bits)
      | none => none
    else huffRead t c (2 * (first + syms.length)) bits

/-! ### DEFLATE -/

/-- Length symbols 257 to 285: base and extra bits. -/
def lengthCode (n : Nat) : Option (Nat × Nat) :=
  if n < 8 then some (3 + n, 0)
  else if n < 28 then
    let e := n / 4 - 1
    some (3 + (4 + n % 4) * 2 ^ e, e)
  else if n = 28 then some (258, 0) else none

/-- Distance symbols 0 to 29: base and extra bits. -/
def distCode (n : Nat) : Option (Nat × Nat) :=
  if n < 4 then some (1 + n, 0)
  else if n < 30 then
    let e := n / 2 - 1
    some (1 + (2 + n % 2) * 2 ^ e, e)
  else none

/-- Copy `n` bytes from `dist` back; the output stands newest byte first. -/
def copyBack : Nat → Nat → List Byte → Option (List Byte)
  | 0, _, out => some out
  | n + 1, dist, out =>
    match out[dist - 1]? with
    | some b => copyBack n dist (b :: out)
    | none => none

/-- The symbols of one compressed DEFLATE block up to end of block. -/
def inflateCodes (lit dist : List (List Nat)) : Nat → List Byte → List Bool → Option (List Byte × List Bool)
  | 0, _, _ => none
  | fuel + 1, out, bits =>
    match huffRead lit 0 0 bits with
    | none => none
    | some (v, b1) =>
      if v < 256 then inflateCodes lit dist fuel (BitVec.ofNat 8 v :: out) b1
      else if v = 256 then some (out, b1)
      else match lengthCode (v - 257) with
        | none => none
        | some (base, ex) => match takeBits ex b1 with
          | none => none
          | some (x, b2) => match huffRead dist 0 0 b2 with
            | none => none
            | some (d, b3) => match distCode d with
              | none => none
              | some (dbase, dex) => match takeBits dex b3 with
                | none => none
                | some (dx, b4) => match copyBack (base + x) (dbase + dx) out with
                  | none => none
                  | some o => inflateCodes lit dist fuel o b4

/-- The fixed codes (RFC 1951, 3.2.6). -/
def fixedLit : List (List Nat) :=
  huffTable (List.replicate 144 8 ++ List.replicate 112 9 ++ List.replicate 24 7 ++ List.replicate 8 8)
def fixedDist : List (List Nat) := huffTable (List.replicate 30 5 ++ [5, 5])

/-- Order of the code-length code lengths (RFC 1951, 3.2.7). -/
def clOrder : List Nat := [16, 17, 18, 0, 8, 7, 9, 6, 10, 5, 11, 4, 12, 3, 13, 2, 14, 1, 15]

/-- `n` numbers of `w` bits. -/
def takeMany (w : Nat) : Nat → List Bool → Option (List Nat × List Bool)
  | 0, l => some ([], l)
  | n + 1, l =>
    match takeBits w l with
    | none => none
    | some (v, r) => match takeMany w n r with
      | none => none
      | some (t, r2) => some (v :: t, r2)

/-- The code lengths of a dynamic block: `want` of them, newest first. -/
def inflateLens (cl : List (List Nat)) (want : Nat) : Nat → List Nat → List Bool → Option (List Nat × List Bool)
  | 0, _, _ => none
  | fuel + 1, acc, bits =>
    if want < acc.length then none
    else if acc.length = want then some (acc, bits)
    else match huffRead cl 0 0 bits with
      | none => none
      | some (v, b1) =>
        if v < 16 then inflateLens cl want fuel (v :: acc) b1
        else if v = 16 then
          match acc, takeBits 2 b1 with
          | a :: _, some (x, b2) => inflateLens cl want fuel (List.replicate (3 + x) a ++ acc) b2
          | _, _ => none
        else match takeBits (if v = 17 then 3 else 7) b1 with
          | some (x, b2) => inflateLens cl want fuel (List.replicate ((if v = 17 then 3 else 11) + x) 0 ++ acc) b2
          | none => none

/-- The codes of a dynamic block and the bits after them. -/
def inflateTables (bits : List Bool) : Option (List (List Nat) × List (List Nat) × List Bool) :=
  match takeBits 5 bits with
  | none => none
  | some (hlit, b1) => match takeBits 5 b1 with
    | none => none
    | some (hdist, b2) => match takeBits 4 b2 with
      | none => none
      | some (hclen, b3) => match takeMany 3 (hclen + 4) b3 with
        | none => none
        | some (cls, b4) =>
          let cl := huffTable ((List.range 19).map fun i =>
            match clOrder.idxOf? i with
            | some k => cls.getD k 0
            | none => 0)
          if 29 < hlit ∨ !huffOk cl then none
          else match inflateLens cl (hlit + hdist + 258) 700 [] b4 with
            | none => none
            | some (acc, b5) =>
              let lens := acc.reverse
              let lit := huffTable (lens.take (hlit + 257))
              let dist := huffTable (lens.drop (hlit + 257))
              if !huffOk lit ∨ lens.getD 256 0 = 0 ∨ (huffUse dist ≠ 0 ∧ !huffOk dist) then none
              else some (lit, dist, b5)

/-- DEFLATE blocks up to the final one: the output newest byte first, and what is left. -/
def inflateBlocks : Nat → List Byte → List Bool → Option (List Byte × List Bool)
  | 0, _, _ => none
  | fuel + 1, out, bits =>
    match takeBits 1 bits with
    | none => none
    | some (last, b1) => match takeBits 2 b1 with
      | none => none
      | some (kind, b2) =>
        let done : Option (List Byte × List Bool) :=
          match kind with
          | 0 =>
            let b3 := b2.drop (b2.length % 8)
            match takeBits 16 b3 with
            | none => none
            | some (len, b4) => match takeBits 16 b4 with
              | none => none
              | some (nlen, b5) =>
                if len + nlen ≠ 65535 then none
                else match takeMany 8 len b5 with
                  | some (v, b6) => some ((v.map fun x => BitVec.ofNat 8 x).reverse ++ out, b6)
                  | none => none
          | 1 => inflateCodes fixedLit fixedDist (b2.length + 1) out b2
          | 2 => match inflateTables b2 with
            | some (lit, dist, b3) => inflateCodes lit dist (b3.length + 1) out b3
            | none => none
          | _ => none
        match done with
        | none => none
        | some (o, r) => if last = 1 then some (o, r) else inflateBlocks fuel o r

/-- A raw DEFLATE stream that fills the bytes exactly, expanded. -/
def inflate (l : List Byte) : Option (List Byte) :=
  match inflateBlocks (8 * l.length + 1) [] (bitList l) with
  | some (o, r) => if r.length < 8 then some o.reverse else none
  | none => none

/-! ### LZ4 block format -/

/-- A length: its nibble, with 15 continued by bytes of 255 and one below. -/
def lz4Len : Nat → Nat → List Byte → Option (Nat × List Byte)
  | 0, _, _ => none
  | _ + 1, n, [] => if n < 15 then some (n, []) else none
  | fuel + 1, n, b :: t =>
    if n < 15 then some (n, b :: t)
    else if b.toNat = 255 then
      match lz4Len fuel 15 t with
      | some (m, r) => some (m + (n - 15) + 255, r)
      | none => none
    else some (n + b.toNat, t)

/-- The end rules of the LZ4 block format: the block ends in literals, at least 5 where it has a match, and its last match
starts at least 12 bytes before its end (PRESUMED, assumption 78). `start`: where the last match starts in the output. -/
def lz4EndOk (start : Option Nat) (literals total : Nat) : Bool :=
  match start with
  | none => true
  | some p => decide (5 ≤ literals) && decide (p + 12 ≤ total)

/-- LZ4 sequences: the output newest byte first. -/
def lz4Blocks : Nat → Option Nat → List Byte → List Byte → Option (List Byte)
  | 0, _, _, _ => none
  | _ + 1, _, _, [] => none
  | fuel + 1, start, out, tok :: t =>
    match lz4Len (t.length + 1) (tok.toNat / 16) t with
    | none => none
    | some (n, r) =>
      if r.length < n then none
      else
        let o := (r.take n).reverse ++ out
        match r.drop n with
        | [] => if lz4EndOk start n o.length then some o else none
        | [_] => none
        | a :: b :: r2 =>
          let d := a.toNat + 256 * b.toNat
          if d = 0 then none
          else match lz4Len (r2.length + 1) (tok.toNat % 16) r2 with
            | none => none
            | some (m, r3) => match copyBack (m + 4) d o with
              | some o2 => lz4Blocks fuel (some o.length) o2 r3
              | none => none

/-- An LZ4 block, expanded. -/
def lz4 (l : List Byte) : Option (List Byte) :=
  match lz4Blocks (l.length + 1) none [] l with
  | some o => some o.reverse
  | none => none

/-- A block's stored bytes expanded: STORED, DEFLATE (0) or LZ4 (R321, R322). -/
def expandBlock (format : Nat) (stored : Bool) (l : List Byte) : Option (List Byte) :=
  if stored then some l else if format = 0 then inflate l else lz4 l

end Sys2Proof.Machine
end

