-- ==== Sys2Proof/Machine/Dram.lean ====
section
/-!
DEFINITION. Machine/Dram.lean: the DRAM address map (R276), poison (R294, R297, R299) and the accesses every agent of
the device makes through it.
-/
namespace Sys2Proof.Machine

/-! ### Address map (R276, R277) -/

/-- ROLE of rank `i`: 0 none, 1 HOT, 2 COLD, 3 SPARE. -/
def State.rankRole (s : State) (i : Nat) : Nat := s.fld (Reg.MEM_RANK_STATUS i) 27 26

/-- STATE of rank `i` (MEM.RANK_STATUS). -/
def State.rankState (s : State) (i : Nat) : Nat := s.fld (Reg.MEM_RANK_STATUS i) 31 28

/-- Ranks of channel `c`. -/
def chRanks (c : Nat) : List Nat := (List.range 4).map fun r => 4 * c + r

/-- HOT bytes, and HOT and COLD bytes together. -/
def State.hotBytes (s : State) : Nat := s.fld Reg.MEM_SPACE 24 16 * 2 ^ 30
def State.dramSize (s : State) : Nat := s.hotBytes + s.fld Reg.MEM_SPACE 8 0 * 2 ^ 30

/-- Row address bits R of the map in force (R276). -/
def State.rowBits (s : State) : Nat := if s.bit Reg.MEM_CONFIG 27 then 17 else 16

/-- Where an address lies within its space (R276): channel, bank group, bank, row, rank set. -/
structure DramPlace where
  chan : Nat
  group : Nat
  bank : Nat
  row : Nat
  set : Nat
  deriving DecidableEq, Repr

/-- R276 on an address within a space. -/
def dramPlace (r a : Nat) : DramPlace :=
  { chan := bitsN a 8 7 ^^^ bitsN a 21 20, group := bitsN a 13 11, bank := bitsN a 19 18, row := bitsN a (19 + r) 20,
    set := a / 2 ^ (20 + r) }

/-- Byte of its rank that an address of a rank set lies at, in ascending address order: a rank has one of each four
128-byte accesses (R276, R298). -/
def State.rankOffset (s : State) (a : Nat) : Nat :=
  let x := (if a < s.hotBytes then a else a - s.hotBytes) % 2 ^ (20 + s.rowBits)
  x / 512 * 128 + x % 128

/-- The place of a DRAM address and the rank that is its home; none beyond the installed size. -/
def State.dramHome (s : State) (a : Nat) : Option (DramPlace × Nat) :=
  if s.dramSize ≤ a then none
  else
    let hot := decide (a < s.hotBytes)
    let p := dramPlace s.rowBits (if hot then a else a - s.hotBytes)
    let l := (chRanks p.chan).filter fun i => s.rankRole i == (if hot then 1 else 2)
    match l[p.set]? with
    | some i => some (p, i)
    | none => none

/-! ### Ranks -/

/-- The 16 rank indices. -/
abbrev ranks : List Nat := List.range 16

/-- Set STATE of rank `i`: 0 ABSENT, 1 ACTIVE, 2 SELF_REFRESH, 3 CATCH_UP, 4 TRAINING, 5 MIGRATING, 6 RETIRED,
7 SPARE_FILLING, 8 SPARE_READY. -/
def State.setRankState (s : State) (i v : Nat) : State := s.setFld (Reg.MEM_RANK_STATUS i) 31 28 v

/-- Refresh debt of rank `i`. -/
def State.debt (s : State) (i : Nat) : Nat := s.fld (Reg.MEM_RANK_STATUS i) 3 0

/-- Set the debt of rank `i`, at most 15. -/
def State.setDebt (s : State) (i v : Nat) : State := s.setFld (Reg.MEM_RANK_STATUS i) 3 0 (min v 15)

/-- Rank `i` is the source of the copy that runs (R298). -/
def State.copying (s : State) (i : Nat) : Bool := s.bit Reg.MEM_MIGRATE 31 && s.fld Reg.MEM_MIGRATE 27 24 == i

/-- Rank `i` is being copied to its spare, or waits for the copy that runs to end (R298; the waiting is a DESIGN CHOICE,
assumption 60). -/
def State.migrating (s : State) (i : Nat) : Bool := s.copying i || s.mem.copies.any fun e => e.1 == i

/-- The rank that serves address `a`, whose home is rank `i`: its substitute where it has one (R297); while it is being
copied, the spare below the copy pointer and itself from there on (R298). -/
def State.servingRank (s : State) (a i : Nat) : Nat :=
  match (chRanks (i / 4)).find? fun j =>
      s.bit (Reg.MEM_RANK_STATUS j) 22 && s.fld (Reg.MEM_RANK_STATUS j) 21 18 == i with
  | some j =>
    if s.copying i then (if s.fld Reg.MEM_MIGRATE 17 0 * 2 ^ 20 ≤ s.rankOffset a then i else j)
    else if s.migrating i then i else j
  | none => i

/-- Wake a rank from self-refresh (R284, R287): debt 0, a restarted interval; its requests wait for the MR4 read. -/
def State.wakeRank (s : State) (i : Nat) : State :=
  if s.rankState i = 2 then
    ({ s with mem := { s.mem with mr4 := i :: s.mem.mr4 } }.setRankState i 1).setDebt i 0 else s

/-! ### Poison -/

/-- Line `l` of 128 bytes reads as poison. -/
def State.linePoisoned (s : State) (l : Nat) : Bool :=
  s.mem.poison.contains l
    || (!(s.mem.dead.isEmpty && s.mem.lost.isEmpty) && match s.dramHome (128 * l) with
      | some (_, i) => s.mem.dead.contains (s.servingRank (128 * l) i)
          || s.mem.lost.any fun e => e.1 == i && !(e.2.any fun r => decide (r.1 ≤ 128 * l) && decide (128 * l + 128 ≤ r.2))
      | none => false)

/-- A byte range [a, b) touches a line that reads as poison. -/
def State.poisonedRange (s : State) (r : Nat × Nat) : Bool :=
  decide (r.1 < r.2) && !(s.mem.poison.isEmpty && s.mem.dead.isEmpty && s.mem.lost.isEmpty)
    && (List.range ((r.2 - 1) / 128 - r.1 / 128 + 1)).any fun k => s.linePoisoned (r.1 / 128 + k)

/-- Bytes [a, b) have been written: whole lines among them no longer read as poison (R294, R297). -/
def State.freshen (s : State) (a b : Nat) : State :=
  if s.mem.poison.isEmpty && s.mem.lost.isEmpty then s
  else
    { s with mem := { s.mem with
        poison := s.mem.poison.filter fun l => !(decide (a ≤ 128 * l) && decide (128 * l + 128 ≤ b))
        lost := s.mem.lost.map fun e => (e.1, (cdiv a 128 * 128, b / 128 * 128) :: e.2) } }

/-- What is left of ranges [x, y) once [a, b) has been cut out of them. -/
def cutRanges (a b : Nat) (l : List (Nat × Nat)) : List (Nat × Nat) :=
  l.flatMap fun r => [(r.1, min r.2 a), (max r.1 b, r.2)].filter fun x => decide (x.1 < x.2)

/-- Bytes [a, b) are in a layout that the spec does not give (R222). -/
def State.layOut (s : State) (a b : Nat) : State :=
  { s with mem := { s.mem with laid := (a, b) :: cutRanges a b s.mem.laid } }

/-- The byte at `a` stands in a layout that the spec does not give. -/
def State.laidAt (s : State) (a : Nat) : Bool := s.mem.laid.any fun r => decide (r.1 ≤ a) && decide (a < r.2)

/-- Bytes [a, b) have been written: they are what was written. -/
def State.settleBytes (s : State) (a b : Nat) : State :=
  if s.mem.laid.isEmpty then s else { s with mem := { s.mem with laid := cutRanges a b s.mem.laid } }

/-- The byte at `a` takes writes: it is installed, and the rank that serves it is in service. -/
def State.dramTakes (s : State) (a : Nat) : Bool :=
  match s.dramHome a with
  | some (_, i) => !s.mem.dead.contains (s.servingRank a i)
  | none => false

/-! ### Accesses -/

/-- Write bytes to the devices: bytes beyond the installed size and bytes of a rank out of service are discarded (R103,
R299). -/
def State.storeNow (s : State) (a : Nat) (l : List Byte) : State :=
  if l.isEmpty then s
  else
    let s1 :=
      if s.mem.dead.isEmpty && decide (a + l.length ≤ s.dramSize) then s.dramWrite a l
      else (List.range l.length).foldl (fun t k =>
        if s.dramTakes (a + k) then t.setDramByte (a + k) (l.getD k 0) else t) s
    (s1.freshen a (a + l.length)).settleBytes a (a + l.length)

/-- Read bytes of the devices: none where one of them reads as poison. -/
def State.fetchNow (s : State) (a n : Nat) : Option (List Byte) :=
  if s.poisonedRange (a, a + n) then none else some (s.dramRead a n)

/-- The requests of a queue that a later access to bytes [a, b) must not overtake, in their order (R279): a write's data
stand from now on, a read has what its line holds now. -/
def State.settleList (a b : Nat) : State → List MemReq → State × List MemReq
  | s, [] => (s, [])
  | s, r :: l =>
    let x :=
      if r.settled || !(decide (r.addr < b) && decide (a < r.addr + 128)) then (s, r)
      else if r.write then (s.storeNow r.addr r.data, { r with settled := true })
      else (s, { r with settled := true, data := (s.fetchNow r.addr 128).getD [] })
    let y := State.settleList a b x.1 l
    (y.1, x.2 :: y.2)

/-- Earlier requests to the lines of bytes [a, b) that channel `c` holds, or that wait at its ports, come first (R279). -/
def State.settleChannel (a b : Nat) (s : State) (c : Nat) : State :=
  let p := s.settleList a b (Cells.get (fun _ => []) s.mem.pool c)
  let w := p.1.settleList a b (Cells.get (fun _ => []) s.mem.waiting c)
  { w.1 with mem := { w.1.mem with pool := Cells.put (fun _ => []) w.1.mem.pool c p.2,
                                   waiting := Cells.put (fun _ => []) w.1.mem.waiting c w.2 } }

/-- An access to bytes [a, b) by an agent of the device follows every earlier request to its lines (R279). -/
def State.settleReqs (s : State) (a b : Nat) : State :=
  if s.mem.pool.isEmpty && s.mem.waiting.isEmpty then s else [0, 1, 2, 3].foldl (State.settleChannel a b) s

/-- The ranks that serve bytes [a, b) wake from self-refresh (R287). -/
def State.wakeRange (s : State) (a b : Nat) : State :=
  if ranks.all fun i => s.rankState i != 2 then s
  else
    (List.range (cdiv b 128 - a / 128)).foldl (fun t k =>
      match t.dramHome (128 * (a / 128 + k)) with
      | some (_, i) => t.wakeRank (t.servingRank (128 * (a / 128 + k)) i)
      | none => t) s

/-- Write bytes from an address, behind the requests that came before. -/
def State.dramStore (s : State) (a : Nat) (l : List Byte) : State :=
  if l.isEmpty then s else ((s.wakeRange a (a + l.length)).settleReqs a (a + l.length)).storeNow a l

/-- Bytes from an address as an agent of the device reads them: none where one of them reads as poison. -/
def State.dramFetch (s : State) (a n : Nat) : Option (List Byte) := (s.settleReqs a (a + n)).fetchNow a n

/-- The alarms of MEM follow their conditions (R304). -/
def State.memAlarms (s : State) : State :=
  let s1 := s.hold .trainFail (ranks.any fun i => s.bit (Reg.MEM_RANK_STATUS i) 23)
  let s2 := s1.hold .eccUncorr (s.bit Reg.MEM_ERR_INFO 31 && decide (s.fld Reg.MEM_ERR_INFO 30 28 ≤ 1))
  s2.hold .rankRetired (!s.mram.retired.isEmpty)

/-- Record an error (MEM.ERR_INFO): KIND 0 read, 1 write CRC, 2 training, 3 host; only the first after VALID cleared. -/
def State.memError (s : State) (kind rank dev port addr : Nat) : State :=
  if s.bit Reg.MEM_ERR_INFO 31 then s
  else
    ((s.setReg Reg.MEM_ERR_INFO (w32 (2 ^ 31 + kind * 2 ^ 28 + rank % 16 * 2 ^ 24 + dev % 16 * 2 ^ 20 + port % 16 * 2 ^ 16))).setReg
      Reg.MEM_ERR_ADDR_LO (w32 addr)).setReg Reg.MEM_ERR_ADDR_HI (w32 (addr / 2 ^ 32 % 64))

/-- An uncorrectable access of rank `i` is counted and recorded (R294, R295): KIND 0 read, 1 write. -/
def State.countUncorr (s : State) (kind i port addr : Nat) : State :=
  ((s.addSat (Reg.MEM_RANK_ECC i) 15 8 1).memError kind i 15 port addr).memAlarms

/-- Every line of bytes [a, b) that reads as poison is an uncorrectable read through memory port `port`, of a rank in
service (R294). -/
def State.readFaults (s : State) (port a b : Nat) : State :=
  (List.range (cdiv b 128 - a / 128)).foldl (fun t k =>
    let l := a / 128 + k
    match t.dramHome (128 * l) with
    | some (_, i) =>
      if t.linePoisoned l && t.dramTakes (128 * l) then t.countUncorr 0 (t.servingRank (128 * l) i) port (128 * l) else t
    | none => t) s

/-- A read through memory port `port` with what it does to the controller: it wakes its ranks (R287), follows earlier
requests (R279), and poison is reported (R294). -/
def State.portRead (s : State) (port a n : Nat) : State × Option (List Byte) :=
  let s1 := (s.wakeRange a (a + n)).settleReqs a (a + n)
  match s1.fetchNow a n with
  | some l => (s1, some l)
  | none => (s1.readFaults port a (a + n), none)

end Sys2Proof.Machine
end

