-- ==== Sys2Proof/Machine/Pixels.lean ====
section
/-!
DEFINITION. Machine/Pixels.lean: pixel formats (R196, R329), sample images, the bit-stream packing of pixels and of
planes, tiles, and the frame-store codec with its stated losses (R305 to R312, R315).
-/
namespace Sys2Proof.Machine

/-! ### Formats (R23, R196, R329) -/

/-- Component bit depth of a format code. -/
def Fmt.depth (f : Nat) : Nat :=
  match f with
  | 0x02 => 10 | 0x04 => 10 | 0x05 => 12 | 0x07 => 10 | 0x08 => 12 | 0x0A => 10
  | _ => 8

/-- Component planes of a format: Y, Cb, Cr; R, G, B; A, R, G, B; or one plane of indices (R305). -/
def Fmt.planes (f : Nat) : Nat :=
  match f with
  | 0x0B => 4 | 0x0C => 1 | _ => 3

/-- Chroma is halved horizontally: 4:2:2 and 4:2:0. -/
def Fmt.halfH (f : Nat) : Bool := f == 0x01 || f == 0x02 || f == 0x09 || f == 0x0A

/-- Chroma is halved vertically: 4:2:0. -/
def Fmt.halfV (f : Nat) : Bool := f == 0x09 || f == 0x0A

/-- A YCbCr format. -/
def Fmt.yuv (f : Nat) : Bool := decide (1 ≤ f) && decide (f ≤ 5) || f == 0x09 || f == 0x0A

/-- Raw bits per pixel b (R329). -/
def Fmt.bits (f : Nat) : Nat :=
  match f with
  | 0x01 => 16 | 0x02 => 20 | 0x03 => 24 | 0x04 => 30 | 0x05 => 36 | 0x06 => 24 | 0x07 => 30 | 0x08 => 36
  | 0x09 => 12 | 0x0A => 15 | 0x0B => 32 | 0x0C => 8
  | _ => 0

/-- Twice the stored bits per pixel a of R23: mode 3 BUDGET halves, EXACT and BOUNDED add 1. -/
def Fmt.stored2 (f mode : Nat) : Nat := if mode = 3 then Fmt.bits f else 2 * (Fmt.bits f + 1)

/-- A format code of R329. -/
def Fmt.known (f : Nat) : Bool := decide (1 ≤ f) && decide (f ≤ 12)

/-- Which plane a format's chroma planes are: planes 1 and 2 of a YCbCr format. -/
def Fmt.chroma (f p : Nat) : Bool := Fmt.yuv f && decide (1 ≤ p)

/-- Width of plane `p` of a `w`-pixel picture. -/
def Fmt.planeW (f p w : Nat) : Nat := if Fmt.chroma f p && Fmt.halfH f then cdiv w 2 else w

/-- Height of plane `p` of an `h`-line picture. -/
def Fmt.planeH (f p h : Nat) : Nat := if Fmt.chroma f p && Fmt.halfV f then cdiv h 2 else h

/-! ### Images -/

/-- The number of sample (x, y) of plane `p`. -/
def Img.key (p x y : Nat) : Nat := (p * 16384 + y) * 16384 + x

/-- What sample x of row `r` (plane * 2^14 + y) reads as before it is written: free. -/
def Img.unset (i : Img) (r x : Nat) : Nat := Config.freeSample i.tag (r * 16384 + x) % 2 ^ Fmt.depth i.fmt

/-- Row y of plane `p`. -/
def Img.row (i : Img) (p y : Nat) : Cells Nat := Cells.get (fun _ => []) i.px (p * 16384 + y)

/-- Sample (x, y) of plane `p` as the writer handed it to the codec. -/
def Img.at (i : Img) (p x y : Nat) : Nat := Cells.get (i.unset (p * 16384 + y)) (i.row p y) x

/-- Write sample (x, y) of plane `p`. -/
def Img.set (i : Img) (p x y v : Nat) : Img :=
  let row := Cells.put (i.unset (p * 16384 + y)) (i.row p y) x (v % 2 ^ Fmt.depth i.fmt)
  { i with px := Cells.put (fun _ => []) i.px (p * 16384 + y) row }

/-- Write a run of samples of plane `p` from (x, y) rightwards. -/
def Img.setRun (i : Img) (p x y : Nat) : List Nat → Img
  | [] => i
  | v :: t => Img.setRun (i.set p x y v) p (x + 1) y t

/-! ### Bit-stream packing (R196) -/

/-- Components of the given width packed from bit 0 upward into bytes, zero bits to the next byte boundary. -/
def packBits (width : Nat) (vals : List Nat) : List Byte :=
  let n := vals.foldr (fun v acc => v % 2 ^ width + acc * 2 ^ width) 0
  leBytes (cdiv (width * vals.length) 8) n

/-- `count` components of the given width unpacked from bytes. -/
def unpackBits (width count : Nat) (l : List Byte) : List Nat :=
  let n := leNat l
  (List.range count).map fun i => n / 2 ^ (width * i) % 2 ^ width

/-- The components of `count` pixels from (x, y) of an image, in the order of R196. -/
def Img.wire (i : Img) (x y count : Nat) : List Nat :=
  if i.fmt = 0x01 ∨ i.fmt = 0x02 then
    (List.range (count / 2)).flatMap fun k =>
      let px := x + 2 * k
      [i.at 1 (px / 2) y, i.at 0 px y, i.at 2 (px / 2) y, i.at 0 (px + 1) y]
  else
    (List.range count).flatMap fun k => (List.range (Fmt.planes i.fmt)).map fun p => i.at p (x + k) y

/-- How many components `count` pixels of a format take on the wire (R196). -/
def Fmt.wireCount (f count : Nat) : Nat := if f = 0x01 ∨ f = 0x02 then 2 * count else 3 * count

/-- Store `count` pixels that arrived as components in the order of R196. -/
def Img.unwire (i : Img) (x y : Nat) (comps : List Nat) : Img :=
  if i.fmt = 0x01 ∨ i.fmt = 0x02 then
    (List.range (comps.length / 4)).foldl (fun acc k =>
      let px := x + 2 * k
      let c := fun n => comps.getD (4 * k + n) 0
      (((acc.set 1 (px / 2) y (c 0)).set 0 px y (c 1)).set 2 (px / 2) y (c 2)).set 0 (px + 1) y (c 3)) i
  else
    (List.range (comps.length / 3)).foldl (fun acc k =>
      let c := fun n => comps.getD (3 * k + n) 0
      ((acc.set 0 (x + k) y (c 0)).set 1 (x + k) y (c 1)).set 2 (x + k) y (c 2)) i

/-- The frame-CRC bytes of an image (R419): plane by plane, line by line, each line packed from a fresh byte. -/
def Img.frameBytes (i : Img) : List Byte :=
  (List.range (Fmt.planes i.fmt)).flatMap fun p =>
    (List.range (Fmt.planeH i.fmt p i.h)).flatMap fun y =>
      packBits (Fmt.depth i.fmt) ((List.range (Fmt.planeW i.fmt p i.w)).map fun x => i.at p x y)

/-- The frame CRC (R419): CRC-32C over the base-level samples. -/
def Img.frameCrc (i : Img) : Word := w32 (Crc.value Crc.crc32c i.frameBytes)

/-! ### Prescaling (R382) -/

/-- Sample (x, y) of plane `p` of the next pyramid level: the rounded mean of four samples, edges repeated. -/
def Img.halfSample (i : Img) (p x y : Nat) : Nat :=
  let pw := Fmt.planeW i.fmt p i.w
  let ph := Fmt.planeH i.fmt p i.h
  let cx := fun v => min v (pw - 1)
  let cy := fun v => min v (ph - 1)
  (i.at p (cx (2 * x)) (cy (2 * y)) + i.at p (cx (2 * x + 1)) (cy (2 * y))
    + i.at p (cx (2 * x)) (cy (2 * y + 1)) + i.at p (cx (2 * x + 1)) (cy (2 * y + 1)) + 2) / 4

/-- The next pyramid level of an image (R21, R382). -/
def Img.half (i : Img) : Img :=
  let o : Img := { w := cdiv i.w 2, h := cdiv i.h 2, fmt := i.fmt, tag := i.tag }
  (List.range (Fmt.planes i.fmt)).foldl (fun a p =>
    (List.range (Fmt.planeH i.fmt p o.h)).foldl (fun b y =>
      (List.range (Fmt.planeW i.fmt p o.w)).foldl (fun c x => c.set p x y (i.halfSample p x y)) b) a) o

/-- The levels of a picture: the base alone, or with its ½, ¼ and ⅛ levels (R21, R314). -/
def Img.pyramid (i : Img) (on : Bool) : List Img :=
  if on then
    let a := i.half
    let b := a.half
    [i, a, b, b.half]
  else [i]

/-! ### Tiles and the codec (R305 to R312) -/

/-- Tile columns of an image. -/
def Img.tilesX (i : Img) : Nat := cdiv i.w 8

/-- Tiles of an image. -/
def Img.tiles (i : Img) : Nat := i.tilesX * cdiv i.h 8

/-- The tile that holds luma pixel (x, y). -/
def Img.tileOf (i : Img) (x y : Nat) : Nat := y / 8 * i.tilesX + x / 8

/-- The samples of plane `p` in tile `t`: its padded 8 × 8 pixels, edges repeated (R305). -/
def Img.planeTile (i : Img) (p t : Nat) : List Nat :=
  let tx := t % i.tilesX
  let ty := t / i.tilesX
  let sw := if Fmt.chroma i.fmt p && Fmt.halfH i.fmt then 4 else 8
  let sh := if Fmt.chroma i.fmt p && Fmt.halfV i.fmt then 4 else 8
  (List.range sh).flatMap fun y => (List.range sw).map fun x =>
    i.at p (min (tx * sw + x) (Fmt.planeW i.fmt p i.w - 1)) (min (ty * sh + y) (Fmt.planeH i.fmt p i.h - 1))

/-- All samples of tile `t`, plane after plane (R305). -/
def Img.tile (i : Img) (t : Nat) : List Nat := (List.range (Fmt.planes i.fmt)).flatMap fun p => i.planeTile p t

/-- All elements equal. -/
def allEqual : List Nat → Bool
  | [] => true
  | a :: t => t.all fun b => b == a

/-- Every sample of each component equal: a FLAT tile (R307). -/
def Img.flat (i : Img) (t : Nat) : Bool := (List.range (Fmt.planes i.fmt)).all fun p => allEqual (i.planeTile p t)

/-- The error of one sample after coding, within the mode's stated loss: none for EXACT and for FLAT tiles, within ±E
for BOUNDED, open for BUDGET (R309 to R311). `raw` counts as exact too. -/
def codecErr (mode e : Nat) (err : Int) : Int :=
  if mode = 1 then 0 else if mode = 2 then max (-(e : Int)) (min (e : Int) err) else err

/-- The bytes of a tile's PACKED coding where it is shorter than the raw size 8b, and the tile is not FLAT. -/
def Img.packed (i : Img) (mode e bias t : Nat) : Nat := Config.packedLen mode e bias i.fmt (i.tile t)

/-- The coding of tile `t` (R307, R309, R310): 0 RAW, 1 PACKED, 2 FLAT, 3 BUDGET. -/
def Img.coding (i : Img) (mode e bias t : Nat) : Nat :=
  if mode = 3 then 3
  else if i.flat t then 2
  else if i.packed mode e bias t < 8 * Fmt.bits i.fmt then 1
  else 0

/-- LEN of tile `t` (R307, R308). -/
def Img.tileLen (i : Img) (mode e bias t : Nat) : Nat :=
  match i.coding mode e bias t with
  | 0 => 8 * Fmt.bits i.fmt
  | 1 => i.packed mode e bias t
  | 2 => 8
  | _ => 4 * Fmt.bits i.fmt - 8

/-- A reconstructed sample from the sample written and its error, clipped to the component's range (R310). -/
def reconSample (depth v : Nat) (err : Int) : Nat := (max 0 (min ((2 : Int) ^ depth - 1) ((v : Int) + err))).toNat

/-- The samples of tile `t` as FSC coded them. -/
def Img.tileCoded (i : Img) (mode e bias t : Nat) : List Nat :=
  let orig := i.tile t
  let c := i.coding mode e bias t
  if c = 0 ∨ c = 2 ∨ (c = 3 ∧ i.flat t) then orig
  else
    let errs := Config.codecError mode e bias i.fmt orig
    (List.range orig.length).map fun k =>
      reconSample (Fmt.depth i.fmt) (orig.getD k 0) (codecErr mode e (errs.getD k 0))

/-- What the host's raw writes have made of tile `t`: none where its bytes stand as written. -/
def Img.rawAt (i : Img) (t : Nat) : Option (Option (List Nat)) := (i.rawTiles.find? fun e => e.1 == t).map (·.2)

/-- The samples of tile `t` as a reader receives them; a tile with a damaged header delivers none (R315). -/
def Img.tileRecon (i : Img) (mode e bias t : Nat) : List Nat :=
  match i.rawAt t with
  | some (some l) => l
  | some none => []
  | none => i.tileCoded mode e bias t

/-- MAXERR of tile `t` (R307): the largest absolute error, saturating at 255. -/
def Img.tileErr (i : Img) (mode e bias t : Nat) : Nat :=
  let orig := i.tile t
  let got := i.tileCoded mode e bias t
  min 255 ((List.range orig.length).foldl (fun m k =>
    max m (((got.getD k 0 : Int) - (orig.getD k 0 : Int)).natAbs)) 0)

/-- Sample (x, y) of plane `p` as a reader receives it through the codec. -/
def Img.read (i : Img) (mode e bias p x y : Nat) : Nat :=
  if mode = 1 ∧ i.rawTiles = [] then i.at p x y
  else
    let sw := if Fmt.chroma i.fmt p && Fmt.halfH i.fmt then 4 else 8
    let sh := if Fmt.chroma i.fmt p && Fmt.halfV i.fmt then 4 else 8
    let t := y / sh * i.tilesX + x / sw
    let off := (List.range p).foldl (fun n q => n + (i.planeTile q t).length) 0
    (i.tileRecon mode e bias t).getD (off + y % sh * sw + x % sw) 0

/-! ### Where a tile lies in DRAM (R306) -/

/-- Bytes of one level of one buffer: tiles × (header and payload area). Twice the stored bits keep 7.5 exact. -/
def levelBytes (f mode w h : Nat) : Nat := cdiv w 8 * cdiv h 8 * (64 * Fmt.stored2 f mode / 16)

/-- Bytes of one buffer. -/
def bufferBytes (f mode w h : Nat) (pyramid : Bool) : Nat :=
  let l := fun n => levelBytes f mode (cdiv w (2 ^ n)) (cdiv h (2 ^ n))
  if pyramid then l 0 + l 1 + l 2 + l 3 else l 0

/-- The DRAM allocation of a surface (R23): three buffers. -/
def allocBytes (f mode w h : Nat) (pyramid : Bool) : Nat := 3 * bufferBytes f mode w h pyramid

/-- Tile groups of an image. -/
def Img.groups (i : Img) : Nat := cdiv i.tiles 16

/-- Tiles of group `g`: 16, and the remaining ones in the last (R306). -/
def Img.groupTiles (i : Img) (g : Nat) : Nat := min 16 (i.tiles - 16 * g)

/-- Bytes that one tile of a level takes with its header, in the mean over its group. -/
def tileSpace (f mode : Nat) : Nat := 64 * Fmt.stored2 f mode / 16

/-- DRAM address of group `g` of a level that starts at `start` (R306). -/
def Img.groupStart (i : Img) (mode start g : Nat) : Nat := start + g * 16 * tileSpace i.fmt mode

/-- OFFSET of tile `t`: its slot for BUDGET, else behind the payloads before it in its group (R306, R307). -/
def Img.tileOffset (i : Img) (mode e bias t : Nat) : Nat :=
  8 * i.groupTiles (t / 16) + if mode = 3 then (t % 16) * (4 * Fmt.bits i.fmt - 8)
    else (List.range (t % 16)).foldl (fun a j => a + i.tileLen mode e bias (16 * (t / 16) + j)) 0

/-- DRAM byte range [a, b) of the header of tile `t` and of its payload, for a level that starts at `start` (R306). -/
def Img.tileRanges (i : Img) (mode e bias start t : Nat) : (Nat × Nat) × (Nat × Nat) :=
  let g := i.groupStart mode start (t / 16)
  let off := i.tileOffset mode e bias t
  ((g + 8 * (t % 16), g + 8 * (t % 16) + 8), (g + off, g + off + i.tileLen mode e bias t))

/-! ### Tile headers and payloads (R307, R308) -/

/-- A tile header of 64 bits (R307). -/
structure TileHeader where
  coding : Nat
  offset : Nat
  len    : Nat
  err    : Nat
  quant  : Nat
  /-- bits [63:42] -/
  reserved : Nat := 0
  deriving DecidableEq, Repr

/-- The header as a number. -/
def TileHeader.word (h : TileHeader) : Nat :=
  h.coding + h.offset * 2 ^ 2 + h.len * 2 ^ 16 + h.err * 2 ^ 30 + h.quant * 2 ^ 38 + h.reserved * 2 ^ 42

/-- The fields of a header word. -/
def TileHeader.ofWord (n : Nat) : TileHeader :=
  { coding := bitsN n 1 0, offset := bitsN n 15 2, len := bitsN n 29 16, err := bitsN n 37 30, quant := bitsN n 41 38,
    reserved := n / 2 ^ 42 }

/-- The header that FSC writes for tile `t` (R307). -/
def Img.tileHeader (i : Img) (mode e bias t : Nat) : TileHeader :=
  { coding := i.coding mode e bias t, offset := i.tileOffset mode e bias t, len := i.tileLen mode e bias t,
    err := i.tileErr mode e bias t,
    quant := if mode = 1 ∨ i.coding mode e bias t = 0 ∨ i.coding mode e bias t = 2 then 0
      else Config.quant mode e bias i.fmt (i.tile t) % 16 }

/-- The payload that FSC writes for tile `t` (R307): RAW samples, one 16-bit value per component, or its coding. -/
def Img.tilePayload (i : Img) (mode e bias t : Nat) : List Byte :=
  match i.coding mode e bias t with
  | 0 => packBits (Fmt.depth i.fmt) (i.tile t)
  | 2 => (List.range 4).flatMap fun p => leBytes 2 (if p < Fmt.planes i.fmt then (i.planeTile p t).headD 0 else 0)
  | _ => (List.range (i.tileLen mode e bias t)).map fun k => Config.codedByte mode e bias i.fmt (i.tile t) k

/-- The bytes of group `g`: its headers, then its payloads (R306). -/
def Img.groupBytes (i : Img) (mode e bias g : Nat) : List Byte :=
  let ts := (List.range (i.groupTiles g)).map fun j => 16 * g + j
  (ts.flatMap fun t => leBytes 8 (i.tileHeader mode e bias t).word) ++ ts.flatMap fun t => i.tilePayload mode e bias t

/-- The rules of R308, for a tile with the fixed slot `slot` in a group of `k` tiles. -/
def TileHeader.sound (h : TileHeader) (fmt mode e k slot : Nat) : Bool :=
  (if mode = 3 then h.coding == 3 else decide (h.coding ≤ 2))
  && (match h.coding with
    | 0 => h.len == 8 * Fmt.bits fmt
    | 1 => decide (h.len ≤ 8 * Fmt.bits fmt)
    | 2 => h.len == 8
    | _ => h.len == 4 * Fmt.bits fmt - 8)
  && decide (8 * k ≤ h.offset) && decide (h.offset + h.len ≤ k * tileSpace fmt mode) && (mode != 3 || h.offset == slot)
  && (mode != 1 || h.err == 0) && (mode != 2 || decide (h.err ≤ e)) && h.reserved == 0

/-- Samples of plane `p` in one tile (R305). -/
def Fmt.tilePlane (f p : Nat) : Nat :=
  (if Fmt.chroma f p && Fmt.halfH f then 4 else 8) * if Fmt.chroma f p && Fmt.halfV f then 4 else 8

/-- The samples of a tile whose bytes are none that FSC wrote (R307): those of a RAW payload, the values of a FLAT one;
what a PACKED or BUDGET payload or a value out of range decodes to the spec does not give. -/
def decodeTile (fmt mode coding : Nat) (l : List Byte) : List Nat :=
  let open' := fun (k : Nat) => Config.decodedSample mode fmt l k % 2 ^ Fmt.depth fmt
  let n := (List.range (Fmt.planes fmt)).foldl (fun a p => a + Fmt.tilePlane fmt p) 0
  match coding with
  | 0 => unpackBits (Fmt.depth fmt) n l
  | 2 => (List.range (Fmt.planes fmt)).flatMap fun p =>
    let v := leAt l (2 * p) 2
    List.replicate (Fmt.tilePlane fmt p) (if v < 2 ^ Fmt.depth fmt then v else open' p)
  | _ => (List.range n).map open'

end Sys2Proof.Machine
end

