-- ==== Sys2Proof/Machine/Structure.lean ====
section
/-!
DEFINITION. Machine/Structure.lean: the records of the running structure as the machine reads them (R54 to R59), layer
descriptors (R331), source entries, and what follows from them: who feeds whom, frame clocks, face nodes.
-/
namespace Sys2Proof.Machine

/-! ### Records -/

/-- Record types (R55). -/
abbrev RT.DRAM_MAP : Nat := 0x0002
abbrev RT.PORT : Nat := 0x0003
abbrev RT.FRAME_CLOCK : Nat := 0x0004
abbrev RT.STREAM : Nat := 0x0010
abbrev RT.NODE : Nat := 0x0020
abbrev RT.LAYER : Nat := 0x0021
abbrev RT.ENSEMBLE : Nat := 0x0022
abbrev RT.SELECT : Nat := 0x0023
abbrev RT.OUTPUT_TIMING : Nat := 0x0030
abbrev RT.CHECK_ASSIGN : Nat := 0x0040
abbrev RT.GUARD_POLICY : Nat := 0x0041
abbrev RT.SCALER_SET : Nat := 0x0050
abbrev RT.TOUCH_HEAD : Nat := 0x0060
abbrev RT.TWIN : Nat := 0x0070
abbrev RT.CASCADE : Nat := 0x0071
abbrev RT.REEL : Nat := 0x0080
abbrev RT.DECODER_CONTEXT : Nat := 0x0090
abbrev RT.REMOVE : Nat := 0x00F0

/-- The body of record (type, id) of a record list. -/
def recBody (l : List Rec) (type id : Nat) : Option (List Byte) :=
  (l.find? fun r => r.type == type && r.id == id).map (·.body)

/-- The body of a record of the running structure. -/
def State.body (s : State) (type id : Nat) : Option (List Byte) := recBody s.ld.recs type id

/-- The running structure holds record (type, id). -/
def State.has (s : State) (type id : Nat) : Bool := (s.body type id).isSome

/-- IDs of the records of one type, in catalogue order. -/
def recIds (l : List Rec) (type : Nat) : List Nat := (l.filter fun r => r.type == type).map (·.id)

/-! ### Nodes and ensembles (R57, R58) -/

/-- A NODE record (R57). -/
structure NodeRec where
  dest : Nat
  fclk : Nat
  w    : Nat
  h    : Nat
  output : Nat
  bonded : Bool
  surf : Nat
  consumer : Nat
  ensemble : Nat
  lead : Nat
  mask : Nat
  background : Word
  deriving DecidableEq, Repr

/-- The NODE body at its offsets (R57). -/
def NodeRec.ofBody (b : List Byte) : NodeRec :=
  { dest := leAt b 0 1, fclk := leAt b 1 1, w := leAt b 2 2, h := leAt b 4 2, output := leAt b 6 1,
    bonded := (leAt b 7 1).testBit 0, surf := leAt b 8 2, consumer := leAt b 10 2, ensemble := leAt b 12 1,
    lead := leAt b 13 1, mask := leAt b 14 2, background := w32 (leAt b 16 4) }

/-- The node a record list holds under a number. -/
def nodeRec (l : List Rec) (n : Nat) : Option NodeRec := (recBody l RT.NODE n).map NodeRec.ofBody

/-- The node that writes SURFACE stream `i` in a record list. -/
def surfaceNode (l : List Rec) (i : Nat) : Option Nat :=
  (recIds l RT.NODE).find? fun n => match nodeRec l n with
    | some r => (r.dest == 1 || r.dest == 2) && r.surf == i
    | none => false

/-- Node `n` of the running structure. -/
def State.node (s : State) (n : Nat) : Option NodeRec := nodeRec s.ld.recs n

/-- The nodes of the running structure, by number. -/
def State.nodeIds (s : State) : List Nat := recIds s.ld.recs RT.NODE

/-- FACE of an ENSEMBLE body (R58). -/
def ensembleFace (b : List Byte) : Nat := leAt b 2 2

/-- Member slot of external input `i` of an ENSEMBLE body: layer index node * 16 + slot (R34, R58). -/
def ensembleInput (b : List Byte) (i : Nat) : Option Nat :=
  let m := leAt b 1 1
  if i < leAt b 4 1 then
    let o := 8 + 2 * m + 4 * i
    some (leAt b o 2 * 16 + leAt b (o + 2) 1)
  else none

/-! ### Source entries (R59, R331) -/

/-- What a layer's SOURCE names. -/
inductive SrcRef where
  | stream (n : Nat)
  | node (n : Nat)
  | ensemble (n : Nat)
  | solid
  | invalid
  deriving DecidableEq, Repr

/-- A source entry of 16 bits: bits [15:14] kind, [11:0] number, [13:12] zero; 0xFFFF SOLID (R59, R331). -/
def SrcRef.ofEntry (e : Nat) : SrcRef :=
  if e = 0xFFFF then .solid
  else if bitsN e 13 12 ≠ 0 then .invalid
  else match bitsN e 15 14 with
    | 0 => .stream (bitsN e 11 0)
    | 1 => .node (bitsN e 11 0)
    | 2 => .ensemble (bitsN e 11 0)
    | _ => .invalid

/-- The node a reference stands for: itself, or the face node of an ensemble (R34); none for a stream. -/
def faceOf (l : List Rec) : SrcRef → Option Nat
  | .node n => some n
  | .ensemble e => (recBody l RT.ENSEMBLE e).map ensembleFace
  | _ => none

/-! ### Layer descriptors (R331) -/

/-- A layer descriptor, field by field. -/
structure LayerDesc where
  source : Nat
  zorder : Nat
  lalpha : Nat
  cropX  : Nat
  cropY  : Nat
  cropW  : Nat
  cropH  : Nat
  dstX   : Int
  dstY   : Int
  dstW   : Nat
  dstH   : Nat
  guard  : Nat
  corner : Nat
  enable : Bool
  pyrFixed : Bool
  pyrLevel : Nat
  aLive  : Nat
  aStale : Nat
  scaler : Nat
  alpha  : Nat
  csc    : Nat
  palette : Nat
  coefH  : Nat
  coefV  : Nat
  fill   : Word
  deriving DecidableEq, Repr

/-- The descriptor at its offsets (R331). -/
def LayerDesc.ofBody (b : List Byte) : LayerDesc :=
  { source := leAt b 0 2, zorder := leAt b 2 1 % 16, lalpha := leAt b 3 1, cropX := leAt b 4 2, cropY := leAt b 6 2,
    cropW := leAt b 8 2, cropH := leAt b 10 2, dstX := signedN 16 (leAt b 12 2), dstY := signedN 16 (leAt b 14 2),
    dstW := leAt b 16 2, dstH := leAt b 18 2, guard := leAt b 20 1 % 4, corner := leAt b 21 1 % 4,
    enable := (leAt b 22 1).testBit 0, pyrFixed := (leAt b 22 1).testBit 1, pyrLevel := bitsN (leAt b 22 1) 3 2,
    aLive := leAt b 24 4 % 2 ^ 24, aStale := leAt b 28 4 % 2 ^ 24, scaler := leAt b 32 1, alpha := leAt b 33 1,
    csc := leAt b 34 1, palette := leAt b 35 1, coefH := leAt b 36 2, coefV := leAt b 38 2, fill := w32 (leAt b 40 4) }

/-- BAR0 offset of entry `i` of the Layer Descriptor Table. -/
def ldtBase (i : Nat) : Nat := 0x24_0000 + 64 * i

/-- `n` words of BAR0 from an offset, as bytes. -/
def State.windowBytes (s : State) (off n : Nat) : List Byte :=
  (List.range n).flatMap fun k => leBytes 4 (s.reg (off + 4 * k)).toNat

/-- Write bytes into a window, word by word. -/
def State.putWindow (s : State) (off : Nat) (b : List Byte) : State :=
  (List.range (b.length / 4)).foldl (fun t k => t.setReg (off + 4 * k) (w32 (leAt b (4 * k) 4))) s

/-- The descriptor in force of layer `i`. -/
def State.layerDesc (s : State) (i : Nat) : LayerDesc := LayerDesc.ofBody (s.windowBytes (ldtBase i) 16)

/-- Layer `i` exists in the running structure. -/
def State.layerOn (s : State) (i : Nat) : Bool := s.has RT.LAYER i

/-- The layers of node `n`, by slot. -/
def State.nodeLayers (s : State) (n : Nat) : List Nat :=
  ((List.range 16).map fun k => n * 16 + k).filter s.layerOn

/-! ### Default thresholds (R424) -/

/-- GUARD_POLICY: A_live, A_stale in 0.1 ms, FREEZE_N, GLASS_REQUIRED; without the record 1,200, 5,000, 50 and 0. -/
structure Policy where
  aLive  : Nat := 1200
  aStale : Nat := 5000
  freezeN : Nat := 50
  glassRequired : Bool := false
  deriving DecidableEq, Repr

/-- The policy of a record list. -/
def policyOf (l : List Rec) : Policy :=
  match recBody l RT.GUARD_POLICY 0 with
  | some b => { aLive := leAt b 0 4 % 2 ^ 24, aStale := leAt b 4 4 % 2 ^ 24, freezeN := leAt b 8 1,
                glassRequired := (leAt b 9 1).testBit 0 }
  | none => {}

/-- The policy in force. -/
def State.policy (s : State) : Policy := policyOf s.ld.recs

/-! ### Frame clocks (R32, R143) -/

/-- Frame clock of node `n` of a record list, an INLINE node on its consumer's (R32); `fuel` bounds the chain. -/
def clockOf (l : List Rec) : Nat → Nat → Nat
  | 0, _ => 0
  | fuel + 1, n =>
    match (recBody l RT.NODE n).map NodeRec.ofBody with
    | some r => if r.dest = 3 then clockOf l fuel r.consumer else r.fclk
    | none => 0

/-- Frame clock of node `n`. -/
def State.nodeClock (s : State) (n : Nat) : Nat := clockOf s.ld.recs 257 n

/-- The raster-timed node above node `n`: itself when GLASS or GLASS_MEMORY, its consumer's for INLINE. -/
def rasterNode (l : List Rec) : Nat → Nat → Option Nat
  | 0, _ => none
  | fuel + 1, n =>
    match (recBody l RT.NODE n).map NodeRec.ofBody with
    | some r => if r.dest = 3 then rasterNode l fuel r.consumer else if r.dest = 1 then none else some n
    | none => none

/-- The raster-timed node above node `n`, none beneath a MEMORY node. -/
def State.rasterNode (s : State) (n : Nat) : Option Nat := Machine.rasterNode s.ld.recs 257 n

/-! ### Outputs (R385) -/

/-- The OUTPUT_TIMING body at its offsets (R385). -/
def Timing.ofBody (b : List Byte) : Timing :=
  { w := leAt b 0 2, h := leAt b 2 2, total := leAt b 4 2, fmt := leAt b 6 1, bonded := (leAt b 7 1).testBit 0,
    commitLead := leAt b 8 1, mode := leAt b 9 1, gridX := leAt b 10 1, gridY := leAt b 11 1 }

/-- The rasters of the fallback structure (R403). -/
def Timing.fallback : Timing :=
  { w := 1920, h := 1080, total := 1125, fmt := 0x06, bonded := false, commitLead := 8, mode := 0, gridX := 0, gridY := 0 }

/-- The raster of OUTn: its OUTPUT_TIMING record, or the fallback raster while the fallback structure runs. -/
def State.timing (s : State) (n : Nat) : Option Timing :=
  if s.ld.loaded then (s.body RT.OUTPUT_TIMING (64 + n)).map Timing.ofBody
  else if s.ready && decide (n < 24) then some Timing.fallback else none

/-- The node bound to OUTn (R30): the GLASS or GLASS_MEMORY node whose OUTPUT names it. -/
def State.boundNode (s : State) (n : Nat) : Option Nat :=
  s.nodeIds.find? fun k => match s.node k with
    | some r => (r.dest == 0 || r.dest == 2) && r.output == n
    | none => false

/-- The lead of OUTn: LEAD of its node, 2 lines for the startup card (R387), 4 on the fallback structure (R403). -/
def State.lead (s : State) (n : Nat) : Nat :=
  match s.boundNode n with
  | some k => match s.node k with
    | some r => r.lead
    | none => 2
  | none => if s.ld.loaded then 2 else 4

/-- The even port of a bonded pair that OUTn belongs to; itself otherwise (R395). -/
def State.evenPort (s : State) (n : Nat) : Nat :=
  let e := n / 2 * 2
  match s.timing e with
  | some t => if t.bonded then e else n
  | none => n

/-- The frame clock OUTn runs on: its node's, FCLK0 for the startup card (R387). -/
def State.outClock (s : State) (n : Nat) : Nat :=
  match s.boundNode (s.evenPort n) with
  | some k => s.nodeClock k
  | none => 0

/-- SIDE strap and CASCADE_ID strap (R167). -/
def State.sideStrap (s : State) : Nat := s.fld Reg.SYS_STRAPS 5 5
def State.cascadeId (s : State) : Nat := s.fld Reg.SYS_STRAPS 4 2

/-! ### Addresses of decoder contexts (R216, R218, R221) -/

/-- The ports of a PORTS mask. -/
def ctxPorts (b : List Byte) : List Nat := (List.range 8).filter fun n => (leAt b 4 1).testBit n

/-- GROUP is a multicast address: 224.0.0.0/4 or ff00::/8. -/
def ctxMulticast (b : List Byte) : Bool :=
  if (leAt b 5 1).testBit 3 then leAt b 16 1 == 0xFF else leAt b 28 1 / 16 == 14

/-- The DRAM range of a DECODER_CONTEXT's WINDOW (R221). -/
def ctxRange (b : List Byte) : Nat × Nat :=
  let w := leAt b 12 4
  (w % 2 ^ 18 * 2 ^ 20, (w % 2 ^ 18 + bitsN w 27 18) * 2 ^ 20)

/-- The link-local IPv6 address of a MAC, a modified EUI-64 identifier (R216). -/
def linkLocalOf (m : List Byte) : List Byte :=
  [0xFE, 0x80] ++ leBytes 6 0 ++ [m.getD 0 0 ^^^ 0x02, m.getD 1 0, m.getD 2 0, 0xFF, 0xFE, m.getD 3 0, m.getD 4 0, m.getD 5 0]

end Sys2Proof.Machine
end

