-- ==== Sys2Proof/Machine/Regions.lean ====
section
/-!
DEFINITION. Machine/Regions.lean: the host-accessible regions of DRAM (R77, R274, R277).
-/
namespace Sys2Proof.Machine

/-- The used regions of a DRAM_MAP body: [base, end) in bytes (R274). -/
def mapRegions (b : List Byte) : List (Nat × Nat) :=
  ((List.range 6).filter fun k => leAt b (16 + 8 * k) 4 / 2 ^ 28 != 0).map fun k =>
    let base := leAt b (16 + 8 * k) 4 % 2 ^ 18 * 2 ^ 20
    (base, base + leAt b (20 + 8 * k) 4 * 2 ^ 20)

/-- The host-accessible regions in force: those of the running structure's map, or the STAGING region of the boot map
(R274, R277). -/
def State.regions (s : State) : List (Nat × Nat) :=
  match s.body RT.DRAM_MAP 0 with
  | some b => mapRegions b
  | none => [(0, 64 * 2 ^ 20)]

/-- Every byte of [a, b) lies in one of the regions; `fuel` bounds the regions a range runs through. -/
def covered (l : List (Nat × Nat)) : Nat → Nat → Nat → Bool
  | 0, a, b => decide (b ≤ a)
  | fuel + 1, a, b =>
    decide (b ≤ a) || match l.find? fun r => decide (r.1 ≤ a) && decide (a < r.2) with
      | some r => covered l fuel r.2 b
      | none => false

/-- `n` bytes of DRAM from `a` are installed and host-accessible (R77). -/
def State.hostRange (s : State) (a n : Nat) : Bool := decide (a + n ≤ s.dramSize) && covered s.regions 6 a (a + n)

end Sys2Proof.Machine
end

