-- ==== Sys2Proof/Machine/Blk.lean ====
section
/-!
DEFINITION. Machine/Blk.lean: the block compressor (R319 to R327).
-/
namespace Sys2Proof.Machine

/-! ### Jobs and results (R319, R326, R327) -/

/-- BLK.RESULT holds an unconsumed result. -/
def State.blkReady (s : State) : Bool := s.bit Reg.BLK_RESULT 31

/-- The running job: the oldest held, while the window is empty (R319); descriptor address. -/
def State.blkJob (s : State) : Option Nat := if s.blkReady then none else s.blk.jobs.head?

/-- Replace the held jobs; QUEUE.PENDING shows their number. -/
def State.setJobs (s : State) (l : List Nat) : State :=
  { s with blk := { s.blk with jobs := l } }.setFld Reg.BLK_QUEUE 3 0 l.length

/-- The write of SUBMIT_HI submits the job whose descriptor address the pair holds; beyond 8 it is ignored (R319). -/
def State.blkSubmitWrite (s : State) (hi : Word) : State :=
  let a := (s.staged Reg.BLK_SUBMIT_LO).toNat + wbits hi 5 0 * 2 ^ 32
  if s.blk.jobs.length < 8 then s.setJobs (s.blk.jobs ++ [a]) else s.setBit Reg.BLK_QUEUE 31 true

/-- BLK_SUBMIT (R319): a write of BLK.SUBMIT_HI. -/
def execBlkSubmit (p : Port) (hi : Word) (s : State) : Res :=
  s.hostWrite p Reg.BLK_SUBMIT_HI hi fun t => t.blkSubmitWrite hi

/-- A job's result in the window (R326, R327): flags, vector 55. -/
def State.blkPost (s : State) (e : JobEnd) : State :=
  let seq := s.nextSeqOf Reg.BLK_RESULT
  let s1 := s.setReg Reg.BLK_RESULT (w32 (2 ^ 31 + seq * 2 ^ 16 + e.code * 2 ^ 8 + e.op % 256))
  let s2 := (List.range 4).foldl (fun t k => t.setReg (Reg.BLK_RESULT_DATA k) (e.data.getD k 0)) s1
  let s3 := s2.raise .jobDone
  let s4 := if e.code = 1 then s3.raise .noGain else if e.code = 2 then s3.raise .noSpace else s3
  s4.sendVector 55

/-! ### Descriptors (R320) -/

/-- A job descriptor. -/
structure JobDesc where
  op     : Nat
  format : Nat
  effort : Nat
  tag    : Nat
  src    : Nat
  len    : Nat
  dst    : Nat
  space  : Nat
  /-- the reserved bytes are zero -/
  clean  : Bool
  deriving DecidableEq, Repr

/-- The descriptor at its offsets (R320). -/
def JobDesc.ofBytes (b : List Byte) : JobDesc :=
  { op := leAt b 0 1, format := leAt b 1 1, effort := leAt b 2 1, tag := leAt b 4 4, src := leAt b 8 8, len := leAt b 16 4,
    dst := leAt b 24 8, space := leAt b 32 4,
    clean := leAt b 3 1 == 0 && leAt b 20 4 == 0 && leAt b 36 28 == 0 }

/-- Every field is in its range, and source and destination do not overlap (R320). -/
def JobDesc.ok (d : JobDesc) : Bool :=
  d.clean && decide (d.op ≤ 2) && (if d.op = 0 then decide (d.format ≤ 1) && decide (d.effort ≤ 3)
      else d.format == 0 && d.effort == 0)
    && decide (d.src < 2 ^ 38) && decide (1 ≤ d.len) && decide (d.len ≤ 2 ^ 30)
    && (d.op == 2 || decide (d.dst < 2 ^ 38) && (decide (d.src + d.len ≤ d.dst) || decide (d.dst + d.space ≤ d.src)))

/-- Code that ends a job before it runs: HOST_RANGE, POISON, BAD_DESC, or 0 with its descriptor (R320, R326). -/
def State.jobCheck (s : State) (a : Nat) : Nat × JobDesc :=
  let none' := JobDesc.ofBytes []
  if a % 64 ≠ 0 then (3, none')
  else if !s.hostRange a 64 then (4, none')
  else match s.dramFetch a 64 with
    | none => (9, none')
    | some b =>
      let d := JobDesc.ofBytes b
      if !d.ok then (3, d)
      else if !s.hostRange d.src d.len || (d.op != 2 && !s.hostRange d.dst d.space) then (4, d)
      else (0, d)

/-- The end of a job that failed: no output bytes; the CRC and the time are open. OP and TAG are those of its
descriptor, open where the device could not read one. -/
def State.jobFail (s : State) (a code : Nat) : JobEnd :=
  let b := if a % 64 = 0 ∧ s.hostRange a 64 then s.dramFetch a 64 else none
  match b with
  | some l => { op := leAt l 0 1, code := code, data := [w32 (leAt l 4 4), 0, Config.freeWord s.free, Config.freeWord (s.free + 1)],
                magic := none }
  | none => { op := Config.freeNat (s.free + 2) % 256, code := code,
              data := [Config.freeWord (s.free + 3), 0, Config.freeWord s.free, Config.freeWord (s.free + 1)], magic := none }

/-- The running job has done its work: its end waits for JOB_DONE. -/
def State.endJob (s : State) (e : JobEnd) : State := { s with blk := { s.blk with done := some e } }

/-! ### COMPRESS (R321 to R324) -/

/-- "VXBC". -/
def blkMagic : List Byte := [0x56, 0x58, 0x42, 0x43]

/-- A block record (R322). -/
def blockRecord (stored : Bool) (b : List Byte) : List Byte :=
  leBytes 4 (b.length + (if stored then 2 ^ 31 else 0)) ++ leBytes 4 (Crc.value Crc.crc32c b) ++ b

/-- The container header (R322), MAGIC included. -/
def containerHeader (format tag total : Nat) (orig : List Byte) : List Byte :=
  let h := blkMagic ++ leBytes 1 1 ++ leBytes 1 format ++ leBytes 1 16 ++ leBytes 1 0 ++ leBytes 4 orig.length
    ++ leBytes 4 (cdiv orig.length 65536) ++ leBytes 4 (Crc.value Crc.crc32c orig) ++ leBytes 4 total ++ leBytes 4 tag
  h ++ leBytes 4 (Crc.value Crc.crc32c h)

/-- The coding of a block: free value `k` where it is a conforming stream that expands to the block and is shorter, and
the block itself, STORED, otherwise (R321). -/
def codeBlock (format k : Nat) (b : List Byte) : Bool × List Byte :=
  let c := Config.freeBytes k
  if c.length < b.length ∧ expandBlock format false c = some b then (false, c) else (true, b)

/-- The records of `n` blocks from `a`, or the code that ends the job (R324). `len`: bytes of the original left; `run`:
the running length; `orig`: the original read so far and `recs`: the records written. -/
def State.compressBlocks (s : State) (format origLen limit : Nat) :
    Nat → Nat → Nat → Nat → List Byte → List Byte → Nat × List Byte × List Byte
  | 0, _, _, _, orig, recs => (0, orig, recs)
  | n + 1, a, len, run, orig, recs =>
    match s.dramFetch a (min len 65536) with
    | none => (9, orig, recs)
    | some b =>
      let c := codeBlock format (s.free + n) b
      let run' := run + 8 + c.2.length
      if limit < run' then (if origLen ≤ run' then 1 else 2, orig, recs)
      else s.compressBlocks format origLen limit n (a + 65536) (len - 65536) run' (orig ++ b) (recs ++ blockRecord c.1 c.2)

/-- The reads of a job from `a` (R287, R294): `len` bytes of its source wake their ranks; where the job has met poison
at [b, e), that is reported. -/
def State.jobReads (s : State) (a len b e : Nat) (poison : Bool) : State :=
  let t := s.wakeRange a (a + len)
  if poison then (t.portRead 6 b (e - b)).1 else t

/-- A COMPRESS job with a sound descriptor (R323, R324): bytes 0 to 3 of DST are zero until MAGIC, the last write, which
JOB_DONE makes. After a failure no other byte at DST is defined. -/
def State.compress (s : State) (d : JobDesc) : State :=
  let n := cdiv d.len 65536
  let limit := min d.space (d.len - 1)
  let s1 := s.dramStore d.dst (leBytes (min 4 d.space) 0)
  let (code, orig, recs) := s1.compressBlocks d.format d.len limit n d.src d.len 32 [] []
  let at' := d.src + orig.length
  let s2 := (s1.takeFree (n + 2)).jobReads d.src d.len at' (at' + min (d.len - orig.length) 65536) (code == 9)
  let time := Config.freeWord (s.free + n)
  if code = 0 then
    let total := 32 + recs.length
    let h := containerHeader d.format d.tag total orig
    (s2.dramStore (d.dst + 4) (h.drop 4 ++ recs)).endJob
      { op := 0, code := 0, data := [w32 d.tag, w32 total, w32 (Crc.value Crc.crc32c orig), time], magic := some d.dst }
  else
    ((s2.dramStore (d.dst + 4) (freeFill (s.free + n) (limit - 4))).endJob
      { op := 0, code := code, data := [w32 d.tag, 0, Config.freeWord (s.free + n + 1), time], magic := none })

/-! ### DECOMPRESS and VERIFY (R325) -/

/-- The blocks of a container from its records: `n` blocks, `left` bytes of the original, `a` the address of the next
record and `room` the bytes of the source from there; answers a code, the output and the bytes of the container read.
Each record is read as its turn comes, so that poison behind the first failure is not met (R325, R326). -/
def State.expandRecords (s : State) (format : Nat) :
    Nat → Nat → Nat → Nat → List Byte → Nat → Nat × List Byte × Nat
  | 0, _, _, _, out, used => (0, out, used)
  | n + 1, left, a, room, out, used =>
    if room < 8 then (7, out, used)
    else match s.dramFetch a 8 with
      | none => (9, out, used)
      | some b =>
        let w := leAt b 0 4
        let len := w % 2 ^ 17
        if room < 8 + len ∨ len = 0 ∨ 65536 < len ∨ w / 2 ^ 17 % 2 ^ 14 ≠ 0 then (7, out, used)
        else match s.dramFetch (a + 8) len with
          | none => (9, out, used)
          | some d =>
            if Crc.value Crc.crc32c d ≠ leAt b 4 4 then (6, out, used)
            else
              match if 1 < format ∧ w < 2 ^ 31 then none else expandBlock format (decide (2 ^ 31 ≤ w)) d with
              | none => (7, out, used)
              | some o =>
                if o.length ≠ min left 65536 then (7, out, used)
                else s.expandRecords format n (left - 65536) (a + 8 + len) (room - (8 + len)) (out ++ o) (used + 8 + len)

/-- A DECOMPRESS (`write`) or VERIFY job with a sound descriptor (R325): the header is read and checked, then the
records in turn. Output written before a failure is open. -/
def State.decompress (s : State) (d : JobDesc) (write : Bool) : State :=
  let op := if write then 1 else 2
  let s0 := s.takeFree 3
  let s1 := s0.jobReads d.src d.len 0 0 false
  let fail := fun (t : State) (code : Nat) (crc : Word) =>
    t.endJob { op := op, code := code, data := [w32 d.tag, 0, crc, Config.freeWord (s.free + 1)], magic := none }
  let open' := Config.freeWord s.free
  match s.dramFetch d.src (min 32 d.len) with
  | none => fail (s0.jobReads d.src d.len d.src (d.src + min 32 d.len) true) 9 open'
  | some c =>
    let orig := leAt c 8 4
    if c.length < 32 ∨ slice c 0 4 ≠ blkMagic ∨ leAt c 4 1 ≠ 1 ∨ leAt c 6 1 ≠ 16
        ∨ leAt c 28 4 ≠ Crc.value Crc.crc32c (slice c 0 28) then fail s1 5 open'
    else if write ∧ d.space < orig then fail s1 2 open'
    else
      let spoiled := if write then s1.dramStore d.dst (freeFill (s.free + 2) orig) else s1
      let need := cdiv orig 65536
      let (code, out, used) :=
        s.expandRecords (leAt c 5 1) (min need (leAt c 12 4)) orig (d.src + 32) (d.len - 32) [] 32
      let at' := d.src + used
      let head := (s.dramFetch at' 8).isNone
      if code = 9 then
        fail (spoiled.jobReads at' 8 (if head then at' else at' + 8)
          (if head then at' + 8 else at' + 8 + leAt ((s.dramFetch at' 8).getD []) 0 4 % 2 ^ 17) true) code open'
      else if code ≠ 0 then fail spoiled code open'
      else if leAt c 12 4 ≠ need ∨ leAt c 20 4 ≠ used then fail spoiled 7 open'
      else
        let crc := Crc.value Crc.crc32c out
        if crc ≠ leAt c 16 4 then fail spoiled 8 (w32 crc)
        else (if write then s1.dramStore d.dst out else s1).endJob
          { op := op, code := 0, data := [w32 d.tag, w32 orig, w32 crc, Config.freeWord (s.free + 1)], magic := none }

/-- The running job's work, where its OP is `op` and it has not yet been done. -/
def State.runJob (s : State) (op : Nat) (f : State → JobDesc → State) : State :=
  match s.blkJob with
  | none => s
  | some a =>
    let c := s.jobCheck a
    if s.blk.done.isSome || c.1 != 0 || c.2.op != op then s else f s c.2

/-- COMPRESS (R324): the running job is a COMPRESS job. -/
def execCompress (s : State) : Res := .next (s.runJob 0 State.compress)

/-- DECOMPRESS (R325): the running job is a DECOMPRESS job. -/
def execDecompress (s : State) : Res := .next (s.runJob 1 fun t d => t.decompress d true)

/-- VERIFY (R325): the running job is a VERIFY job. -/
def execVerify (s : State) : Res := .next (s.runJob 2 fun t d => t.decompress d false)

/-- The end of the running job: what it did, or the code that keeps it from running; none while its work is undone. -/
def State.jobEnd (s : State) (a : Nat) : Option JobEnd :=
  match s.blk.done with
  | some e => some e
  | none => if (s.jobCheck a).1 = 0 then none else some (s.jobFail a (s.jobCheck a).1)

/-- The running job leaves: MAGIC is written last (R323), the result is posted. -/
def State.finishJob (s : State) (e : JobEnd) : State :=
  let s1 := match e.magic with
    | some a => s.dramStore a blkMagic
    | none => s
  (({ s1 with blk := { s1.blk with done := none } }.setJobs s1.blk.jobs.tail).takeFree 4).blkPost e

/-- The read of the descriptor at `a` that keeps its job from running (R294, R326). -/
def State.descRead (s : State) (a : Nat) : State :=
  if s.blk.done.isNone && decide (a % 64 = 0) && s.hostRange a 64 then (s.portRead 6 a 64).1 else s

/-- JOB_DONE (R326): the running job ends with its code. -/
def execJobDone (s : State) : Res :=
  match s.blkJob with
  | none => .next s
  | some a => match s.jobEnd a with
    | some e => .next ((s.descRead a).finishJob e)
    | none => .next s

/-- ABORT (R327): the running job ends with ABORTED and no valid container, the queued jobs are discarded. -/
def State.blkAbort (s : State) : State :=
  match s.blkJob with
  | none => (s.addSat Reg.BLK_QUEUE 15 8 s.blk.jobs.length).setJobs []
  | some a =>
    let c := s.jobCheck a
    let s1 := if c.1 = 0 ∧ c.2.op = 0 then s.dramStore c.2.dst (leBytes (min 4 c.2.space) 0) else s
    let e := s.jobFail a 10
    let e' : JobEnd := match s.blk.done with
      | some d => { e with op := d.op, data := d.data.take 1 ++ e.data.drop 1 }
      | none => e
    ((s1.addSat Reg.BLK_QUEUE 15 8 (s1.blk.jobs.length - 1)).setJobs (s1.blk.jobs.take 1)).finishJob e'

/-- BLK_ABORT (R327): a write of BLK.CTRL with ABORT. -/
def execBlkAbort (p : Port) (s : State) : Res :=
  s.hostWrite p Reg.BLK_CTRL 0x8000_0000 fun t => t.blkAbort

/-- BLK_RESULT_ACK (R94): a write of BLK.RESULT_ACK. -/
def execBlkResultAck (p : Port) (v : Word) (s : State) : Res :=
  s.hostWrite p Reg.BLK_RESULT_ACK v fun t => t.ackWindow Reg.BLK_RESULT v

/-- BLK.ACTIVE as the host reads it: TAG of the running job, 0 none. -/
def State.blkActive (s : State) : Word :=
  match s.blk.done, s.blkJob with
  | some e, _ => e.data.getD 0 0
  | none, some a => w32 (s.jobCheck a).2.tag
  | none, none => 0

end Sys2Proof.Machine
end

