-- ==== Sys2Proof/Machine/Bus.lean ====
section
/-!
DEFINITION. Machine/Bus.lean: bus errors (R103 to R105) and the DMA windows of the MPU (R104).
-/
namespace Sys2Proof.Machine

/-- Number of the DRAM bytes that are installed and in service as MEM.SPACE gives them, in 4 KiB pages (R276). -/
abbrev pageBytes : Nat := 4096

/-- A bus error of KIND 0 default target, 1 width, 2 burst, 3 MPU (R105): its flag sets, and the first one since
ERR_INFO.VALID was cleared is recorded. `dram`: SPACE. -/
def State.busError (s : State) (kind master qos : Nat) (write dram : Bool) (addr window : Nat) : State :=
  let flag := match kind with
    | 0 => Flag.busDefault
    | 1 => Flag.busWidth
    | 2 => Flag.busBurst
    | _ => Flag.mpuViolation
  let s1 := if s.bit Reg.BMX_ERR_INFO 31 then s
    else (s.setReg Reg.BMX_ERR_ADDR (w32 addr)).setReg Reg.BMX_ERR_INFO
      (w32 (2 ^ 31 + master % 16 * 2 ^ 24 + qos % 16 * 2 ^ 20 + kind % 16 * 2 ^ 16 + (if write then 2 ^ 15 else 0)
        + (if dram then 2 ^ 14 + addr / 2 ^ 32 % 64 * 2 ^ 8 else 0) + window % 256))
  s1.raise flag

/-- QoS of a bus master (R99). -/
def State.qosOf (s : State) (m : Nat) : Nat := s.fld (Reg.BMX_QOS m) 3 0

/-- `n` bytes from `a` lie inside DMA window `w` for the given direction (R104). -/
def State.dmaWindowOk (s : State) (w : Nat) (write : Bool) (a n : Nat) : Bool :=
  let base := s.reg (Reg.BMX_MPU_BASE w)
  let limit := s.fld (Reg.BMX_MPU_LIMIT w) 25 0
  (if write then wbit base 30 else wbit base 31) && decide (1 ≤ n)
    && decide (wbits base 25 0 * pageBytes ≤ a) && decide (a + n ≤ (limit + 1) * pageBytes)

end Sys2Proof.Machine
end

