-- ==== Sys2Proof/Machine/Line.lean ====
section
/-!
DEFINITION. Machine/Line.lean: the 8b/10b line code of J-Link with its running disparity (R180), and the comma that gives
a receiver the symbol boundary (R183). The spec names the code "as widely published" and prints no table: the code groups
are the published ones (assumption 54, PRESUMED). A sub-block is a number whose most significant bit is sent first; a
running disparity is true when positive.
-/
namespace Sys2Proof.Machine

/-- 6-bit sub-block of D.x for negative running disparity. -/
def code6Table : List Nat :=
  [0b100111, 0b011101, 0b101101, 0b110001, 0b110101, 0b101001, 0b011001, 0b111000,
   0b111001, 0b100101, 0b010101, 0b110100, 0b001101, 0b101100, 0b011100, 0b010111,
   0b011011, 0b100011, 0b010011, 0b110010, 0b001011, 0b101010, 0b011010, 0b111010,
   0b110011, 0b100110, 0b010110, 0b110110, 0b001110, 0b101110, 0b011110, 0b101011]

/-- 4-bit sub-block of D.x.y for negative running disparity; y = 7 is the primary form. -/
def code4Table : List Nat := [0b1011, 0b1001, 0b0101, 0b1100, 0b1101, 0b1010, 0b0110, 0b1110]

/-- 4-bit sub-block of K.x.y for negative running disparity. -/
def code4KTable : List Nat := [0b1011, 0b0110, 0b1010, 0b1100, 0b1101, 0b0101, 0b1001, 0b0111]

/-- Ones among the low `n` bits of `v`. -/
def onesOf (n v : Nat) : Nat := ((List.range n).filter fun i => v.testBit i).length

/-- Running disparity after a sub-block of `n` bits: the sign of its own disparity; a balanced one keeps it, but for the
two whose halves are unbalanced (000111 and 0011 leave it positive, 111000 and 1100 negative). -/
def rdAfter (n : Nat) (rd : Bool) (v : Nat) : Bool :=
  let k := 2 * onesOf n v
  if n < k then true
  else if k < n then false
  else if v = (if n = 6 then 0b000111 else 0b0011) then true
  else if v = (if n = 6 then 0b111000 else 0b1100) then false
  else rd

/-- The form of a sub-block for running disparity `rd`: an unbalanced one, or one of the two with unbalanced halves, is
complemented for positive disparity. -/
def codeForm (n : Nat) (rd : Bool) (v : Nat) : Nat :=
  if rd && (2 * onesOf n v != n || v == 0b111000 || v == 0b1100 && n == 4) then 2 ^ n - 1 - v else v

/-- The alternate form of D.x.7, which keeps five equal bits from forming (0111 and 1000). -/
def codeAlternate (rd : Bool) (x : Nat) : Bool := if rd then [11, 13, 14].contains x else [17, 18, 20].contains x

/-- A data byte as code group (6-bit, 4-bit sub-block) from running disparity `rd`. -/
def codeData (rd : Bool) (b : Nat) : Nat × Nat :=
  let x := b % 32
  let y := b / 32 % 8
  let six := codeForm 6 rd (code6Table.getD x 0)
  let rd1 := rdAfter 6 rd six
  (six, if y = 7 ∧ codeAlternate rd1 x then (if rd1 then 0b1000 else 0b0111) else codeForm 4 rd1 (code4Table.getD y 0))

/-- K.x.y as code group from running disparity `rd`: K.28 has its own 6-bit sub-block, the others that of D.x; every
4-bit sub-block of a K symbol is complemented for positive disparity. -/
def codeControl (rd : Bool) (x y : Nat) : Nat × Nat :=
  let six := if x = 28 then (if rd then 0b110000 else 0b001111) else codeForm 6 rd (code6Table.getD x 0)
  let four := code4KTable.getD y 0
  (six, if rdAfter 6 rd six then 15 - four else four)

/-- The code group of a symbol; `err` stands for none. -/
def symGroup (rd : Bool) : Sym → Option (Nat × Nat)
  | .data b => some (codeData rd b.toNat)
  | .k285 => some (codeControl rd 28 5)
  | .k281 => some (codeControl rd 28 1)
  | .k280 => some (codeControl rd 28 0)
  | .sop => some (codeControl rd 27 7)
  | .eop => some (codeControl rd 29 7)
  | .abort => some (codeControl rd 30 7)
  | .fill => some (codeControl rd 23 7)
  | .err => none

/-- Running disparity after a code group. -/
def rdGroup (rd : Bool) (g : Nat × Nat) : Bool := rdAfter 4 (rdAfter 6 rd g.1) g.2

/-- The K symbols with a meaning on the link (R180). -/
def linkControls : List Sym := [.k285, .k281, .k280, .sop, .eop, .abort, .fill]

/-- The symbol that a received code group spells at running disparity `rd` (R180): a data byte, one of the link's
seven K symbols, or a symbol error (another K symbol, a code violation, a disparity error). -/
def symOf (rd : Bool) (g : Nat × Nat) : Sym :=
  let bytes := (List.range 32).filterMap fun x =>
    if codeForm 6 rd (code6Table.getD x 0) = g.1 then
      ((List.range 8).find? fun y => codeData rd (y * 32 + x) == g).map fun y => y * 32 + x
    else none
  match bytes with
  | b :: _ => .data (BitVec.ofNat 8 b)
  | [] => match linkControls.find? fun c => symGroup rd c == some g with
    | some c => c
    | none => .err

/-- A code group as one number, its first bit most significant. -/
def groupBits (g : Nat × Nat) : Nat := g.1 * 16 + g.2

/-- Symbols as the code groups a lane sends, from running disparity `rd`, with the disparity after them. -/
def encodeLine (rd : Bool) : List Sym → List Nat × Bool
  | [] => ([], rd)
  | x :: rest =>
    match symGroup rd x with
    | some g => let r := encodeLine (rdGroup rd g) rest; (groupBits g :: r.1, r.2)
    | none => encodeLine rd rest

/-- The ten bits of a code group in the order they are sent. -/
def lineBits (g : Nat) : List Bool := (List.range 10).map fun i => g.testBit (9 - i)

/-- A number from bits given newest first, the oldest bit most significant. -/
def bitsValue (bits : List Bool) : Nat := (bits.zipIdx.filter fun e => e.1).foldl (fun a e => a + 2 ^ e.2) 0

/-- One received bit. A lane in HUNT takes its boundary from the comma 0011111 or 1100000, the first seven bits of
K28.5 and K28.1 (R183); ten bits make a symbol. Answers the symbol completed, and whether the boundary moved. -/
def Deser.take (d : Deser) (hunt : Bool) (b : Bool) : Deser × Option Sym × Bool :=
  let bits := (b :: d.bits).take 10
  let seven := bitsValue (bits.take 7)
  let comma := hunt && decide (7 ≤ bits.length) && (seven == 0b0011111 || seven == 0b1100000)
  if comma && (!d.sync || d.cnt != 6) then ({ sync := true, bits := bits, cnt := 7, rd := seven == 0b1100000 }, none, true)
  else if !d.sync then ({ d with bits := bits }, none, false)
  else if d.cnt + 1 < 10 then ({ d with bits := bits, cnt := d.cnt + 1 }, none, false)
  else
    let v := bitsValue bits
    let g := (v / 16, v % 16)
    ({ d with bits := bits, cnt := 0, rd := rdGroup d.rd g }, some (symOf d.rd g), false)

end Sys2Proof.Machine
end

