-- ==== Sys2Proof/Machine/Shadow.lean ====
section
/-!
DEFINITION. Machine/Shadow.lean: shadowed state (R143 to R146): which clock a shadowed field waits for, staging an
accepted direct write, and what a host reads of it.
-/
namespace Sys2Proof.Machine

/-- The encoder cores. -/
abbrev encoders : List Nat := [0, 1, 2, 3]

/-- Source stream of encoder `e`. -/
def State.encStream (s : State) (e : Nat) : Nat := s.fld (Reg.ENC_CFG e) 11 0

/-- The source clock of encoder `e` (R453): its node's clock for a SURFACE stream, FCLK0 for any other kind. -/
def State.encClock (s : State) (e : Nat) : Nat :=
  match recBody s.ld.recs RT.STREAM (s.encStream e) with
  | some b => if leAt b 0 1 = 2 then match surfaceNode s.ld.recs (s.encStream e) with
      | some n => s.nodeClock n
      | none => 0
    else 0
  | none => 0

/-- The frame clock at whose commit point the shadowed register or table word at `off` reaches hardware (R143). -/
def State.shadowClock (s : State) (off : Nat) : Nat :=
  if 0x24_0000 ≤ off ∧ off < 0x28_0000 then s.nodeClock ((off - 0x24_0000) / 1024)
  else if Reg.CMP_NODE_CTRL 0 ≤ off ∧ off < Reg.CMP_NODE_CTRL 256 then s.nodeClock ((off - Reg.CMP_NODE_CTRL 0) / 4)
  else if Reg.OUT_CTRL 0 ≤ off ∧ off < Reg.OUT_CTRL 24 then s.outClock ((off - Reg.OUT_CTRL 0) / 0x20)
  else match encoders.find? fun e => Reg.ENC_RC e == off with
    | some e => s.encClock e
    | none => 0

/-- The object whose removal discards a pending write to `off` (R49): a layer, a node or a stream, as record type and
ID; (0, 0) for none. -/
def shadowObject (off : Nat) : Nat × Nat :=
  if 0x24_0000 ≤ off ∧ off < 0x28_0000 then (RT.LAYER, (off - 0x24_0000) / 64)
  else if 0x20_0000 ≤ off ∧ off < 0x24_0000 then (RT.STREAM, (off - 0x20_0000) / 64)
  else if Reg.CMP_NODE_CTRL 0 ≤ off ∧ off < Reg.CMP_NODE_CTRL 256 then (RT.NODE, (off - Reg.CMP_NODE_CTRL 0) / 4)
  else (0, 0)

/-- The mirror epoch an accepted change rides: the one the active is filling (R146). -/
def State.ridden (s : State) : Option Nat := if s.active then some s.twin.filling else none

/-- Hold a change until its commit point (R144, R145). -/
def State.holdChange (s : State) (origin : Origin) (clock : Nat) (defer : Option Nat) (object : Nat × Nat) (c : Change) :
    State :=
  { s with cmd := { s.cmd with
      held := s.cmd.held ++ [{ seq := s.cmd.nextSeq, origin := origin, clock := clock, defer := defer, object := object,
                               epoch := s.ridden, change := c }]
      nextSeq := s.cmd.nextSeq + 1 } }

/-- Stage a direct write of the masked shadowed bits at `off` (R145). -/
def State.stage (s : State) (off : Nat) (mask v : Word) : State :=
  if mask = 0 then s
  else s.holdChange .direct (s.shadowClock off) none (shadowObject off) (.words [(off, mask, v)])

/-- The change comes from a register or table write, direct or by REG_WRITE or TABLE_WRITE, and not from a layer or
stream command (R7, R332, R426). -/
def Origin.isWrite : Origin → Bool
  | .direct => true
  | .queue _ _ op _ _ _ => op == 0x0B || op == 0x0C
  | .internal _ op => op == 0x0B || op == 0x0C

/-- The words of a held change that a read of `off` shows: those of writes, whoever made them (R7). -/
def Held.overlay (h : Held) (off : Nat) (old : Word) : Word :=
  match h.change with
  | .words l => if h.origin.isWrite then l.foldl (fun w e => if e.1 = off then merge w e.2.1 e.2.2 else w) old else old
  | _ => old

/-- The shadow value of the register at `off`: its value in force with the pending writes over it. -/
def State.shadow (s : State) (off : Nat) : Word := s.cmd.held.foldl (fun w h => h.overlay off w) (s.reg off)

end Sys2Proof.Machine
end

