-- ==== Sys2Proof/Machine/Chk.lean ====
section
/-!
DEFINITION. Machine/Chk.lean: the 64 check-value channels (R411 to R418, R421).
-/
namespace Sys2Proof.Machine

/-- Channel `c`. -/
def State.chan (s : State) (c : Nat) : Channel := Cells.get (fun _ => {}) s.chk c

/-- Replace channel `c`. -/
def State.setChan (s : State) (c : Nat) (x : Channel) : State := { s with chk := Cells.put (fun _ => {}) s.chk c x }

/-- KIND in force of channel `c`; 3 acts as 0 (CHK.CTRL). -/
def State.chanKind (s : State) (c : Nat) : Nat := s.fld (Reg.CHK_CTRL c) 29 28 % 3

/-- TARGET in force. -/
def State.chanTarget (s : State) (c : Nat) : Nat := s.fld (Reg.CHK_CTRL c) 11 0

/-- The custom parameters of a channel (CHK.PARAM): WIDTH 0 to 7 acts as 8, 65 to 127 as 64. -/
def Channel.custom (x : Channel) : CrcParams :=
  let w := max 8 (min 64 (wbits x.param 6 0))
  { w := w, poly := x.poly.toNat % 2 ^ w, init := x.init.toNat % 2 ^ w, refin := wbit x.param 8, refout := wbit x.param 9,
    xorout := wbit x.param 10 }

/-- The parameters of channel `c` (R410, CHK.CTRL.PRESET). -/
def State.chanParams (s : State) (c : Nat) : CrcParams := Crc.preset (s.chan c).custom (s.fld (Reg.CHK_CTRL c) 27 24)

/-- The parameters of the computation of channel `c`: those it started with (R417). -/
def State.chanRun (s : State) (c : Nat) : CrcParams := (s.chan c).par.getD (s.chanParams c)

/-- A computation of channel `c` starts: the register is INIT (R409, R413). -/
def State.chanStart (s : State) (c st : Nat) : State :=
  let p := s.chanParams c
  s.setChan c { s.chan c with reg := Crc.start p, par := some p, state := st }

/-- PARAM, POLY and INIT: the X registers of the channel that CHK.SEL names (R418). -/
def chkWindow (off : Nat) : Bool :=
  [Reg.CHK_PARAM, Reg.CHK_POLY_LO, Reg.CHK_POLY_HI, Reg.CHK_INIT_LO, Reg.CHK_INIT_HI].contains off

/-- The channel that CHK.SEL names. -/
def State.chkSel (s : State) : Nat := s.fld Reg.CHK_SEL 5 0

/-- SEL is local (R418): before a mirrored write of a channel's PARAM, POLY or INIT the active names the channel, in a
WRITE item of CHK.SEL (DESIGN CHOICE, assumption 79). -/
def State.mirrorChan (s : State) (off : Nat) : State :=
  if chkWindow off then s.mirror (.write Reg.CHK_SEL 0x3F (w32 s.chkSel)) else s

/-- Mirrored writes act on the channel that the active named; SEL of this device stays (R418). -/
def State.onMirrorChan (s : State) (f : State → State) : State :=
  (f (s.setFld Reg.CHK_SEL 5 0 s.twin.mirrorSel)).setReg Reg.CHK_SEL (s.reg Reg.CHK_SEL)

/-- A finish with result `r` (R416): result, ALIVE and the compare, in one cycle. -/
def State.chkResult (s : State) (c r : Nat) : State :=
  let p := s.chanRun c
  let s1 := s.setPair (Reg.CHK_RESULT_LO c) (BitVec.ofNat 64 r)
  let x := s1.chan c
  let y := { x with alive := (x.alive + 1) % 65536 }
  if s1.bit (Reg.CHK_CTRL c) 23 then
    if r = y.exp.toNat % 2 ^ p.w then s1.setChan c { y with mismatch := false }
    else (s1.setChan c { y with mismatch := true, fails := satN 8 (y.fails + 1) }).raise .compareFail
  else s1.setChan c y

/-- START on a HOST channel: the register is INIT, the channel RUNNING (R413). -/
def State.chkStart (s : State) (c : Nat) : State :=
  if s.chanKind c = 0 then s.chanStart c 1 else s

/-- FINISH on a HOST channel (R413): the result of the register as it stands; the channel is IDLE. -/
def State.chkFinish (s : State) (c : Nat) : State :=
  if s.chanKind c = 0 then
    let r := Crc.finish (s.chanRun c) ((s.chan c).reg % 2 ^ (s.chanRun c).w)
    (s.setChan c { s.chan c with state := 0 }).chkResult c r
  else s

/-- A write to CHK.DATA (R413). -/
def State.chkData (s : State) (v : Word) : State :=
  let c := s.chkSel
  let tail := s.fld Reg.CHK_SEL 9 8
  let n := if tail = 0 then 4 else tail
  let s1 := s.setFld Reg.CHK_SEL 9 8 0
  let x := s1.chan c
  if s1.chanKind c = 0 ∧ x.state = 1 then
    s1.setChan c { x with reg := Crc.feed (s1.chanRun c) x.reg ((leBytes 4 v.toNat).take n) }
  else s1.setChan c { x with ignored := true }

/-- A CTX write completed by its _HI write (R414). -/
def State.chkContext (s : State) (v : DWord) : State :=
  let c := s.chkSel
  let x := s.chan c
  if s.chanKind c = 0 then s.setChan c { x with reg := v.toNat % 2 ^ (s.chanParams c).w, par := some (s.chanParams c), state := 1 }
  else s.setChan c { x with ignored := true }

/-- The first byte of a frame of stream `i` reaches its STREAM channels (R415). -/
def State.chkStreamStart (s : State) (i : Nat) : State :=
  (List.range 64).foldl (fun t c =>
    if t.chanKind c = 1 ∧ t.chanTarget c = i then t.chanStart c 2 else t) s

/-- A frame of stream `i` ends without a flip: the computation is dropped (R415). -/
def State.chkStreamDrop (s : State) (i : Nat) : State :=
  (List.range 64).foldl (fun t c =>
    if t.chanKind c = 1 ∧ t.chanTarget c = i ∧ (t.chan c).state = 2 then t.setChan c { t.chan c with state := 3 } else t) s

/-- A frame of stream `i` with these bytes flips: its STREAM channels finish (R415). -/
def State.chkStreamFlip (s : State) (i : Nat) (bytes : List Byte) : State :=
  (List.range 64).foldl (fun t c =>
    if t.chanKind c = 1 ∧ t.chanTarget c = i ∧ (t.chan c).state = 2 then
      let r := Crc.feed (t.chanRun c) (Crc.start (t.chanRun c)) bytes
      (t.setChan c { t.chan c with state := 3, reg := r }).chkResult c (Crc.finish (t.chanRun c) r)
    else t) s

/-- Active line 0 of a frame of output `n` begins: its OUTPUT channels start (R411, R415). -/
def State.chkOutputStart (s : State) (n : Nat) : State :=
  (List.range 64).foldl (fun t c =>
    if t.chanKind c = 2 ∧ t.chanTarget c = n then t.chanStart c 2 else t) s

/-- A line of output `n` leaves with these bytes. -/
def State.chkOutputLine (s : State) (n : Nat) (bytes : List Byte) : State :=
  (List.range 64).foldl (fun t c =>
    if t.chanKind c = 2 ∧ t.chanTarget c = n ∧ (t.chan c).state = 2 then
      t.setChan c { t.chan c with reg := Crc.feed (t.chanRun c) (t.chan c).reg bytes }
    else t) s

/-- The last active line of output `n` has left: its OUTPUT channels finish (R415). -/
def State.chkOutputEnd (s : State) (n : Nat) : State :=
  (List.range 64).foldl (fun t c =>
    if t.chanKind c = 2 ∧ t.chanTarget c = n ∧ (t.chan c).state = 2 then
      (t.setChan c { t.chan c with state := 3 }).chkResult c (Crc.finish (t.chanRun c) (t.chan c).reg)
    else t) s

/-- The binding of channel `c` changed at an FCLK0 commit point (R417): a frame computation in progress is dropped. -/
def State.chkRebind (s : State) (c : Nat) : State :=
  s.setChan c { s.chan c with state := if s.chanKind c = 0 then (if (s.chan c).state = 1 then 1 else 0) else 3 }

/-- CHK.STATUS of the selected channel. -/
def State.chkStatus (s : State) : Word :=
  let x := s.chan s.chkSel
  w32 (x.alive * 2 ^ 16 + x.state * 2 ^ 14 + (if x.mismatch then 2 ^ 13 else 0) + (if x.ignored then 2 ^ 12 else 0) + x.fails)

/-- Channel `c` as a structure start sets it from its CHECK_ASSIGN record, or without one (R412). -/
def State.chkLoad (s : State) (c : Nat) (b : Option (List Byte)) : State :=
  let keep := s.chan c
  match b with
  | some b =>
    let kind := leAt b 0 1
    let s1 := s.setReg (Reg.CHK_CTRL c) (w32 (kind % 4 * 2 ^ 28 + leAt b 1 1 % 16 * 2 ^ 24
      + (leAt b 2 1 % 2) * 2 ^ 23 + leAt b 4 2 % 4096))
    s1.setChan c { keep with state := if kind = 0 then 0 else 3, exp := BitVec.ofNat 64 (leAt b 8 8) }
  | none => (s.setReg (Reg.CHK_CTRL c) 0).setChan c { keep with state := 0, exp := 0 }

/-- The X fields of CHK.CTRL: KIND, PRESET, COMPARE, TARGET. -/
abbrev chkCtrlX : Word := 0x3F80_0FFF

/-- A write of CHK.CTRL[c] (R421): START and FINISH act at once, in this order (DESIGN CHOICE, assumption 15); with X
access the other fields are staged, which is one X write, mirrored to a standby. -/
def State.chkCtrlWrite (s : State) (c : Nat) (x : Bool) (mask v : Word) : State :=
  let w := v &&& mask
  let s1 := if wbit w 31 then s.chkStart c else s
  let s2 := if wbit w 30 then s1.chkFinish c else s1
  if x && decide (mask &&& chkCtrlX ≠ 0) then
    ((s2.mirror (.write (Reg.CHK_CTRL c) (mask &&& chkCtrlX) v)).stage (Reg.CHK_CTRL c) (mask &&& chkCtrlX) v).countX
  else s2

/-- A write of CHK.CTRL[c] through a host port, START and FINISH as given and the other fields as they read. On a
standby the X fields are mirrored state, so only START and FINISH act and the write counts as ignored (R495). -/
def State.chkHostCtrl (s : State) (p : Port) (c : Nat) (bits : Word) : Res :=
  if s.access p && decide (c < 64) then
    let v := s.shadow (Reg.CHK_CTRL c) ||| bits
    if s.standby && s.xOpen then
      .next ((s.addSat Reg.TWN_STATUS 15 0 1).chkCtrlWrite c false (BitVec.allOnes 32) v)
    else .next (s.chkCtrlWrite c s.xOpen (BitVec.allOnes 32) v)
  else .next s

/-- CHK_START (R413). -/
def execChkStart (p : Port) (c : Nat) (s : State) : Res := s.chkHostCtrl p c 0x8000_0000

/-- CHK_FINISH (R416). -/
def execChkFinish (p : Port) (c : Nat) (s : State) : Res := s.chkHostCtrl p c 0x4000_0000

/-- CHK_DATA (R413). -/
def execChkData (p : Port) (v : Word) (s : State) : Res := if s.access p then .next (s.chkData v) else .next s

/-- CHK_CTX_WRITE: CTX_LO and CTX_HI written in this order, the _HI write completing the pair (R88, R414). -/
def execChkCtxWrite (p : Port) (lo hi : Word) (s : State) : Res :=
  if s.access p then .next ((s.stagePair Reg.CHK_CTX_LO lo).chkContext (hi ++ lo)) else .next s

end Sys2Proof.Machine
end

