-- ==== Sys2Proof/Machine/Packet.lean ====
section
/-!
DEFINITION. Machine/Packet.lean: J-Link packets as bytes (R190 to R194): building and sending one, and classifying one
that has arrived.
-/
namespace Sys2Proof.Machine

/-- The 8-byte packet header (R190). -/
def packetHeader (type chan len flags seq : Nat) : List Byte :=
  leBytes 1 type ++ leBytes 1 chan ++ leBytes 2 len ++ leBytes 2 flags ++ leBytes 2 seq

/-- The guard byte of four CRC bytes (R192). -/
def guardByte (crc : List Byte) : Byte := crc.foldl (· ^^^ ·) 0x5A

/-- A whole packet between SOP and EOP: header, payload, CRC least significant byte first, guard (R189, R192). -/
def packetBytes (type chan flags seq : Nat) (payload : List Byte) : List Byte :=
  let body := packetHeader type chan payload.length flags seq ++ payload
  let crc := leBytes 4 (Crc.value Crc.crc32c body)
  body ++ crc ++ [guardByte crc]

/-- SEQ of the next packet a port starts. -/
def State.nextTx (s : State) (port : Nat) : Nat := Cells.get (fun _ => 0) s.txSeq port

/-- JLX index of a cascade or twin port (R176): CAS_E, CAS_W, CAS_EX, CAS_WX, TWN0, TWN1. -/
def jlxIndex (port : Nat) : Option Nat :=
  if 112 ≤ port ∧ port ≤ 115 then some (port - 112)
  else if 120 ≤ port ∧ port ≤ 121 then some (port - 116)
  else none

/-- The transmit lanes of a port are out of electrical idle (R186). -/
def State.txOn (s : State) (port : Nat) : Bool :=
  match jlxIndex port with
  | some i => s.bit (Reg.JLX_PORT_CTRL i) 31 && !s.bit (Reg.JLX_PORT_CTRL i) 30
  | none => decide (64 ≤ port) && decide (port < 88) && s.bit (Reg.JLO_PORT_CTRL (port - 64)) 31

/-- The transmitter of a port. -/
def State.txOf (s : State) (port : Nat) : Tx := Cells.get (fun _ => {}) s.tx port

/-- Replace the transmitter of a port. -/
def State.setTx (s : State) (port : Nat) (x : Tx) : State := { s with tx := Cells.put (fun _ => {}) s.tx port x }

/-- The symbols of a packet (R189): SOP, its bytes, EOP. -/
def packetSyms (bytes : List Byte) : List Sym := .sop :: bytes.map Sym.data ++ [.eop]

/-- Send one packet on a port: its symbols wait for the port's data blocks (R182); SEQ advances by 1 mod 2^16 (R194),
PKT_TX of a JLX port counts it. -/
def State.sendPacket (s : State) (port type chan flags : Nat) (payload : List Byte) : State :=
  if !s.txOn port then s
  else
    let seq := s.nextTx port
    let s1 := match jlxIndex port with
      | some i => s.incWrap (Reg.JLX_PKT_TX i) 31 0
      | none => s
    let bytes := packetBytes type chan flags seq payload
    let x := s1.txOf port
    ({ s1 with txSeq := Cells.put (fun _ => 0) s1.txSeq port ((seq + 1) % 65536) }.setTx port
      { x with queue := x.queue ++ packetSyms bytes }).emit (.packet port bytes)

/-- A packet as received: its header fields, its payload, and how its check fields compare (R190, R193). -/
structure RxPacket where
  type : Nat
  chan : Nat
  len  : Nat
  flags : Nat
  seq  : Nat
  payload : List Byte
  crcOk : Bool
  guardOk : Bool
  deriving DecidableEq, Repr

/-- A received packet read from its bytes (R189, R190, R192): header, LENGTH payload bytes, CRC, guard. -/
def RxPacket.ofBytes (b : List Byte) : RxPacket :=
  let len := leAt b 2 2
  let crc := slice b (8 + len) 4
  { type := leAt b 0 1, chan := leAt b 1 1, len := len, flags := leAt b 4 2, seq := leAt b 6 2, payload := slice b 8 len,
    crcOk := leNat crc == Crc.value Crc.crc32c (b.take (8 + len)) && b.length == 13 + len,
    guardOk := slice b (12 + len) 1 == [guardByte crc] }

end Sys2Proof.Machine
end

