-- ==== Sys2Proof/Machine/Ring.lean ====
section
/-!
DEFINITION. Machine/Ring.lean: the ring as a device of it sees it: its record, its neighbours, its ports and the way to a
member (R522, R523, R525, R526, R534).
-/
namespace Sys2Proof.Machine

/-- The CASCADE record in force (R523), or that of a structure that waits for CASCADE_TIME before it starts (R175). -/
def State.ringRec (s : State) : Option (List Byte) :=
  match s.body RT.CASCADE 0, s.ld.next with
  | some b, _ => some b
  | none, some n => if n.phase = .cascadeWait then recBody n.recs RT.CASCADE 0 else none
  | none, none => none

/-- The device belongs to a ring. -/
def State.inRing (s : State) : Bool := s.ringRec.isSome

/-- MEMBERS, 0 outside a ring. -/
def State.members (s : State) : Nat :=
  match s.ringRec with
  | some b => leAt b 0 1
  | none => 0

/-- Member `m` is a twin pair (PAIRS). -/
def State.ringPair (s : State) (m : Nat) : Bool :=
  match s.ringRec with
  | some b => (leAt b 1 1).testBit m
  | none => false

/-- The SIDE of this device in the ring; a member of one device is SIDE A (R522). -/
def State.ringSide (s : State) : Nat := if s.ringPair s.cascadeId then s.sideStrap else 0

/-- Member and SIDE that R522 expects at cascade port `i`: 0 E, 1 W, 2 EX, 3 WX. -/
def State.neighbour (s : State) (i : Nat) : Nat × Nat :=
  let n := max s.members 1
  let k := s.cascadeId
  ((if i % 2 = 0 then (k + 1) % n else (k + n - 1) % n), if i < 2 then s.ringSide else 1 - s.ringSide)

/-- Cascade port `i` is up (R525): LINK.UP. -/
def State.casUp (s : State) (i : Nat) : Bool := s.bit (Reg.CAS_LINK i) 31

/-- Both ports of a direction, same side first: 0 east, 1 west. -/
def dirPorts (d : Nat) : List Nat := [112 + d, 114 + d]

/-- A port of a direction is up. -/
def State.dirUp (s : State) (d : Nat) : Bool := s.casUp d || s.casUp (d + 2)

/-- CT_PERIOD in µs and CT_MISS as they act. -/
def State.ctPeriod (s : State) : Nat := max 100 (s.fld Reg.CAS_CFG 31 22)
def State.ctMiss (s : State) : Nat := max 4 (s.fld Reg.CAS_CFG 21 16)

/-- An uptime no more than CT_MISS periods ago. -/
def State.casRecent (s : State) (up : Nat) : Bool := decide (s.uptime - up ≤ s.ctMiss * s.ctPeriod * (cyclesPerMs / 1000))

/-- Packets of member `m` come in from direction `d` (R525): the way to it there is whole. -/
def State.heardFrom (s : State) (m d : Nat) : Bool :=
  s.cas.devs.any fun e => e.1 / 2 == m && match if d = 0 then e.2.east else e.2.west with
    | some up => s.casRecent up
    | none => false

/-- Eastward is the shorter way to member `m`, or no longer (R526, R534). -/
def State.eastFirst (s : State) (m : Nat) : Bool :=
  let n := max s.members 1
  let d := (m + n - s.cascadeId) % n
  let d := if d = 0 then n else d
  decide (2 * d ≤ n) || d == n

/-- The direction toward member `m` (R526, R534): the shorter way, or the other while the shorter is broken: no port of it
is up and one of the other is, or the member's packets come in the other way alone. -/
def State.dirTo (s : State) (m : Nat) : Nat :=
  let short := if s.eastFirst m then 0 else 1
  let broken := !s.dirUp short || (!s.heardFrom m short && s.heardFrom m (1 - short))
  if broken && s.dirUp (1 - short) then 1 - short else short

end Sys2Proof.Machine
end

