-- ==== Sys2Proof/Machine/Stream.lean ====
section
/-!
DEFINITION. Machine/Stream.lean: streams, their surfaces and Vigil's view of them: buffers (R22), flips with the alive
and capture-time tests (R427 to R431), states (R432 to R434), ticks, epochs (R440), surface statistics (R318), damage
(R315).
-/
namespace Sys2Proof.Machine

/-! ### States (R432 to R434) -/

/-- STATE encoding of R195. -/
def Fresh.code : Fresh → Nat
  | .live => 0 | .late => 1 | .stale => 2 | .frozen => 3 | .failed => 4 | .unknown => 5

/-- A state from its code; codes above 5 are read as UNKNOWN. -/
def Fresh.ofCode (n : Nat) : Fresh :=
  match n with
  | 0 => .live | 1 => .late | 2 => .stale | 3 => .frozen | 4 => .failed | _ => .unknown

/-- Rank of R434. -/
def Fresh.rank : Fresh → Nat
  | .live => 0 | .late => 1 | .stale => 2 | .frozen => 3 | .unknown => 4 | .failed => 5

/-- The worse of two states with their sub-causes; of equal states the first is kept (R434). -/
def worse (a b : Fresh × Nat) : Fresh × Nat := if a.1.rank < b.1.rank then b else a

/-- Stream `i`. -/
def State.stream (s : State) (i : Nat) : StreamSt := Cells.get (fun _ => {}) s.streams i

/-- Replace stream `i`. -/
def State.setStream (s : State) (i : Nat) (x : StreamSt) : State :=
  { s with streams := Cells.put (fun _ => {}) s.streams i x }

/-- The state of a stream by age alone: default thresholds (R432). -/
def ageState (p : Policy) (age : Nat) : Fresh :=
  if p.aStale < age then .stale else if p.aLive < age then .late else .live

/-- STATE and SUBCAUSE of a stream (R432, R433): the first row whose condition holds; a COMPOSITE stream takes the state
its frame carries when that is worse. -/
def streamState (p : Policy) (tracked : Bool) (x : StreamSt) : Fresh × Nat :=
  if !x.held then (.unknown, 0x20)
  else if x.rebase then (.unknown, 0x22)
  else if x.ptp && !tracked then (.unknown, 0x21)
  else
    let own : Fresh × Nat :=
      if x.chain ≠ 0 then (.failed, x.chain)
      else if x.poison then (.failed, 0x11)
      else if x.faultFrame then (.failed, 0x14)
      else if x.frozen then (.frozen, 0)
      else (ageState p x.age, 0)
    if x.composite then worse own x.carried else own

/-- The streams that exist, by number. -/
def State.streamIds (s : State) : List Nat := (s.streams.filter fun e => e.2.on).map (·.1)

/-- Streams now FROZEN under R430 (VGL.FROZEN_LAST.COUNT). -/
def State.frozenCount (s : State) : Nat := (s.streams.filter fun e => e.2.on && e.2.frozen && e.2.freezeOn).length

/-- FREEZE_DETECTED and the count of VGL.FROZEN_LAST follow the streams (R447). -/
def State.freezeAlarm (s : State) : State :=
  let n := s.frozenCount
  (s.setFld Reg.VGL_FROZEN_LAST 31 16 n).hold .freezeDetected (decide (n ≠ 0))

/-- Replace stream `i` and evaluate its state: CHANGE_TS32 records a change of STATE; FREEZE_DETECTED and
VGL.FROZEN_LAST follow (R432, R447). -/
def State.evalStream (s : State) (i : Nat) (x : StreamSt) : State :=
  let old := s.stream i
  let st := streamState s.policy s.tim.tracked x
  let y := { x with state := st.1, sub := st.2, changeTs := if st.1 = old.state then x.changeTs else s.ts }
  let s1 := s.setStream i y
  (if y.frozen && !old.frozen then s1.setFld Reg.VGL_FROZEN_LAST 11 0 i else s1).freezeAlarm

/-! ### Buffers (R22) -/

/-- The frame a reader takes: it holds the most recent complete buffer until its frame ends (R22, R337). -/
def State.takeFrame (s : State) (rd : Reader) (i : Nat) : State :=
  let x := s.stream i
  match x.complete with
  | some b => s.setStream i { x with holders := (rd, b) :: x.holders.filter fun e => e.1 != rd }
  | none => s

/-- A reader's frame ends: it holds no buffer of any stream. -/
def State.releaseReader (s : State) (rd : Reader) : State :=
  s.streams.foldl (fun t e => t.setStream e.1 { e.2 with holders := e.2.holders.filter fun h => h.1 != rd }) s

/-- A buffer that is neither the most recent complete frame nor held by any reader (R22), the lowest. -/
def StreamSt.freeBuffer (x : StreamSt) : Option Nat :=
  (List.range 3).find? fun b => x.complete != some b && !(x.holders.any fun h => h.2 == b)

/-- FSC.CFG.BIAS in force; 3 acts as 2. -/
def State.bias (s : State) : Nat := min 2 (s.fld Reg.FSC_CFG 1 0)

/-- A frame of stream `i` takes a free buffer where the stream is stored, or is dropped whole (R22). The pixels of a buffer
not yet written are open. -/
def State.openFrame (s : State) (i : Nat) (f : Incoming) : State :=
  let x := s.stream i
  let img : Img := { w := f.w, h := f.h, fmt := f.fmt, tag := s.free }
  let s1 := s.nextFree
  if x.mode = 0 then s1.setStream i { x with cur := some { f with img := img }, writing := none }
  else match x.freeBuffer with
    | some b =>
      s1.setStream i { x with cur := some { f with img := img, bias := s.bias }, writing := some b, rawWritten := false }
    | none => s1.setStream i { x with cur := some { f with img := img, dropped := true }, writing := none }

/-- The first byte of a frame of stream `i`: the frame starts, with its STREAM channels (R22, R415). -/
def State.startFrame (s : State) (i : Nat) (f : Incoming) : State := (s.openFrame i f).chkStreamStart i

/-- The frame in progress of stream `i` is discarded whole (R198, R415). -/
def State.discardFrame (s : State) (i : Nat) : State :=
  (s.setStream i { s.stream i with cur := none, writing := none }).chkStreamDrop i

/-! ### Codec reading and damage (R306, R315) -/

/-- DRAM address of a level of a buffer of a surface (R306). -/
def StreamSt.levelStart (x : StreamSt) (buf level : Nat) : Nat :=
  let l := fun n => levelBytes x.format x.mode (cdiv x.width (2 ^ n)) (cdiv x.height (2 ^ n))
  x.base * 4096 + buf * bufferBytes x.format x.mode x.width x.height x.pyramid
    + (List.range level).foldl (fun a n => a + l n) 0

/-- The header of tile `t` of a level as DRAM holds it. -/
def State.headerAt (s : State) (x : StreamSt) (buf level : Nat) (img : Img) (t : Nat) : TileHeader :=
  TileHeader.ofWord (leNat (s.dramRead (img.groupStart x.mode (x.levelStart buf level) (t / 16) + 8 * (t % 16)) 8))

/-- What the bytes of tile `t` of a level hold after a raw write (R77, R308): none where they are those FSC wrote;
else the samples they hold, none of them for a damaged header. -/
def State.rawTile (s : State) (x : StreamSt) (buf level : Nat) (b : Buf) (img : Img) (t : Nat) : Option (Option (List Nat)) :=
  let h := s.headerAt x buf level img t
  let g := img.groupStart x.mode (x.levelStart buf level) (t / 16)
  let slot := 8 * img.groupTiles (t / 16) + (t % 16) * (4 * Fmt.bits img.fmt - 8)
  if !h.sound img.fmt x.mode x.e (img.groupTiles (t / 16)) slot then some none
  else
    let l := s.dramRead (g + h.offset) h.len
    if h = img.tileHeader x.mode x.e b.bias t ∧ l = img.tilePayload x.mode x.e b.bias t then none
    else some (some (decodeTile img.fmt x.mode h.coding l))

/-- Buffer `k` of stream `i` as its bytes in DRAM stand now. -/
def State.rereadBuffer (s : State) (i k : Nat) : State :=
  let x := s.stream i
  match x.bufs[k]? with
  | none => s
  | some b =>
    let levels := (List.range b.levels.length).filterMap fun l => (b.levels[l]?).map fun img =>
      { img with rawTiles := (List.range img.tiles).filterMap fun t => (s.rawTile x k l b img t).map fun o => (t, o) }
    s.setStream i { x with bufs := x.bufs.set k { b with levels := levels } }

/-- Two ranges [a, b) of DRAM share a byte. -/
def dramMeet (a b : Nat × Nat) : Bool := decide (a.1 < b.2) && decide (b.1 < a.2) && decide (a.1 < a.2) && decide (b.1 < b.2)

/-- The surfaces whose allocation raw bytes at [a, b) fall into hold what their bytes now say (R77, R308). -/
def State.rawSurfaces (s : State) (a b : Nat) : State :=
  s.streamIds.foldl (fun (t : State) i =>
    if (s.stream i).mode = 0 then t
    else (List.range 3).foldl (fun (u : State) k =>
      let x := u.stream i
      let r := (x.levelStart k 0, x.levelStart (k + 1) 0)
      if !dramMeet r (a, b) then u
      else
        let y := if x.writing = some k then { x with rawWritten := true } else x
        match y.bufs[k]? with
        | some buf => if buf.levels.isEmpty then u.setStream i y else (u.setStream i y).rereadBuffer i k
        | none => u.setStream i y) t) s

/-- The bytes that FSC needs for tile `t` of a level of a buffer: its header and its payload (R313). -/
def State.tileBytes (s : State) (x : StreamSt) (buf level : Nat) (b : Buf) (img : Img) (t : Nat) : (Nat × Nat) × (Nat × Nat) :=
  let r := img.tileRanges x.mode x.e b.bias (x.levelStart buf level) t
  let h := s.headerAt x buf level img t
  let g := img.groupStart x.mode (x.levelStart buf level) (t / 16)
  (r.1, if (img.rawAt t).isSome then (g + h.offset, g + h.offset + h.len) else r.2)

/-- A byte that FSC needs for tile `t` of a level of a buffer reads as poison (R315). -/
def State.tilePoisoned (s : State) (x : StreamSt) (buf level : Nat) (b : Buf) (img : Img) (t : Nat) : Bool :=
  let r := s.tileBytes x buf level b img t
  s.poisonedRange r.1 || s.poisonedRange r.2

/-- Tile `t` of a level of a buffer is damaged (R315): a byte FSC needs for it reads as poison, or its header fails
R308, which only bytes that the host wrote raw do (R77). -/
def State.tileDamaged (s : State) (i buf level t : Nat) : Bool :=
  let x := s.stream i
  match x.bufs[buf]? with
  | none => false
  | some b =>
    match b.levels[level]? with
    | none => false
    | some img =>
      decide (t < img.tiles) && (img.rawAt t == some none || s.tilePoisoned x buf level b img t)

/-- A tile of the held frame of stream `i` reads poison (R297, R433). -/
def State.heldPoisoned (s : State) (i : Nat) : Bool :=
  let x := s.stream i
  match x.complete with
  | none => false
  | some c => match x.bufs[c]? with
    | none => false
    | some b => (List.range b.levels.length).any fun l => match b.levels[l]? with
      | none => false
      | some img => (List.range img.tiles).any fun t => s.tilePoisoned x c l b img t

/-- A damaged tile of stream `i` was read (R315). -/
def State.poisonRead (s : State) (i level : Nat) : State :=
  ((s.setFld Reg.FSC_POISON_LAST 31 30 level).setFld Reg.FSC_POISON_LAST 11 0 i).raise .poisonRead

/-- The poison among the bytes that FSC needs for tile `t` of a level of a buffer is uncorrectable reads through memory
port `port` (R294). -/
def State.tileFaults (s : State) (port i buf level t : Nat) : State :=
  let x := s.stream i
  match x.bufs[buf]? with
  | none => s
  | some b => match b.levels[level]? with
    | none => s
    | some img =>
      let r := s.tileBytes x buf level b img t
      (s.readFaults port r.1.1 r.1.2).readFaults port r.2.1 r.2.2

/-- The tiles `l` of a level of the held frame of stream `i`, each damaged, were read through memory port `port` (R294,
R315). -/
def State.poisonReads (s : State) (port i level : Nat) (l : List Nat) : State :=
  l.foldl (fun t k => (t.poisonRead i level).tileFaults port i ((t.stream i).complete.getD 0) level k) s

/-- The damaged tiles of the held frame of stream `i` at `level` (R315). -/
def State.damagedTiles (s : State) (i level : Nat) : List Nat :=
  let x := s.stream i
  match x.complete with
  | none => []
  | some b => match x.bufs[b]? with
    | none => []
    | some f => match f.levels[level]? with
      | none => []
      | some img => (List.range img.tiles).filter fun t => s.tileDamaged i b level t

/-! ### Tile groups as they are written (R306, R313) -/

/-- Pixels of a line covered from `pos` on by the line's segments; `fuel` bounds the segments used. -/
def lineCover (segs : List (Nat × Nat × Nat)) : Nat → Nat → Nat
  | 0, pos => pos
  | fuel + 1, pos =>
    match segs.find? fun e => decide (e.2.1 ≤ pos) && decide (pos < e.2.1 + e.2.2) with
    | some e => lineCover segs fuel (e.2.1 + e.2.2)
    | none => pos

/-- Every pixel of line `y` has arrived. -/
def Incoming.lineWhole (f : Incoming) (y : Nat) : Bool :=
  let l := f.segs.filter fun e => e.1 == y
  decide (f.w ≤ lineCover l l.length 0)

/-- Tile groups of a level of a `w` × `h` picture. -/
def groupCount (w h level : Nat) : Nat := cdiv (cdiv (cdiv w (2 ^ level)) 8 * cdiv (cdiv h (2 ^ level)) 8) 16

/-- The lines [y0, y1) of the base that the tiles of a group of a level are formed of (R305, R382). -/
def groupLines (w h level g : Nat) : Nat × Nat :=
  let tx := cdiv (cdiv w (2 ^ level)) 8
  let last := min (16 * g + 15) (tx * cdiv (cdiv h (2 ^ level)) 8 - 1)
  (16 * g / tx * 8 * 2 ^ level, min h ((last / tx + 1) * 8 * 2 ^ level))

/-- DRAM ranges (address, bytes) of the tile groups that base lines `first` to `first + count - 1` of the frame in
progress are stored in, all levels. -/
def StreamSt.storeRanges (x : StreamSt) (first count : Nat) : List (Nat × Nat) :=
  match x.cur, x.writing with
  | some f, some b =>
    let space := tileSpace x.format x.mode
    (List.range (if x.pyramid then 4 else 1)).flatMap fun l =>
      let tiles := cdiv (cdiv f.w (2 ^ l)) 8 * cdiv (cdiv f.h (2 ^ l)) 8
      ((List.range (groupCount f.w f.h l)).filter fun g =>
          let r := groupLines f.w f.h l g
          decide (r.1 < first + count) && decide (first < r.2)).map fun g =>
        (x.levelStart b l + g * 16 * space, min 16 (tiles - 16 * g) * space)
  | _, _ => []

/-- The lines of a group are all present. -/
def Incoming.groupDone (f : Incoming) (level g : Nat) : Bool :=
  let r := groupLines f.w f.h level g
  (List.range (r.2 - r.1)).all fun k => f.lineWhole (r.1 + k)

/-- The groups of a frame, level by level. -/
def Incoming.groups (f : Incoming) (pyramid : Bool) : List (Nat × Nat) :=
  (List.range (if pyramid then 4 else 1)).flatMap fun l => (List.range (groupCount f.w f.h l)).map fun g => (l, g)

/-- A group is written, headers and payloads together in whole lines of DRAM, and counts in FSC.TILES (R313). -/
def State.storeGroup (s : State) (x : StreamSt) (buf bias level : Nat) (img : Img) (g : Nat) : State :=
  let a := img.groupStart x.mode (x.levelStart buf level) g
  let b := img.groupBytes x.mode x.e bias g
  let t := (s.dramStore a b).freshen (a / 128 * 128) (cdiv (a + b.length) 128 * 128)
  t.setPair Reg.FSC_TILES_LO (t.pair Reg.FSC_TILES_LO + BitVec.ofNat 64 (img.groupTiles g))

/-- Groups of the frame that stream `i` writes go to its buffer, `img` being the picture so far (R313). -/
def State.storeGroups (s : State) (i : Nat) (gs : List (Nat × Nat)) (img : Img) : State :=
  let x := s.stream i
  match x.cur, x.writing with
  | some f, some b =>
    if gs.isEmpty || f.bad then s
    else
      let ls := img.pyramid x.pyramid
      gs.foldl (fun t e => match ls[e.1]? with
        | some l => t.storeGroup x b f.bias e.1 l e.2
        | none => t) s
  | _, _ => s

/-- Pixels of line `y` of the frame that stream `i` writes have arrived: the groups whose lines are now all present are
written (R313). -/
def State.storeLine (s : State) (i y : Nat) (img : Img) : State :=
  match (s.stream i).cur with
  | some f =>
    s.storeGroups i ((f.groups (s.stream i).pyramid).filter fun e =>
      let r := groupLines f.w f.h e.1 e.2
      decide (r.1 ≤ y) && decide (y < r.2) && f.groupDone e.1 e.2) img
  | none => s

/-- The frame that stream `i` writes is whole: the groups not written as their lines arrived are written. -/
def State.storeRest (s : State) (i : Nat) (img : Img) : State :=
  match (s.stream i).cur with
  | some f => s.storeGroups i ((f.groups (s.stream i).pyramid).filter fun e => !f.groupDone e.1 e.2) img
  | none => s

/-! ### Surface statistics (R318) -/

/-- Histogram bin of a MAXERR. -/
def errBin (e : Nat) : Nat :=
  if e = 0 then 0 else if e = 1 then 1 else if e < 4 then 2 else if e < 8 then 3 else if e < 16 then 4
  else if e < 32 then 5 else if e < 64 then 6 else 7

/-- The tiles of a frame, all levels: (level, tile column, tile row, MAXERR, bytes with header, RAW). -/
def frameTiles (mode e bias : Nat) (levels : List Img) : List (Nat × Nat × Nat × Nat × Nat × Bool) :=
  (List.range levels.length).flatMap fun l =>
    match levels[l]? with
    | none => []
    | some img => (List.range img.tiles).map fun t =>
        (l, t % img.tilesX, t / img.tilesX, img.tileErr mode e bias t, 8 + img.tileLen mode e bias t,
          img.coding mode e bias t == 0)

/-- Statistics cleared (R318). -/
def StreamSt.clearStats (x : StreamSt) : StreamSt :=
  { x with statMax := 0, statFrameMax := 0, statHist := [0, 0, 0, 0, 0, 0, 0, 0], statBytes := 0, statRaw := 0,
           statWorst := (0, 0, 0), statWorstTs := 0, statFrames := 0 }

/-- The statistics after a frame's tiles (R318); the first frame since a clear, which finds an empty histogram, gives
MAX its first tile. -/
def StreamSt.addStats (x : StreamSt) (ts : Word) (tiles : List (Nat × Nat × Nat × Nat × Nat × Bool)) : StreamSt :=
  let fmax := tiles.foldl (fun m t => max m t.2.2.2.1) 0
  let hist := tiles.foldl (fun h t => h.modify (errBin t.2.2.2.1) fun n => satN 32 (n + 1)) x.statHist
  let y := { x with statFrameMax := fmax, statHist := hist,
                    statBytes := tiles.foldl (fun n t => n + t.2.2.2.2.1) 0,
                    statRaw := (tiles.filter fun t => t.2.2.2.2.2).length, statFrames := (x.statFrames + 1) % 65536 }
  if x.statMax < fmax ∨ x.statHist.all (· == 0) = true then
    match tiles.find? fun t => t.2.2.2.1 == fmax with
    | some t => { y with statMax := fmax, statWorst := (t.1, t.2.1, t.2.2.1), statWorstTs := ts }
    | none => y
  else y

/-! ### Flips (R427 to R430) -/

/-- A frame offered for flip: counters, capture time, picture, and what its kind adds. -/
structure Offer where
  alive : Nat
  cap   : Word
  ptp   : Bool
  epoch : Nat
  img   : Img
  /-- IPDEC: an ALL_SKIP picture (R247) -/
  allSkip : Bool := false
  /-- IPDEC: the picture's cause, an IRAP or IDR, and the cause of the FAILED chain as it was decoded, 0 none (R243, R247) -/
  cause : Nat := 0
  irap  : Bool := false
  chain : Nat := 0
  stated : Option Stated := none
  deriving DecidableEq, Repr

/-- CORRUPT causes that a reference carries on: BITSTREAM, MISSING_REF, TIMEOUT, MPU, DEPENDENT (R246). -/
def spreads (c : Nat) : Bool := [1, 2, 3, 4, 7].contains c

/-- The FAILED chain of a stream after the delivery of a picture (R247): it runs from the delivery of a picture that is
CORRUPT to that of a clean IRAP or IDR; one of UNSUPPORTED or FORMAT to that of any clean picture. -/
def StreamSt.chainAfter (x : StreamSt) (o : Offer) : Nat :=
  if spreads o.cause then o.chain else if o.cause = 0 ∧ (o.irap ∨ 5 ≤ x.chain) then 0 else x.chain

/-- The steps since CAP_EPOCH `epoch`, that of its end and all later ones, mod 2^32: 0 for an epoch that is not known. -/
def stepsSince (epoch : Nat) : List PastEpoch → Word
  | [] => 0
  | p :: rest =>
    if p.epoch % 256 = epoch % 256 then p.step
    else if rest.any fun q => q.epoch % 256 == epoch % 256 then p.step + stepsSince epoch rest
    else 0

/-- A capture time of the device's domain that was formed in an earlier time epoch is moved by every step since (R440). -/
def State.rebaseCap (s : State) (cap : Word) (ptp : Bool) (epoch : Nat) : Word :=
  if !ptp && epoch % 256 != s.fld Reg.TIM_EPOCH 7 0 then cap + stepsSince epoch s.tim.past else cap

/-- The stream after an accepted frame, but for its buffers (R427, R429, R430). `dd`: flip time minus capture time,
which says nothing of a frame that carries its age. -/
def StreamSt.accept (x : StreamSt) (p : Policy) (ts cap : Word) (dd : Int) (o : Offer) (crc : Word) : StreamSt :=
  let first := !x.held
  let d := (o.alive + 65536 - x.alive) % 65536
  let changed := first || crc != x.crc
  let same := if changed then 1 else satN 16 (x.same + 1)
  let skipRun := if x.kind = 1 then (if o.allSkip then satN 16 (x.skipRun + 1) else 0) else 0
  let n := if x.freezeN = 0 then p.freezeN else x.freezeN
  let ends := changed && !o.allSkip
  let frozen := x.freezeOn && (decide (n ≤ same) || (x.kind == 1 && decide (n ≤ skipRun)) || (x.frozen && !ends))
  { x with
    cap := if dd < 0 ∧ o.stated = none then ts else cap, capEpoch := o.epoch, ptp := o.ptp,
    age := match o.stated with
      | some st => satN 24 st.age
      | none => if dd < 0 then 0 else satN 24 (dd.toNat / 100000),
    alive := o.alive, crc := crc, same := same, skipRun := skipRun, still := if changed then 0 else x.still,
    frozen := frozen, held := true, rebase := false, poison := false, chain := x.chainAfter o,
    lost := if first || decide (32768 ≤ d) then x.lost else satN 16 (x.lost + (d - 1)),
    restarts := if !first && decide (32768 ≤ d) then satN 16 (x.restarts + 1) else x.restarts,
    frames := (x.frames + 1) % 2 ^ 32, flipTs := ts,
    composite := match o.stated with
      | some st => st.composite
      | none => false,
    carried := match o.stated with
      | some st => (st.state, st.sub)
      | none => (.live, 0),
    new := match o.stated with
      | some st => st.new
      | none => false,
    faultFrame := match o.stated with
      | some st => st.fault
      | none => false }

/-- The written buffer becomes the most recent complete frame (R22), all levels in one cycle (R314). -/
def StreamSt.flipBuffer (x : StreamSt) (levels : List Img) : StreamSt :=
  match x.writing with
  | some b =>
    let bias := match x.cur with
      | some f => f.bias
      | none => 1
    { x with bufs := x.bufs.set b { levels := levels, bias := bias }, complete := some b, writing := none, cur := none,
             rawWritten := false }
  | none => { x with complete := if x.mode = 0 then none else x.complete, cur := none }

/-- BIAS that the held frame was coded with (R312). -/
def StreamSt.heldBias (x : StreamSt) : Nat :=
  match x.complete with
  | some b => match x.bufs[b]? with
    | some f => f.bias
    | none => 1
  | none => 1

/-! ### Cascade sends (R531, R532) -/

/-- The state and age that a frame carries over the cascade (R439, R531): its composite freshness and the TS32 of its
latch; a frame that states none has its age, and no state. -/
structure Carried where
  state : Nat
  age   : Nat
  latch : Word
  deriving DecidableEq, Repr

/-- What the frame that stream `x` has just taken carries. -/
def State.carriedBy (s : State) (x : StreamSt) (st : Option Stated) : Carried :=
  match st with
  | some t => { state := if t.composite then t.state.code else 0xFF, age := t.latchAge, latch := t.latch }
  | none => { state := 0xFF, age := x.age, latch := s.ts }

/-- The device sends ON_AIR: role ACTIVE, or NONE with a loaded structure (R491, R531). -/
def State.airSide (s : State) : Bool := s.active || (s.ld.loaded && s.fld Reg.TWN_STATUS 31 30 == 0)

/-- A SURFACE_SEG payload (R531): KIND, destination member, plane, sender's stream, frame, line, first sample,
samples. -/
def State.surfaceSeg (s : State) (kind dst plane strm frame line first count : Nat) (body : List Byte) : List Byte :=
  leBytes 1 kind ++ leBytes 1 (s.cascadeId + s.ringSide * 8 + if s.airSide then 16 else 0) ++ leBytes 1 dst
    ++ leBytes 1 plane ++ leBytes 2 strm ++ leBytes 2 frame ++ leBytes 2 line ++ leBytes 2 first ++ leBytes 2 count
    ++ leBytes 2 0 ++ body

/-- The FS body of a surface frame (R195, R531). -/
def State.surfaceFs (s : State) (x : StreamSt) (img : Img) (c : Carried) : List Byte :=
  leBytes 2 x.frames ++ leBytes 2 img.w ++ leBytes 2 img.h ++ leBytes 1 img.fmt ++ leBytes 1 (if x.ptp then 1 else 2)
    ++ leBytes 4 x.cap.toNat ++ leBytes 4 c.latch.toNat ++ leBytes 1 c.state ++ leBytes 3 (satN 24 c.age)
    ++ leBytes 2 x.frames ++ leBytes 1 ((if s.airSide then 1 else 0) + s.ringSide * 2 + (if x.faultFrame then 8 else 0)
      + if x.new then 16 else 0)
    ++ leBytes 1 0 ++ leBytes 4 0 ++ leBytes 2 (s.fld Reg.TIM_EPOCH 15 0) ++ leBytes 2 0

/-- Tile of an image that holds sample (x, y) of plane `p` (R305). -/
def Img.sampleTile (i : Img) (p x y : Nat) : Nat :=
  let sw := if Fmt.chroma i.fmt p && Fmt.halfH i.fmt then 4 else 8
  let sh := if Fmt.chroma i.fmt p && Fmt.halfV i.fmt then 4 else 8
  y / sh * i.tilesX + x / sw

/-- A picture as FSC delivers it to a reader, all tiles (R309 to R311). -/
def Img.delivered (i : Img) (mode e bias : Nat) : Img :=
  if mode = 1 ∧ i.rawTiles = [] then i
  else
    (List.range (Fmt.planes i.fmt)).foldl (fun a p => (List.range (Fmt.planeH i.fmt p i.h)).foldl (fun b y =>
      b.setRun p 0 y ((List.range (Fmt.planeW i.fmt p i.w)).map fun x => i.read mode e bias p x y)) a)
      { w := i.w, h := i.h, fmt := i.fmt }

/-- The DATA segments of a picture: plane, line, first sample, count, bytes packed as in R419. -/
def Img.dataSegs (i : Img) : List (Nat × Nat × Nat × Nat × List Byte) :=
  (List.range (Fmt.planes i.fmt)).flatMap fun p => (List.range (Fmt.planeH i.fmt p i.h)).flatMap fun y =>
    let w := Fmt.planeW i.fmt p i.w
    (List.range (cdiv w 4096)).map fun k =>
      let n := min 4096 (w - 4096 * k)
      (p, y, 4096 * k, n, packBits (Fmt.depth i.fmt) ((List.range n).map fun x => i.at p (4096 * k + x) y))

/-- The packets of one frame to one member: FS, DATA, FE with the DATA count and the frame CRC of what is sent. FSC
delivers no sample of a damaged tile (R315): the DATA segments that hold one are not sent (DESIGN CHOICE, assumption
62). -/
def State.surfacePackets (s : State) (i dst : Nat) (x : StreamSt) (img : Img) (bad : List Nat) (c : Carried) :
    List (List Byte) :=
  let f := x.frames % 65536
  let ds := img.dataSegs
  let sent := ds.filter fun d => bad.isEmpty
    || (List.range d.2.2.2.1).all fun k => !bad.contains (img.sampleTile d.1 (d.2.2.1 + k) d.2.1)
  [s.surfaceSeg 0 dst 0 i f 0 0 0 (s.surfaceFs x img c)]
    ++ (sent.map fun d => s.surfaceSeg 1 dst d.1 i f d.2.1 d.2.2.1 d.2.2.2.1 d.2.2.2.2)
    ++ [s.surfaceSeg 2 dst 0 i f 0 0 0 (leBytes 4 ds.length ++ leBytes 4 img.frameCrc.toNat)]

/-- A frame on one cascade port. Whether it meets a full FIFO, and how much of it has left by then, depends on the time
that the link takes, which the model leaves open: free values (R532, assumption 37). -/
def State.sendFrameOn (s : State) (q : Nat) (l : List (List Byte)) : State :=
  let full := Config.freeBool s.free
  let left := if full then l.take (Config.freeNat (s.free + 1) % l.length) else l
  let s1 := left.foldl (fun t b => t.sendPacket q 0x31 0 0 b) (s.takeFree 2)
  if full then s1.addSat (Reg.CAS_DROP (q - 112)) 31 16 1 else s1

/-- A level of the held frame of a stream as FSC delivers it. -/
def StreamSt.deliveredAt (x : StreamSt) (lv : Nat) : Option Img :=
  match x.complete with
  | none => none
  | some b => (x.bufs[b]?).bind fun f => (f.levels[lv]?).map fun img => img.delivered x.mode x.e f.bias

/-- The frame that stream `i` has just taken, as `x` shows it, goes to every member that has subscribed to it, out of
both ports of the way there (R531, R534), as cascade transmission reads it through the codec; the frame CRC is formed
of those samples (DESIGN CHOICE, assumption 62). -/
def State.casSend (s : State) (i : Nat) (x : StreamSt) (st : Option Stated) : State :=
  let c := s.carriedBy x st
  match s.cas.sends.filter fun e => e.strm == i, x.deliveredAt 0 with
  | [], _ => s
  | _, none => s
  | l, some img =>
    let bad := s.damagedTiles i 0
    l.foldl (fun t e =>
      (dirPorts (t.dirTo e.member)).foldl (fun u q => u.sendFrameOn q (u.surfacePackets i e.member x img bad c)) t)
      (s.poisonReads 5 i 0 bad)

/-- The tiles of the frame that stream `i` holds now that enter the surface statistics: a damaged one does not (R315). -/
def State.soundTiles (s : State) (i : Nat) (levels : List Img) : List (Nat × Nat × Nat × Nat × Nat × Bool) :=
  let x := s.stream i
  (frameTiles x.mode x.e x.heldBias levels).filter fun t =>
    !s.tileDamaged i (x.complete.getD 0) t.1 (t.2.2.1 * cdiv (cdiv x.width (2 ^ t.1)) 8 + t.2.1)

/-- A complete frame is offered for flip (R428, R429): REPEAT, refused for its capture time, or flipped with its frame
CRC, its STREAM channels and its surface statistics. -/
def State.offerFrame (s : State) (i : Nat) (o : Offer) : State :=
  let x := s.stream i
  let d := (o.alive + 65536 - x.alive) % 65536
  let levels := o.img.pyramid x.pyramid
  let s0 := s.storeRest i o.img
  if x.held && (d == 0 || decide (65520 ≤ d)) then
    let s1 := (s0.discardFrame i)
    let y := s1.stream i
    let s2 := s1.evalStream i { y with repeats := satN 16 (y.repeats + 1), chain := y.chainAfter o }
    ((s2.setFld Reg.VGL_REPEAT_LAST 31 16 o.alive).setFld Reg.VGL_REPEAT_LAST 11 0 i).raise .repeatFrame
  else
    let ts := s.ts
    let cap := s.rebaseCap o.cap o.ptp o.epoch
    let dd := tsDiff cap ts
    if x.kind ≠ 2 ∧ x.kind ≠ 4 ∧ dd > 2000000000 then
      let s1 := s0.discardFrame i
      let y := s1.stream i
      s1.evalStream i { y with tsReject := satN 16 (y.tsReject + 1), chain := y.chainAfter o }
    else
      let y := (x.accept s.policy ts cap dd o o.img.frameCrc).flipBuffer levels
      let s1 := (s0.chkStreamFlip i o.img.frameBytes).setStream i y
      let s2 := if x.rawWritten then s1.rereadBuffer i (x.writing.getD 0) else s1
      let s3 := if x.mode = 0 then s2 else s2.setStream i ((s2.stream i).addStats ts (s2.soundTiles i levels))
      let s4 := s3.evalStream i { s3.stream i with poison := s3.heldPoisoned i }
      s4.casSend i (s4.stream i) o.stated

/-! ### Ticks and epochs (R427, R440) -/

/-- One tick of a stream (R427): ages count; REBASE ends past A_live (R440). -/
def StreamSt.tick (x : StreamSt) (p : Policy) : StreamSt :=
  let age := satN 24 (x.age + 1)
  { x with age := age, still := satN 24 (x.still + 1), rebase := x.rebase && decide (age ≤ p.aLive) }

/-- AGE_TICK (R427): each 0.1 ms of TS32 advance ages every stream and re-evaluates its state. -/
def execAgeTick (s : State) : Res :=
  if s.ready then
    .next (s.streamIds.foldl (fun t i => t.evalStream i ((t.stream i).tick t.policy)) { s with ticks := s.ticks + 1 })
  else .next s

/-- The streams in the cycle of a step by `delta` (R440): REBASE does not outlast an AGE above A_live. -/
def State.stepStreams (s : State) (delta : Word) : State :=
  s.streamIds.foldl (fun t i =>
    let x := t.stream i
    t.evalStream i { x with cap := if x.ptp then x.cap else x.cap + delta,
                            rebase := x.held && decide (x.age ≤ t.policy.aLive) }) s

/-! ### The Stream Table (R425, R316, R426) -/

/-- BAR0 offset of entry `i` of the Stream Table. -/
def streamBase (i : Nat) : Nat := 0x20_0000 + 64 * i

/-- A new stream from its STREAM record body (R425, R316). -/
def StreamSt.ofBody (b : List Byte) : StreamSt :=
  { on := true, kind := leAt b 0 1, format := leAt b 1 1, width := leAt b 2 2, height := leAt b 4 2,
    freezeOn := (leAt b 6 1).testBit 0, freezeN := leAt b 7 1, src := leAt b 8 2, rate := leAt b 56 4,
    mode := leAt b 64 1, e := leAt b 65 1, pyramid := (leAt b 66 1).testBit 0, base := leAt b 68 4, size := leAt b 72 4,
    sub := 0x20 }

/-- The 64 bytes of a Stream Table entry as the host reads them (R425). -/
def StreamSt.entry (x : StreamSt) : List Byte :=
  if !x.on then leBytes 64 0
  else
    leBytes 1 x.kind ++ leBytes 1 x.format ++ leBytes 2 x.width ++ leBytes 2 x.height
      ++ leBytes 1 (if x.freezeOn then 1 else 0) ++ leBytes 1 x.freezeN ++ leBytes 2 x.src ++ leBytes 2 0
      ++ leBytes 4 x.cap.toNat ++ leBytes 3 x.age
      ++ leBytes 1 (x.state.code + (if x.composite then 8 else 0) + (if x.rebase then 16 else 0)
          + (if x.new then 32 else 0) + (if x.faultFrame then 64 else 0))
      ++ leBytes 1 x.sub ++ leBytes 1 x.capEpoch ++ leBytes 2 x.alive ++ leBytes 4 x.crc.toNat
      ++ leBytes 2 x.same ++ leBytes 2 x.skipRun ++ leBytes 3 x.still ++ leBytes 1 (if x.ptp then 1 else 0)
      ++ leBytes 4 x.frames ++ leBytes 2 x.lost ++ leBytes 2 x.repeats ++ leBytes 4 x.flipTs.toNat
      ++ leBytes 4 x.changeTs.toNat ++ leBytes 2 x.restarts ++ leBytes 2 x.tsReject ++ leBytes 4 x.rate ++ leBytes 4 0

/-- The word of the Stream Table window at `off`. -/
def State.streamWord (s : State) (off : Nat) : Word :=
  let i := (off - 0x20_0000) / 64
  w32 (leAt (s.stream i).entry (off % 64 / 4 * 4) 4)

/-- Freeze detection of stream `i` is turned on or off (R431): off ends FROZEN. -/
def State.setFreeze (s : State) (i : Nat) (on : Bool) (n : Nat) : State :=
  let x := s.stream i
  if x.on then s.evalStream i { x with freezeOn := on, freezeN := n, frozen := x.frozen && on } else s

/-! ### Statistics commands -/

/-- STAT_CLR (R318): a write of FSC.STAT_CLR with CLEAR. -/
def execStatClr (p : Port) (s : State) : Res :=
  s.hostWrite p Reg.FSC_STAT_CLR 0x8000_0000 fun t =>
    let i := t.fld Reg.FSC_SURF_SEL 11 0
    t.setStream i (t.stream i).clearStats

/-- Every stream's surface statistics cleared. -/
def State.clearAllStats (s : State) : State := s.streamIds.foldl (fun t i => t.setStream i (t.stream i).clearStats) s

/-- STAT_CLR_ALL (R318): a write of FSC.STAT_CLR with CLEAR_ALL. -/
def execStatClrAll (p : Port) (s : State) : Res :=
  s.hostWrite p Reg.FSC_STAT_CLR 0x4000_0000 fun t => t.clearAllStats

end Sys2Proof.Machine
end

