-- ==== Sys2Proof/Machine/Color.lean ====
section
/-!
DEFINITION. Machine/Color.lean: the working space (R341), colour conversion sets (R342 to R346), reduction to a
destination format (R347, R348) and the blending arithmetic (R349, R350), with fault fill, stale card and startup card
(R393, R402, R403).
-/
namespace Sys2Proof.Machine

/-! ### Alignment (R341) -/

/-- A d-bit sample aligned to 12 bits by shift or by replicate. -/
def align12 (d : Nat) (shift : Bool) (v : Nat) : Nat :=
  if shift || decide (12 ≤ d) then v * 2 ^ (12 - d) else v * 2 ^ (12 - d) + v / 2 ^ (2 * d - 12)

/-- An 8-bit component replicated to 12 bits. -/
def rep8 (v : Nat) : Nat := align12 8 false v

/-! ### Conversion sets (R342 to R345) -/

/-- `round(num / den)`, halves away from zero; `den` positive. -/
def roundAway (num den : Int) : Int :=
  if 0 ≤ num then (2 * num + den) / (2 * den) else -((2 * (-num) + den) / (2 * den))

/-- The identity set: every input replicated (set 0 for RGB, reset of the loadable sets). -/
def Csc.identity : Csc := { m := [16384, 0, 0, 0, 16384, 0, 0, 0, 16384], o := [0, 0, 0], q := [0, 0, 0],
                            shift := [false, false, false] }

/-- A fixed YCbCr set from Kr and Kb in 1/10,000, narrow or full range (R344). -/
def Csc.fromYuv (kr kb : Int) (narrow : Bool) : Csc :=
  let kg := 10000 - kr - kb
  let yn : Int := if narrow then 4095 else 1
  let yd : Int := if narrow then 3504 else 1
  let cn : Int := if narrow then 4095 else 1
  let cd : Int := if narrow then 3584 else 1
  let y := roundAway (16384 * yn) yd
  { m := [y, 0, roundAway (16384 * 2 * (10000 - kr) * cn) (10000 * cd),
          y, roundAway (-(16384 * 2 * kb * (10000 - kb) * cn)) (10000 * kg * cd),
             roundAway (-(16384 * 2 * kr * (10000 - kr) * cn)) (10000 * kg * cd),
          y, roundAway (16384 * 2 * (10000 - kb) * cn) (10000 * cd), 0],
    o := [if narrow then 256 else 0, 2048, 2048], q := [0, 0, 0], shift := [narrow, true, true] }

/-- The inverse of a fixed YCbCr set (R346). -/
def Csc.toYuv (kr kb : Int) (narrow : Bool) : Csc :=
  let kg := 10000 - kr - kb
  let yn : Int := if narrow then 3504 else 1
  let yd : Int := if narrow then 4095 else 1
  let cn : Int := if narrow then 3584 else 1
  let cd : Int := if narrow then 4095 else 1
  let y := fun k => roundAway (16384 * k * yn) (10000 * yd)
  let cb := fun k => roundAway (16384 * k * cn) (2 * (10000 - kb) * cd)
  let cr := fun k => roundAway (16384 * k * cn) (2 * (10000 - kr) * cd)
  { m := [y kr, y kg, y kb, cb (-kr), cb (-kg), cb (10000 - kb), cr (10000 - kr), cr (-kg), cr (-kb)],
    o := [0, 0, 0], q := [if narrow then 256 else 0, 2048, 2048], shift := [narrow, true, true] }

/-- Kr and Kb, in 1/10,000, of the matrix of a fixed set 1 to 6 (R343, R344). -/
def Csc.matrix (k : Nat) : Int × Int :=
  if k ≤ 2 then (2126, 722) else if k ≤ 4 then (2990, 1140) else (2627, 593)

/-- Fixed set `k`, 1 to 7 (R343, R344). -/
def Csc.fixed (k : Nat) : Csc :=
  if k = 7 then { m := [19147, 0, 0, 0, 19147, 0, 0, 0, 19147], o := [256, 256, 256], q := [0, 0, 0],
                  shift := [true, true, true] }
  else Csc.fromYuv (Csc.matrix k).1 (Csc.matrix k).2 (k % 2 == 1)

/-- The inverse of fixed set `k`, 1 to 7 (R346). -/
def Csc.inverse (k : Nat) : Csc :=
  if k = 7 then
    let c := roundAway (16384 * 3504) 4095
    { m := [c, 0, 0, 0, c, 0, 0, 0, c], o := [0, 0, 0], q := [256, 256, 256], shift := [true, true, true] }
  else Csc.toYuv (Csc.matrix k).1 (Csc.matrix k).2 (k % 2 == 1)

/-- A signed value limited to [lo, hi]. -/
def clampI (lo hi v : Int) : Int := max lo (min hi v)

/-- A loadable set of 64 bytes (R345). -/
def Csc.ofBytes (b : List Byte) : Csc :=
  { m := (List.range 9).map fun k => clampI (-131072) 131071 (signedN 32 (leAt b (4 * k) 4)),
    o := (List.range 3).map fun k => clampI (-4096) 4095 (signedN 32 (leAt b (36 + 4 * k) 4)),
    q := (List.range 3).map fun k => clampI (-4096) 4095 (signedN 32 (leAt b (48 + 4 * k) 4)),
    shift := (List.range 3).map fun k => (leAt b 60 1).testBit k }

/-- The 64 bytes that show a set (R345). -/
def Csc.toBytes (c : Csc) : List Byte :=
  (c.m ++ c.o ++ c.q).flatMap (fun v => leBytes 4 (unsignedN 32 v))
    ++ leBytes 4 ((List.range 3).foldl (fun n k => if c.shift.getD k false then n + 2 ^ k else n) 0)

/-- BAR0 offset of conversion set `k` (R363). -/
def cscBase (k : Nat) : Nat := 0x31_0000 + 64 * k

/-- The set that a layer's CSC field names, for a source of format `fmt` (R343). -/
def State.cscIn (s : State) (k fmt : Nat) : Csc :=
  if k = 0 then (if Fmt.yuv fmt then Csc.fixed 1 else Csc.identity)
  else if k < 8 then Csc.fixed k
  else Csc.ofBytes (s.windowBytes (cscBase k) 16)

/-- The set that NODE_CTRL.OUT_CSC names, for a destination of format `fmt` (R346). -/
def State.cscOut (s : State) (k fmt : Nat) : Csc :=
  if k = 0 then (if Fmt.yuv fmt then Csc.inverse 1 else Csc.identity)
  else if k < 8 then Csc.inverse k
  else Csc.ofBytes (s.windowBytes (cscBase k) 16)

/-- One output component of the conversion of R342. -/
def Csc.row (c : Csc) (x : List Int) (i : Nat) : Nat :=
  let t := (List.range 3).foldl (fun a j => a + c.m.getD (3 * i + j) 0 * (x.getD j 0 - c.o.getD j 0)) 0
  (clampI 0 4095 ((t + 8192) / 16384 + c.q.getD i 0)).toNat

/-- The conversion of R342: three aligned inputs to three outputs. -/
def Csc.convert (c : Csc) (x y z : Nat) : Nat × Nat × Nat :=
  let l : List Int := [x, y, z]
  (c.row l 0, c.row l 1, c.row l 2)

/-! ### Reduction (R347) -/

/-- The Bayer value of a canvas position. -/
def bayer (x y : Nat) : Nat :=
  ([[0, 8, 2, 10], [12, 4, 14, 6], [3, 11, 1, 9], [15, 7, 13, 5]].getD (y % 4) []).getD (x % 4) 0

/-- A 12-bit component reduced to `d` bits. -/
def reduce12 (v d : Nat) (shift dither : Bool) (x y : Nat) : Nat :=
  if 12 ≤ d then v
  else
    let b := bayer x y
    let r := if shift then
        let t := if dither then b * 2 ^ (12 - d) / 16 else 2 ^ (11 - d)
        (v + t) / 2 ^ (12 - d)
      else
        let t := if dither then (2 * b + 1) * 4095 / 32 else 2047
        (v * (2 ^ d - 1) + t) / 4095
    min r (2 ^ d - 1)

/-! ### Blending (R349, R350) -/

/-- `(a × b + 2047) // 4095`. -/
def mul12 (a b : Nat) : Nat := (a * b + 2047) / 4095

/-- The contribution `(s, α)` over the accumulated pixel (R350). -/
def Pix.over (s d : Pix) : Pix :=
  let k := 4095 - s.a
  { r := min 4095 (s.r + mul12 d.r k), g := min 4095 (s.g + mul12 d.g k), b := min 4095 (s.b + mul12 d.b k),
    a := min 4095 (s.a + mul12 d.a k), fault := s.fault || d.fault }

/-- The premultiplied contribution of a layer pixel (R349): layer format 0 OPAQUE, 1 STRAIGHT, 2 PREMULT, pixel alpha,
LALPHA at 8 bits. -/
def layerPix (alpha pa lalpha r g b : Nat) (fault : Bool) : Pix :=
  let la := rep8 lalpha
  let a := mul12 (if alpha = 0 then 4095 else pa) la
  let f := if alpha = 2 then la else a
  { r := mul12 r f, g := mul12 g f, b := mul12 b f, a := a, fault := fault }

/-- The components of an ARGB 8:8:8:8 word, replicated: A, R, G, B. -/
def argb12 (w : Word) : Nat × Nat × Nat × Nat :=
  (rep8 (wbits w 31 24), rep8 (wbits w 23 16), rep8 (wbits w 15 8), rep8 (wbits w 7 0))

/-- The canvas start value (R352). -/
def canvasStart (bgOn : Bool) (bg : Word) : Pix :=
  if bgOn then
    let (a, r, g, b) := argb12 bg
    { r := mul12 r a, g := mul12 g a, b := mul12 b a, a := a }
  else { r := 0, g := 0, b := 0, a := 0 }

/-! ### Drawn patterns -/

/-- The band of a position: 0 or 1 (R393). -/
def band (x y : Nat) : Nat := (x + y) / 8 % 2

/-- Fault fill (R393). -/
def faultFill (x y : Nat) : Pix :=
  let g := if band x y = 0 then 2048 else 1024
  { r := g, g := g, b := g, a := 4095, fault := true }

/-- FONT of R399: rows of characters 0 to 9 and '+' (10). -/
def fontRow (c row : Nat) : Nat :=
  ([[6, 9, 9, 9, 9, 9, 6], [2, 6, 2, 2, 2, 2, 7], [6, 9, 1, 2, 4, 8, 15], [14, 1, 1, 6, 1, 1, 14],
    [2, 6, 10, 10, 15, 2, 2], [15, 8, 14, 1, 1, 9, 6], [6, 8, 8, 14, 9, 9, 6], [15, 1, 2, 2, 4, 4, 4],
    [6, 9, 9, 6, 9, 9, 6], [6, 9, 9, 7, 1, 1, 6], [0, 0, 4, 14, 4, 0, 0]].getD c []).getD row 0

/-- text(secs) of R399, as font characters. -/
def secsText (secs : Nat) : List Nat :=
  if 99 < secs then [9, 9, 10] else if 9 < secs then [secs / 10, secs % 10] else [secs]

/-- secs of R400 from an age in 0.1 ms. -/
def ageSecs (age : Nat) : Nat := (age + 9999) / 10000

/-- The stale card over the rectangle [x0, x1) × [y0, y1) (R402). -/
def staleCard (secs x0 y0 x1 y1 x y : Nat) : Pix :=
  let t := secsText secs
  let width := 16 * t.length + 4 * (t.length - 1)
  let ox : Int := (x0 : Int) + ((x1 : Int) - x0 - width) / 2
  let oy : Int := (y0 : Int) + ((y1 : Int) - y0 - 28) / 2
  let tx := (x : Int) - ox
  let ty := (y : Int) - oy
  let lit :=
    if 0 ≤ tx ∧ tx < width ∧ 0 ≤ ty ∧ ty < 28 then
      let k := tx.toNat / 20
      let cx := tx.toNat % 20
      decide (cx < 16) && (fontRow (t.getD k 0) (ty.toNat / 4)).testBit (3 - cx / 4)
    else false
  if lit then { r := 4095, g := 4095, b := 4095, a := 4095 }
  else if band x y = 0 then { r := 2560, g := 2176, b := 1536, a := 4095 }
  else { r := 1536, g := 1280, b := 896, a := 4095 }

/-- An 8-bit R'G'B' triple as a working pixel (R398). -/
def rgb8 (r g b : Nat) : Pix := { r := rep8 r, g := rep8 g, b := rep8 b, a := 4095 }

/-- Is a glyph's text lit at glyph coordinates (x, y)? (R399) -/
def textPixel (secs x y : Nat) : Bool :=
  let t := secsText secs
  let k := (x - 2) / 10
  let cx := (x - 2) % 10
  if 2 < k ∨ 7 < cx ∨ k < 3 - t.length then false
  else (fontRow (t.getD (k - (3 - t.length)) 0) ((y - 16) / 2)).testBit (3 - cx / 2)

/-- A glyph pixel as 8-bit R'G'B' (R399). -/
def glyph8 (state : Fresh) (phase secs x y : Nat) : Nat × Nat × Nat :=
  if x = 0 ∨ x = 31 ∨ y = 0 ∨ y = 31 then (0, 0, 0)
  else if x = 1 ∨ x = 30 ∨ y = 1 ∨ y = 30 then (255, 255, 255)
  else
    let q := if y ≤ 15 then (if 15 < x then 1 else 0) else (if 15 < x then 2 else 3)
    match state with
    | .live => if q = phase then (0, 208, 64) else (40, 40, 40)
    | .late => if q = 0 ∨ q = 2 then (240, 200, 0) else (40, 40, 40)
    | .stale =>
      if y ≤ 13 then (255, 136, 0)
      else if y ≤ 15 then (0, 0, 0)
      else if textPixel secs x y then (255, 136, 0) else (0, 0, 0)
    | .frozen => if (10 ≤ x ∧ x ≤ 13) ∨ (18 ≤ x ∧ x ≤ 21) then (0, 0, 0) else (64, 160, 255)
    | .failed =>
      if (x : Int) - y ≤ 1 ∧ (y : Int) - x ≤ 1 ∨ x + y ≤ 32 ∧ 30 ≤ x + y then (255, 255, 255) else (224, 0, 0)
    | .unknown => if 12 ≤ x ∧ x ≤ 19 ∧ 12 ≤ y ∧ y ≤ 19 then (0, 0, 0) else (128, 128, 128)

/-- A glyph pixel in the working space (R398, R399). -/
def glyphPix (state : Fresh) (phase secs x y : Nat) : Pix :=
  let c := glyph8 state phase secs x y
  rgb8 c.1 c.2.1 c.2.2

/-- The startup card of a W × H raster, without its glyphs (R403). -/
def startupCard (w h x y : Nat) : Pix :=
  if x % 128 < 2 ∨ y % 128 < 2 ∨ w - 2 ≤ x ∨ h - 2 ≤ y then { r := 2048, g := 2048, b := 2048, a := 4095 }
  else { r := 0, g := 0, b := 0, a := 4095 }

/-! ### Output conversion (R346 to R348) -/

/-- Component `p` of a converted pixel at 12 bits; plane 0 of ARGB is alpha. -/
def convComp (c : OutConv) (px : Pix) (p : Nat) : Nat :=
  let (x, y, z) := c.csc.convert px.r px.g px.b
  if c.fmt = 0x0B then
    match p with
    | 0 => px.a | 1 => x | 2 => y | _ => z
  else
    match p with
    | 0 => x | 1 => y | _ => z

/-- Sample (x, y) of plane `p` of a `w` × `h` canvas of working pixels, in the destination format (R346 to R348). -/
def convSample (c : OutConv) (px : Nat → Nat → Pix) (w h p x y : Nat) : Nat :=
  let d := Fmt.depth c.fmt
  if Fmt.chroma c.fmt p && Fmt.halfH c.fmt then
    let col := fun (l : Nat) =>
      let v := fun (i : Int) => convComp c (px (clampI 0 ((w : Int) - 1) i).toNat l) p
      (v (2 * (x : Int) - 1) + 2 * v (2 * x) + v (2 * x + 1) + 2) / 4
    let v := if Fmt.halfV c.fmt then (col (2 * y) + col (min (2 * y + 1) (h - 1)) + 1) / 2 else col y
    reduce12 v d (c.csc.shift.getD p false) c.dither (2 * x) (if Fmt.halfV c.fmt then 2 * y else y)
  else if c.fmt = 0x0B then
    if p = 0 then reduce12 (convComp c (px x y) 0) d false false x y
    else reduce12 (convComp c (px x y) p) d (c.csc.shift.getD (p - 1) false) c.dither x y
  else reduce12 (convComp c (px x y) p) d (c.csc.shift.getD p false) c.dither x y

end Sys2Proof.Machine
end

