-- ==== Sys2Proof/Machine/Rom.lean ====
section
/-!
DEFINITION. Machine/Rom.lean: the fixed scaler coefficient sets of R374, variant by variant, as numbers of 16-bit
fields. Each coefficient is the formula of R374 evaluated in double precision and rounded half away from zero; the tap
of largest magnitude takes the remainder to 4096.
-/
namespace Sys2Proof.Machine

/-- Set 1 of R374, variant of 4 taps: coefficient c[ph][j] in bits [16(Tph + j) + 15 : 16(Tph + j)]. -/
def Rom.cubic4 : Nat := 0xFFE10FFD00220000FFC40FF60048FFFEFFA90FEA0071FFFCFF8F0FDA009FFFF8FF780FC500CFFFF4FF620FAB0103FFF0FF4E0F8E013AFFEAFF3C0F6C0174FFE4FF2B0F4701B1FFDDFF1C0F1D01F1FFD6FF0F0EF00233FFCEFF020EC10278FFC5FEF80E8C02BFFFBDFEEF0E560308FFB3FEE70E1C0353FFAAFEE00DE003A0FFA0FEDB0DA003EFFF96FED60D5F043FFF8CFED30D1B0491FF81FED10CD404E5FF76FED10C8A0539FF6CFED10C40058EFF61FED20BF205E5FF57FED40BA4063CFF4CFED70B530694FF42FEDB0B0206ECFF37FEDF0AAF0745FF2DFEE40A5B079EFF23FEEA0A0607F6FF1AFEF109AF084FFF11FEF8095808A8FF08FF0009000900FF00FF0808A80958FEF8FF11084F09AFFEF1FF1A07F60A06FEEAFF23079E0A5BFEE4FF2D07450AAFFEDFFF3706EC0B02FEDBFF4206940B53FED7FF4C063C0BA4FED4FF5705E50BF2FED2FF61058E0C40FED1FF6C05390C8AFED1FF7604E50CD4FED1FF8104910D1BFED3FF8C043F0D5FFED6FF9603EF0DA0FEDBFFA003A00DE0FEE0FFAA03530E1CFEE7FFB303080E56FEEFFFBD02BF0E8CFEF8FFC502780EC1FF02FFCE02330EF0FF0FFFD601F10F1DFF1CFFDD01B10F47FF2BFFE401740F6CFF3CFFEA013A0F8EFF4EFFF001030FABFF62FFF400CF0FC5FF78FFF8009F0FDAFF8FFFFC00710FEAFFA9FFFE00480FF6FFC4000000220FFDFFE10000000010000000

/-- Set 1 of R374, variant of 3 taps: coefficient c[ph][j] in bits [16(Tph + j) + 15 : 16(Tph + j)]. -/
def Rom.cubic3 : Nat := 0xFDE002200000FBB0047FFFE0F95006FFFFC0F6D009AFFF90F4300C8FFF50F1700F9FFF00EE8012DFFEB0EB80163FFE50E85019CFFDF0E5201D6FFD80E1C0213FFD10DE40253FFC90DAB0294FFC10D7102D7FFB80D35031CFFAF0CF70363FFA60CB703ACFF9D0C7703F6FF930C350441FF8A0BF2048EFF800BAD04DDFF760B68052CFF6C0B21057DFF620AD905CFFF580A900622FF4E0A450676FF4509FB06CAFF3B09AF071FFF3209620775FF29091507CBFF2008C70822FF1708780879FF0F082908D0FF0707DA0926FF00078A097DFEF9073A09D3FEF306EA0A29FEED06990A7FFEE806490AD3FEE405F90B26FEE105A90B79FEDE05590BCBFEDC050A0C1BFEDB04BC0C69FEDB046E0CB6FEDC04210D00FEDF03D50D49FEE2038B0D8EFEE703410DD3FEEC02F90E13FEF402B30E51FEFC026F0E8BFF06022C0EC2FF1201EC0EF5FF1F01AD0F26FF2D01710F52FF3D01380F79FF4F01020F9BFF6300CE0FBAFF78009E0FD2FF9000710FE6FFA900480FF4FFC400220FFDFFE1000010000000

/-- Set 1 of R374, variant of 2 taps: coefficient c[ph][j] in bits [16(Tph + j) + 15 : 16(Tph + j)]. -/
def Rom.cubic2 : Nat := 0xFDE00220FB900470F91006F0F66009A0F3800C80F0800F80ED5012B0E9F01610E6801980E2E01D20DF3020D0DB5024B0D76028A0D3502CB0CF3030D0CB003500C6B03950C2403DC0BDD04230B95046B0B4C04B40B0204FE0AB705490A6B05950A1F05E109D3062D0986067A093806C808EA0716089C0764084E07B20800080007B2084E0764089C071608EA06C80938067A0986062D09D305E10A1F05950A6B05490AB704FE0B0204B40B4C046B0B9504230BDD03DC0C2403950C6B03500CB0030D0CF302CB0D35028A0D76024B0DB5020D0DF301D20E2E01980E6801610E9F012B0ED500F80F0800C80F38009A0F66006F0F9100470FB900220FDE00001000

/-- Set 3 of R374, variant of 8 taps: coefficient c[ph][j] in bits [16(Tph + j) + 15 : 16(Tph + j)]. -/
def Rom.lanczos8 : Nat := 0xFFFA0014FFC70FFE003BFFEB00070000FFF40027FF910FF90078FFD6000D0000FFEE003AFF5D0FF200B6FFC00014FFFFFFE9004CFF2B0FE400F7FFAA001CFFFFFFE4005DFEFC0FD5013AFF930023FFFEFFDF006EFECF0FC0017FFF7C002BFFFEFFDB007DFEA40FAA01C6FF640033FFFDFFD7008CFE7C0F90020EFF4C003BFFFCFFD3009AFE560F720258FF340044FFFBFFD000A7FE330F5002A4FF1C004CFFFAFFCD00B3FE120F2D02F1FF030055FFF8FFCA00BEFDF30F050340FEEB005EFFF7FFC800C9FDD70EDC038FFED20066FFF5FFC600D3FDBD0EAF03E0FEB9006FFFF3FFC400DBFDA50E7E0433FEA10078FFF2FFC200E3FD900E4B0486FE890081FFF0FFC100EAFD7D0E1504DAFE71008AFFEEFFC000F0FD6D0DDD052FFE590092FFECFFC000F5FD5E0DA20585FE41009BFFEAFFBF00FAFD520D6405DBFE2B00A4FFE7FFBF00FEFD480D250631FE1400ACFFE5FFC00100FD400CE20688FDFF00B4FFE3FFC00102FD3A0C9D06E0FDEA00BCFFE1FFC10104FD360C570737FDD500C4FFDEFFC20104FD340C0F078EFDC200CBFFDCFFC30104FD340BC507E5FDAF00D2FFDAFFC40103FD360B79083CFD9E00D9FFD7FFC50101FD390B2B0893FD8E00E0FFD5FFC700FFFD3F0ADB08E9FD7E00E6FFD3FFC800FCFD460A8D093EFD7000EBFFD0FFCA00F9FD4E0A3B0993FD6300F0FFCEFFCC00F5FD5809E709E7FD5800F5FFCCFFCE00F0FD6309930A3BFD4E00F9FFCAFFD000EBFD70093E0A8DFD4600FCFFC8FFD300E6FD7E08E90ADBFD3F00FFFFC7FFD500E0FD8E08930B2BFD390101FFC5FFD700D9FD9E083C0B79FD360103FFC4FFDA00D2FDAF07E50BC5FD340104FFC3FFDC00CBFDC2078E0C0FFD340104FFC2FFDE00C4FDD507370C57FD360104FFC1FFE100BCFDEA06E00C9DFD3A0102FFC0FFE300B4FDFF06880CE2FD400100FFC0FFE500ACFE1406310D25FD4800FEFFBFFFE700A4FE2B05DB0D64FD5200FAFFBFFFEA009BFE4105850DA2FD5E00F5FFC0FFEC0092FE59052F0DDDFD6D00F0FFC0FFEE008AFE7104DA0E15FD7D00EAFFC1FFF00081FE8904860E4BFD9000E3FFC2FFF20078FEA104330E7EFDA500DBFFC4FFF3006FFEB903E00EAFFDBD00D3FFC6FFF50066FED2038F0EDCFDD700C9FFC8FFF7005EFEEB03400F05FDF300BEFFCAFFF80055FF0302F10F2DFE1200B3FFCDFFFA004CFF1C02A40F50FE3300A7FFD0FFFB0044FF3402580F72FE56009AFFD3FFFC003BFF4C020E0F90FE7C008CFFD7FFFD0033FF6401C60FAAFEA4007DFFDBFFFE002BFF7C017F0FC0FECF006EFFDFFFFE0023FF93013A0FD5FEFC005DFFE4FFFF001CFFAA00F70FE4FF2B004CFFE9FFFF0014FFC000B60FF2FF5D003AFFEE0000000DFFD600780FF9FF910027FFF400000007FFEB003B0FFEFFC70014FFFA00000000000000001000000000000000

/-- Set 3 of R374, variant of 6 taps: coefficient c[ph][j] in bits [16(Tph + j) + 15 : 16(Tph + j)]. -/
def Rom.lanczos6 : Nat := 0xDFFCC0FFF0036FFF200000019FF9B0FFA006EFFE400000025FF6C0FF000A9FFD50001002FFF3F0FE400E6FFC60002003AFF150FD30125FFB600030043FEED0FC10166FFA50004004CFEC70FAA01A9FF9400060054FEA40F8F01EEFF830008005BFE830F720235FF71000A0062FE650F51027EFF5E000C0068FE480F2E02C9FF4B000E006DFE2F0F060315FF3800110071FE170EDC0363FF2500140075FE020EAE03B3FF1100170079FDEF0E7C0404FEFD001B007BFDDE0E4A0456FEE9001E007DFDCF0E1204AAFED60022007FFDC30DD804FEFEC200260080FDB90D9B0554FEAE002A0080FDB00D5E05AAFE9A002E0080FDAA0D1C0601FE860033007FFDA50CD90659FE730037007EFDA30C9206B1FE60003C007DFDA20C49070AFE4E0040007BFDA30BFF0762FE3C00450078FDA50BB407BBFE2B00490076FDA90B650814FE1A004E0073FDAF0B15086CFE0A00530070FDB60AC408C4FDFB0057006CFDBF0A70091CFDED005C0068FDC80A1E0972FDE000600064FDD309C809CAFDD300640060FDE009720A1EFDC80068005CFDED091C0A70FDBF006C0057FDFB08C40AC4FDB600700053FE0A086C0B15FDAF0073004EFE1A08140B65FDA900760049FE2B07BB0BB4FDA500780045FE3C07620BFFFDA3007B0040FE4E070A0C49FDA2007D003CFE6006B10C92FDA3007E0037FE7306590CD9FDA5007F0033FE8606010D1CFDAA0080002EFE9A05AA0D5EFDB00080002AFEAE05540D9BFDB900800026FEC204FE0DD8FDC3007F0022FED604AA0E12FDCF007D001EFEE904560E4AFDDE007B001BFEFD04040E7CFDEF00790017FF1103B30EAEFE0200750014FF2503630EDCFE1700710011FF3803150F06FE2F006D000EFF4B02C90F2EFE480068000CFF5E027E0F51FE650062000AFF7102350F72FE83005B0008FF8301EE0F8FFEA400540006FF9401A90FAAFEC7004C0004FFA501660FC1FEED00430003FFB601250FD3FF15003A0002FFC600E60FE4FF3F002F0001FFD500A90FF0FF6C00250000FFE4006E0FFAFF9B00190000FFF200360FFFFFCC000D000000000000100000000000

/-- Set 3 of R374, variant of 4 taps: coefficient c[ph][j] in bits [16(Tph + j) + 15 : 16(Tph + j)]. -/
def Rom.lanczos4 : Nat := 0xFFD90FFD002A0000FFB40FF60057FFFFFF910FEB0086FFFEFF710FDC00B7FFFCFF540FC800EBFFF9FF390FAF0122FFF6FF210F92015AFFF3FF0B0F710196FFEEFEF70F4C01D3FFEAFEE50F240213FFE4FED60EF80254FFDEFEC90EC70298FFD8FEBE0E9402DEFFD0FEB50E5C0326FFC9FEAE0E23036FFFC0FEA80DE703BAFFB7FEA50DA60407FFAEFEA30D630456FFA4FEA20D1F04A5FF9AFEA30CD804F6FF8FFEA60C8D0549FF84FEA90C42059CFF79FEAE0BF405F1FF6DFEB40BA50646FF61FEBB0B54069CFF55FEC30B0106F3FF49FECC0AAD074AFF3DFED50A5A07A1FF30FEDF0A0407F9FF24FEEA09AD0851FF18FEF5095708A8FF0CFF0009000900FF00FF0C08A80957FEF5FF18085109ADFEEAFF2407F90A04FEDFFF3007A10A5AFED5FF3D074A0AADFECCFF4906F30B01FEC3FF55069C0B54FEBBFF6106460BA5FEB4FF6D05F10BF4FEAEFF79059C0C42FEA9FF8405490C8DFEA6FF8F04F60CD8FEA3FF9A04A50D1FFEA2FFA404560D63FEA3FFAE04070DA6FEA5FFB703BA0DE7FEA8FFC0036F0E23FEAEFFC903260E5CFEB5FFD002DE0E94FEBEFFD802980EC7FEC9FFDE02540EF8FED6FFE402130F24FEE5FFEA01D30F4CFEF7FFEE01960F71FF0BFFF3015A0F92FF21FFF601220FAFFF39FFF900EB0FC8FF54FFFC00B70FDCFF71FFFE00860FEBFF91FFFF00570FF6FFB40000002A0FFDFFD90000000010000000

/-- Set 3 of R374, variant of 3 taps: coefficient c[ph][j] in bits [16(Tph + j) + 15 : 16(Tph + j)]. -/
def Rom.lanczos3 : Nat := 0xFE4001C00000FC6003A00000FA6005A00000F83007D00000F5E00A200000F3600CA00000F0B00F500000EDE012200000EAE015200000E7C018400000E4701B900000E0F01F100000DD5022B00000D98026800000D5902A700000D1702E900000CD3032D00000C8D037300000C4403BC00000BF9040700000BAC045400000B5D04A300000B0C04F400000ABA054600000A66059A00000A1105EF000009BA064600000963069D0000090B06F5000008B2074E0000085907A7000008000800000007AB085EFFF7075608BCFFEE0701091AFFE506AC0979FFDB065809D7FFD106040A35FFC705B10A91FFBE055F0AEDFFB4050E0B48FFAA04BF0BA0FFA104700BF8FF9804240C4CFF9003D80CA0FF88038F0CF0FF8103470D3EFF7B03020D89FF7502BF0DD0FF71027E0E14FF6E023F0E55FF6C02030E91FF6C01C90ECAFF6D01920EFEFF70015D0F2EFF75012B0F5AFF7B00FC0F80FF8400D00FA1FF8F00A60FBEFF9C00800FD5FFAB005C0FE8FFBC003A0FF6FFD0001C0FFDFFE7000010000000

/-- Set 3 of R374, variant of 2 taps: coefficient c[ph][j] in bits [16(Tph + j) + 15 : 16(Tph + j)]. -/
def Rom.lanczos2 : Nat := 0xFFF00010FFC00040FF6000A0FEE00120FE3001D0FD5002B0FC3003D0FAE00520F95006B0F7800880F5700A90F3100CF0F0600FA0ED6012A0EA1015F0E66019A0E2601DA0DE002200D94026C0D4302BD0CEB03150C8E03720C2C03D40BC4043C0B5704A90AE6051A0A71058F09F80608097D068308FF0701088007800800080007800880070108FF0683097D060809F8058F0A71051A0AE604A90B57043C0BC403D40C2C03720C8E03150CEB02BD0D43026C0D9402200DE001DA0E26019A0E66015F0EA1012A0ED600FA0F0600CF0F3100A90F5700880F78006B0F9500520FAE003D0FC3002B0FD5001D0FE300120FEE000A0FF600040FFC00010FFF00001000

/-- Set 4 of R374, variant of 8 taps: coefficient c[ph][j] in bits [16(Tph + j) + 15 : 16(Tph + j)]. -/
def Rom.soft8 : Nat := 0x7009403C1071703E600A0000700000006008E03AE071703F900A60008000000060089039B0716040C00AC000800000006008303880714041F00B3000900000005007E03760712043200BA00090000000500790364070D044600C1000A0000000500740351070B045900C8000A000000040070033F0707046C00CF000B00000004006B032D0702047F00D7000C000000040067031B06FD049200DF000C000000040063030A06F604A500E7000D00000003005F02F806F104B800EF000E00000003005B02E706EA04CB00F7000F00000003005702D606E304DE0100000F00000003005302C506DC04F00109001000000003005002B406D305030112001100000003004C02A306CA0516011C0012000000020049029306C2052801250013000000020046028306B8053A012F0014000000020043027306AE054C01390015000000020040026306A4055E0143001600000002003D025406980570014E001700000002003A0244068C0581015900190001000200380235067F05930164001A0001000200350226067405A4016F001B0001000100330218066605B5017B001D0001000100310209065B05C50186001E00010001002E01FB064D05D60192002000010001002C01ED063F05E6019F002100010001002A01DF063205F501AB002300010001002801D20622060501B8002500010001002601C50614061401C5002600010001002501B80605062201D2002800010001002301AB05F5063201DF002A000100010021019F05E6063F01ED002C000100010020019205D6064D01FB002E00010001001E018605C5065B0209003100010001001D017B05B506660218003300010001001B016F05A406740226003500020001001A01640593067F0235003800020001001901590581068C0244003A000200000017014E057006980254003D0002000000160143055E06A4026300400002000000150139054C06AE02730043000200000014012F053A06B8028300460002000000130125052806C202930049000200000012011C051606CA02A3004C0003000000110112050306D302B40050000300000010010904F006DC02C5005300030000000F010004DE06E302D6005700030000000F00F704CB06EA02E7005B00030000000E00EF04B806F102F8005F00030000000D00E704A506F6030A006300040000000C00DF049206FD031B006700040000000C00D7047F0702032D006B00040000000B00CF046C0707033F007000040000000A00C80459070B0351007400050000000A00C10446070D0364007900050000000900BA043207120376007E00050000000900B3041F07140388008300060000000800AC040C0716039B008900060000000800A603F9071703AE008E00060000000700A003E6071703C10094000700000007009A03D3071803D3009A0007

/-- Set 4 of R374, variant of 6 taps: coefficient c[ph][j] in bits [16(Tph + j) + 15 : 16(Tph + j)]. -/
def Rom.soft6 : Nat := 0x9403C2071B03E800A00007008E03AF071A03FB00A600080089039C0718040E00AD00080084038A0715042100B30009007E03770714043400BA0009007903650710044700C1000A00750352070D045A00C8000A007003400708046D00D0000B006B032E0704048000D7000C0067031C06FF049300DF000C0063030B06F804A600E7000D005F02F906F204B900EF000E005B02E806EA04CC00F8000F005702D606E504DF0100000F005302C506DE04F101090010005002B506D4050401120011004C02A406CC0516011C00120049029406C20529012500130046028306B9053B012F00140043027306AF054D013900150040026406A3055F01440016003D025406990571014E0017003A0245068D05820159001900380235068205930164001A00350227067605A4016F001B00330218066805B5017B001D00310209065C05C60186001E002E01FB064F05D601920020002C01ED064105E6019F0021002A01E0063205F601AB0023002801D20623060601B80025002601C50615061501C50026002501B80606062301D20028002301AB05F6063201E0002A0021019F05E6064101ED002C0020019205D6064F01FB002E001E018605C6065C02090031001D017B05B5066802180033001B016F05A4067602270035001A01640593068202350038001901590582068D0245003A0017014E057106990254003D00160144055F06A30264004000150139054D06AF027300430014012F053B06B90283004600130125052906C2029400490012011C051606CC02A4004C00110112050406D402B500500010010904F106DE02C50053000F010004DF06E502D60057000F00F804CC06EA02E8005B000E00EF04B906F202F9005F000D00E704A606F8030B0063000C00DF049306FF031C0067000C00D704800704032E006B000B00D0046D070803400070000A00C8045A070D03520075000A00C10447071003650079000900BA043407140377007E000900B304210715038A0084000800AD040E0718039C0089000800A603FB071A03AF008E000700A003E8071B03C200940007009A03D5071B03D5009A

/-- Set 4 of R374, variant of 4 taps: coefficient c[ph][j] in bits [16(Tph + j) + 15 : 16(Tph + j)]. -/
def Rom.soft4 : Nat := 0x3E80763040F00A603D3075E042200AD03BE075B043400B303AA0756044600BA03960751045900C00381074D046B00C7036E0745047E00CF035A0740049000D60347073804A300DE0333073304B500E50320072B04C800ED030E072204DA00F602FB071B04EC00FE02E9071104FF010702D707080511011002C506FF0523011902B406F50535012202A306EA0547012C029206DF05590136028106D4056B0140027106C8057C014B026006BD058E0155025106B0059F0160024106A405B0016B0232069605C101770223068905D201820214067B05E3018E0205066E05F3019A01F7065F060301A701E90651061301B301DB0642062301C001CE0632063201CE01C00623064201DB01B30613065101E901A70603065F01F7019A05F3066E0205018E05E3067B0214018205D206890223017705C106960232016B05B006A402410160059F06B002510155058E06BD0260014B057C06C802710140056B06D402810136055906DF0292012C054706EA02A30122053506F502B40119052306FF02C501100511070802D7010704FF071102E900FE04EC071B02FB00F604DA0722030E00ED04C8072B032000E504B50733033300DE04A30738034700D604900740035A00CF047E0745036E00C7046B074D038100C004590751039600BA0446075603AA00B30434075B03BE00AD0422075E03D300A6040F076303E800A003FD076603FD

/-- Set 4 of R374, variant of 3 taps: coefficient c[ph][j] in bits [16(Tph + j) + 15 : 16(Tph + j)]. -/
def Rom.soft3 : Nat := 0x9C5055F00DC09AF056E00E30999057D00EA0984058B00F1096E059A00F8095805A900FF094205B70107092B05C6010F091505D4011708FF05E2011F08E805F1012708D105FF013008BB060D013808A4061B0141088C0629014B087506370154085F0644015D0847065201670830065F01710818066C017C08010679018607E90686019107D10693019C07BA069F01A707A206AC01B2078A06B801BE077306C401C9075B06CF01D6074306DB01E2072C06E601EE071406F101FB06FC06FC020806E40707021506CC0711022306B5071A0231069D0724023F0685072E024D066D0738025B06560740026A063E07490279062707510288060F0759029805F8076102A705E0076902B705C9076F02C805B2077602D8059B077C02E90584078202FA056D0788030B0556078E031C05400792032E0529079703400513079B035204FD079F036404E607A4037604D107A6038904BB07A9039C04A507AC03AF049007AD03C3047A07B003D6046507B103EA045007B203FE043B07B30412042707B20427

/-- Set 4 of R374, variant of 2 taps: coefficient c[ph][j] in bits [16(Tph + j) + 15 : 16(Tph + j)]. -/
def Rom.soft2 : Nat := 0xA5305AD0A4105BF0A2E05D20A1C05E40A0A05F609F7060909E4061C09D2062E09BF064109AC0654099906670986067A0973068D096006A0094D06B3093A06C6092606DA091306ED08FF070108EC071408D8072808C5073B08B1074F089E0762088A07760876078A0863079D084F07B1083B07C5082807D8081407EC0800080007EC081407D8082807C5083B07B1084F079D0863078A08760776088A0762089E074F08B1073B08C5072808D8071408EC070108FF06ED091306DA092606C6093A06B3094D06A00960068D0973067A098606670999065409AC064109BF062E09D2061C09E4060909F705F60A0A05E40A1C05D20A2E05BF0A4105AD0A53059B0A65

/-- Set 0 of R374, variant of 2 taps: coefficient c[ph][j] in bits [16(Tph + j) + 15 : 16(Tph + j)]. -/
def Rom.bilinear2 : Nat := 0xFC000400F8000800F4000C00F0001000EC001400E8001800E4001C00E0002000DC002400D8002800D4002C00D0003000CC003400C8003800C4003C00C0004000BC004400B8004800B4004C00B0005000AC005400A8005800A4005C00A00060009C0064009800680094006C00900070008C0074008800780084007C00800080007C0084007800880074008C00700090006C0094006800980064009C006000A0005C00A4005800A8005400AC005000B0004C00B4004800B8004400BC004000C0003C00C4003800C8003400CC003000D0002C00D4002800D8002400DC002000E0001C00E4001800E8001400EC001000F0000C00F4000800F8000400FC000001000

/-- Set 5 of R374, variant of 2 taps: coefficient c[ph][j] in bits [16(Tph + j) + 15 : 16(Tph + j)]. -/
def Rom.nearest2 : Nat := 0x10000000100000001000000010000000100000001000000010000000100000001000000010000000100000001000000010000000100000001000000010000000100000001000000010000000100000001000000010000000100000001000000010000000100000001000000010000000100000001000000010000000100000000000100000001000000010000000100000001000000010000000100000001000000010000000100000001000000010000000100000001000000010000000100000001000000010000000100000001000000010000000100000001000000010000000100000001000000010000000100000001000000010000000100000001000

/-- The packed variant of `t` taps of fixed set `k`, none where the set holds no such variant (R370, R374). -/
def Rom.variant (k t : Nat) : Option Nat :=
  match k, t with
  | 0, 2 => some Rom.bilinear2
  | 1, 4 => some Rom.cubic4 | 1, 3 => some Rom.cubic3 | 1, 2 => some Rom.cubic2
  | 2, 6 => some Rom.lanczos6 | 2, 4 => some Rom.lanczos4 | 2, 3 => some Rom.lanczos3 | 2, 2 => some Rom.lanczos2
  | 3, 8 => some Rom.lanczos8 | 3, 6 => some Rom.lanczos6 | 3, 4 => some Rom.lanczos4 | 3, 3 => some Rom.lanczos3
  | 3, 2 => some Rom.lanczos2
  | 4, 8 => some Rom.soft8 | 4, 6 => some Rom.soft6 | 4, 4 => some Rom.soft4 | 4, 3 => some Rom.soft3
  | 4, 2 => some Rom.soft2
  | 5, 2 => some Rom.nearest2
  | _, _ => none

/-- Coefficient field `n` of a packed variant, as the 16-bit field. -/
def Rom.field (v n : Nat) : Nat := v / 2 ^ (16 * n) % 65536

end Sys2Proof.Machine
end

