-- ==== Sys2Proof/Machine/Scale.lean ====
section
/-!
DEFINITION. Machine/Scale.lean: the arithmetic of the composition scalers (R366 to R375, R377) and the pixel function
of a frame plan (R340, R349 to R353).
-/
namespace Sys2Proof.Machine

/-! ### Coefficient sets (R370 to R375) -/

/-- BAR0 offset of coefficient set `k`. -/
def coefBase (k : Nat) : Nat := 0x28_0000 + 4096 * k

/-- The tap counts a set may have, largest first. -/
def tapCounts : List Nat := [8, 6, 4, 3, 2]

/-- Offset of the variant of `t` taps within a set (R372). -/
def variantOff (t : Nat) : Nat :=
  match t with
  | 8 => 64 | 6 => 1088 | 4 => 1856 | 3 => 2368 | _ => 2752

/-- TAPS code of SCL.SET_STATUS. -/
def tapsCode (t : Nat) : Nat :=
  match t with
  | 2 => 1 | 3 => 2 | 4 => 3 | 6 => 4 | 8 => 5 | _ => 0

/-- Tap count of a TAPS code. -/
def codeTaps (c : Nat) : Nat :=
  match c with
  | 1 => 2 | 2 => 3 | 3 => 4 | 4 => 6 | 5 => 8 | _ => 0

/-- The set is valid: VALID of SCL.SET_STATUS. -/
def State.setValid (s : State) (k : Nat) : Bool := decide (k < 128) && s.bit (Reg.SCL_SET_STATUS (k / 8)) (4 * (k % 8) + 3)

/-- Taps of set `k`: TAPS of SCL.SET_STATUS. -/
def State.setTaps (s : State) (k : Nat) : Nat :=
  if k < 128 then codeTaps (s.fld (Reg.SCL_SET_STATUS (k / 8)) (4 * (k % 8) + 2) (4 * (k % 8))) else 0

/-- Halfword `n` of the coefficient window of set `k`: ROM for sets 0 to 5, zero for 6 and 7, the window's content
otherwise (R372). `n` counts from the start of the variant of `t` taps. -/
def State.coefField (s : State) (k t n : Nat) : Nat :=
  if k < 6 then
    match Rom.variant k t with
    | some v => Rom.field v n
    | none => 0
  else if k < 8 then 0
  else
    let o := coefBase k + variantOff t + 2 * n
    s.fld (o / 4 * 4) (if o % 4 = 0 then 15 else 31) (if o % 4 = 0 then 0 else 16)

/-- The rows of the variant of `t` taps of set `k`. -/
def State.coefRows (s : State) (k t : Nat) : List (List Int) :=
  (List.range 64).map fun ph => (List.range t).map fun j => signedN 16 (s.coefField k t (t * ph + j))

/-- The rule of R371: every coefficient in range, every row of sum 4096. -/
def rowsOk (rows : List (List Int)) : Bool :=
  rows.all fun r => (r.all fun c => decide (-4096 ≤ c) && decide (c ≤ 8191)) && decide (r.foldl (· + ·) 0 = 4096)

/-- Phase 0 of the variant is the unit impulse (R377). -/
def impulse (rows : List (List Int)) (t : Nat) : Bool :=
  (List.range t).all fun j => (rows.getD 0 []).getD j 0 == if j = (t - 1) / 2 then 4096 else 0

/-! ### Placement and filtering (R367, R368) -/

/-- The planes `place` distinguishes. -/
inductive PlaceKind where
  | luma
  | chromaH
  | chromaV420
  deriving DecidableEq, Repr

/-- Sample index and phase of destination pixel `i` along one axis (R367). -/
def place (i : Int) (a : Axis) (k : PlaceKind) : Int × Nat :=
  let num0 : Int := (2 * i + 1) * a.s - a.d + 2 * a.d * a.c
  let num := if k = .chromaV420 then num0 - a.d else num0
  let den : Int := if k = .luma then 2 * a.d else 4 * a.d
  let n := num / den
  let ph := ((num - n * den) * 64 + den / 2) / den
  if ph = 64 then (n + 1, 0) else (n, ph.toNat)

/-- First and last sample of a plane inside the crop (R368). -/
def Axis.bounds (a : Axis) (k : PlaceKind) : Int × Int :=
  if k = .luma then ((a.c : Int), (a.c : Int) + a.s - 1)
  else ((a.c : Int) / 2, ((a.c : Int) + a.s - 1) / 2)

/-- The samples a T-tap pass reads for destination pixel `i`, with their coefficients, edges repeated (R368). -/
def Axis.tapsAt (a : Axis) (k : PlaceKind) (i : Int) : List (Nat × Int) :=
  let (n, ph) := place i a k
  let (lo, hi) := a.bounds k
  let row := a.coef.getD ph []
  (List.range a.taps).map fun (j : Nat) =>
    ((min hi (max lo (n + (Int.ofNat j) - ((a.taps : Int) - 1) / 2))).toNat, row.getD j 0)

/-- The lines the vertical pass reads: its taps, or one line in pass-through (R377, R340). -/
def Axis.linesAt (a : Axis) (k : PlaceKind) (i : Int) : List (Nat × Int) :=
  if a.pass then
    let l := ((a.c : Int) + i).toNat
    [(if k = .luma then l else l / 2, 4096)]
  else a.tapsAt k i

/-- One filter sum, rounded and clipped to 12 bits (R368). -/
def filtSum (l : List (Nat × Int)) (v : Nat → Nat) : Nat :=
  (clampI 0 4095 ((l.foldl (fun acc t => acc + t.2 * (v t.1 : Int)) 0 + 2048) / 4096)).toNat

/-! ### Layer samples -/

/-- How plane `p` of a format lies against luma, horizontally and vertically. -/
def planeKinds (fmt p : Nat) : PlaceKind × PlaceKind :=
  (if Fmt.chroma fmt p && Fmt.halfH fmt then .chromaH else .luma,
   if Fmt.chroma fmt p && Fmt.halfV fmt then .chromaV420 else .luma)

/-- The samples of plane `p` that pixel (i, j) of a layer's destination is computed from (R340, R366). -/
def DrawLayer.taps (l : DrawLayer) (fmt p : Nat) (i j : Int) : List (Nat × Nat) :=
  let (kh, kv) := planeKinds fmt p
  if l.scaled then
    (l.v.linesAt kv j).flatMap fun y => (l.h.tapsAt kh i).map fun x => (x.1, y.1)
  else
    let x := ((l.h.c : Int) + i).toNat
    let y := ((l.v.c : Int) + j).toNat
    [(if kh = .luma then x else x / 2, if kv = .luma then y else y / 2)]

/-- The value of plane `p` of a layer at pixel (i, j) of its destination, from 12-bit samples `get x y` (R340, R366):
horizontal pass, then vertical pass, each rounded and clipped. -/
def DrawLayer.value (l : DrawLayer) (fmt p : Nat) (get : Nat → Nat → Nat) (i j : Int) : Nat :=
  let (kh, kv) := planeKinds fmt p
  if l.scaled then
    let line := fun y => filtSum (l.h.tapsAt kh i) fun x => get x y
    if l.v.pass then
      match l.v.linesAt kv j with
      | (y, _) :: _ => line y
      | [] => 0
    else filtSum (l.v.linesAt kv j) line
  else
    let x := ((l.h.c : Int) + i).toNat
    let y := ((l.v.c : Int) + j).toNat
    get (if kh = .luma then x else x / 2) (if kv = .luma then y else y / 2)

/-- Does pixel (i, j) of a layer read a damaged tile of its image (R315, R358)? -/
def DrawLayer.damagedAt (l : DrawLayer) (img : Img) (dmg : Nat → Bool) (i j : Int) : Bool :=
  (List.range (Fmt.planes img.fmt)).any fun p =>
    let sw := if Fmt.chroma img.fmt p && Fmt.halfH img.fmt then 4 else 8
    let sh := if Fmt.chroma img.fmt p && Fmt.halfV img.fmt then 4 else 8
    (l.taps img.fmt p i j).any fun t => dmg (t.2 / sh * img.tilesX + t.1 / sw)

/-- The contribution of image content at pixel (i, j) of a layer: samples read through the codec, aligned, filtered,
converted, premultiplied (R341, R342, R349, R366). An INDEX8 sample is looked up in the palette (R330). -/
def DrawLayer.imagePix (l : DrawLayer) (img : Img) (mode e bias : Nat) (i j : Int) : Pix :=
  let d := Fmt.depth img.fmt
  if img.fmt = 0x0C then
    let v := l.value img.fmt 0 (fun x y => img.read mode e bias 0 x y) i j
    let (a, r, g, b) := argb12 (l.palette.getD v 0)
    let (r1, g1, b1) := l.csc.convert r g b
    layerPix l.alpha a l.lalpha r1 g1 b1 false
  else if img.fmt = 0x0B then
    let v := fun p => l.value img.fmt p
      (fun x y => align12 d (if p = 0 then false else l.csc.shift.getD (p - 1) false) (img.read mode e bias p x y)) i j
    let (r1, g1, b1) := l.csc.convert (v 1) (v 2) (v 3)
    layerPix l.alpha (v 0) l.lalpha r1 g1 b1 false
  else
    let v := fun p => l.value img.fmt p
      (fun x y => align12 d (l.csc.shift.getD p false) (img.read mode e bias p x y)) i j
    let (r1, g1, b1) := l.csc.convert (v 0) (v 1) (v 2)
    layerPix l.alpha 4095 l.lalpha r1 g1 b1 false

/-- The contribution of an INLINE node's canvas at pixel (i, j) of a layer: always PREMULT (R349). -/
def DrawLayer.nodePix (l : DrawLayer) (px : Nat → Nat → Pix) (i j : Int) : Pix :=
  let v := fun (f : Pix → Nat) => l.value 0x08 0 (fun x y => f (px x y)) i j
  let (r1, g1, b1) := l.csc.convert (v (·.r)) (v (·.g)) (v (·.b))
  let fault := (l.taps 0x08 0 i j).any fun t => (px t.1 t.2).fault
  layerPix 2 (v (·.a)) l.lalpha r1 g1 b1 fault

/-- Is canvas pixel (x, y) inside a layer's clipped rectangle? -/
def DrawLayer.covers (l : DrawLayer) (x y : Nat) : Bool :=
  decide (l.x0 ≤ x) && decide (x < l.x1) && decide (l.y0 ≤ y) && decide (y < l.y1)

/-- Pixel (x, y) of the canvas falls in a damaged tile of the image a layer reads (R358 POISON). -/
def DrawLayer.poisoned (l : DrawLayer) (dmg : Nat → Nat → Nat → Nat → Bool) (x y : Nat) : Bool :=
  match l.src with
  | .image st buf lv _ _ _ img => l.damagedAt img (dmg st buf lv) ((x : Int) - l.dx) ((y : Int) - l.dy)
  | _ => false

/-- The cause of the fault fill that a layer draws at a pixel it covers, none where it draws none: of several the lowest
(R358, R359). A damaged tile counts beneath the stale card too (R353). -/
def DrawLayer.faultAt (l : DrawLayer) (dmg : Nat → Nat → Nat → Nat → Bool) (x y : Nat) : Option Nat :=
  match l.draw with
  | .nothing => none
  | .fill c => some (if l.poisoned dmg x y then min 2 c else c)
  | _ => if l.poisoned dmg x y then some 2 else none

/-- A layer's contribution at canvas pixel (x, y), `px` giving the canvases of INLINE nodes and `dmg` the damaged tiles
of (stream, buffer, level) (R353, R358). -/
def DrawLayer.pixel (l : DrawLayer) (px : Nat → Nat → Nat → Pix) (dmg : Nat → Nat → Nat → Nat → Bool) (x y : Nat) :
    Option Pix :=
  if !l.covers x y then none
  else if (l.faultAt dmg x y).isSome then some (faultFill x y)
  else
    let i := (x : Int) - l.dx
    let j := (y : Int) - l.dy
    match l.draw with
    | .nothing => none
    | .fill _ => some (faultFill x y)
    | .card secs => some (staleCard secs l.x0 l.y0 l.x1 l.y1 x y)
    | .content =>
      match l.src with
      | .nothing => none
      | .solid w =>
        let (a, r, g, b) := argb12 w
        some (layerPix 1 a l.lalpha r g b false)
      | .node n => some (l.nodePix (px n) i j)
      | .image _ _ _ mode e bias img => some (l.imagePix img mode e bias i j)

/-- The plan of node `n` in a frame. -/
def planOf (ps : List NodePlan) (n : Nat) : Option NodePlan := ps.find? fun p => p.node == n

/-- The working pixel of node `n` at (x, y) of its canvas (R351, R352): its layers over the start value, in order.
`fuel` bounds the depth of INLINE nesting, which the structure keeps acyclic (R16). -/
def planPixel (ps : List NodePlan) (dmg : Nat → Nat → Nat → Nat → Bool) : Nat → Nat → Nat → Nat → Pix
  | 0, _, _, _ => { r := 0, g := 0, b := 0, a := 0 }
  | fuel + 1, n, x, y =>
    match planOf ps n with
    | none => { r := 0, g := 0, b := 0, a := 0 }
    | some p => p.layers.foldl (fun d l =>
        match l.pixel (planPixel ps dmg fuel) dmg x y with
        | some c => c.over d
        | none => d) p.start

/-- The working pixel of a frame's node at (x, y). -/
def Frame.pixel (f : Frame) (dmg : Nat → Nat → Nat → Nat → Bool) (x y : Nat) : Pix :=
  match f.plans with
  | p :: _ => planPixel f.plans dmg 257 p.node x y
  | [] => { r := 0, g := 0, b := 0, a := 0 }

/-- The nodes whose canvases the pixels `px` of node `n` are composed of, with the pixels needed of each: INLINE
children before the node that reads them (R355). -/
def planNeeds (ps : List NodePlan) : Nat → Nat → List (Nat × Nat) → List (Nat × List (Nat × Nat))
  | 0, _, _ => []
  | fuel + 1, n, px =>
    (match planOf ps n with
    | none => []
    | some p => p.layers.flatMap fun l =>
      match l.draw, l.src with
      | .content, .node m =>
        planNeeds ps fuel m ((px.filter fun q => l.covers q.1 q.2).flatMap fun q =>
          l.taps 0x08 0 ((q.1 : Int) - l.dx) ((q.2 : Int) - l.dy))
      | _, _ => []) ++ [(n, px)]

/-- The layers drawn at the pixels of `needs`, in order, with the pixels each covers (R351). -/
def needLayers (ps : List NodePlan) (needs : List (Nat × List (Nat × Nat))) : List (DrawLayer × List (Nat × Nat)) :=
  needs.flatMap fun e => match planOf ps e.1 with
    | none => []
    | some p => p.layers.map fun l => (l, e.2.filter fun q => l.covers q.1 q.2)

end Sys2Proof.Machine
end

