-- ==== Sys2Proof/Machine/Check.lean ====
section
/-!
DEFINITION. Machine/Check.lean: what a layer's descriptor resolves to in a set of records, and the rules a descriptor
obeys (R24, R25, R330 to R336, R339, R364, R369), as the loader, the commands and the fabric check them.
-/
namespace Sys2Proof.Machine

/-! ### Sources -/

/-- What a layer reads, resolved in a list of records. -/
inductive ResSrc where
  /-- a stored stream: number, its record, and whether a node source led to it (R349, R360) -/
  | surface (strm : Nat) (x : StreamSt) (viaNode : Bool)
  /-- an INLINE node and its canvas -/
  | inline (n w h : Nat)
  | solid
  /-- nothing: no such object, a GLASS node, or a stream without a surface (R358 NO_SOURCE) -/
  | nothing
  deriving DecidableEq, Repr

/-- The stream a record list holds under a number. -/
def streamRec (l : List Rec) (i : Nat) : Option StreamSt := (recBody l RT.STREAM i).map StreamSt.ofBody

/-- A stored stream as a source. -/
def resolveStream (l : List Rec) (i : Nat) (viaNode : Bool) : ResSrc :=
  match streamRec l i with
  | some x => if x.mode = 0 then .nothing else .surface i x viaNode
  | none => .nothing

/-- A node as a source: a MEMORY or GLASS_MEMORY node is read through its surface (R28, R360). -/
def resolveNode (l : List Rec) (n : Nat) : ResSrc :=
  match nodeRec l n with
  | some r =>
    if r.dest = 3 then .inline n r.w r.h
    else if r.dest = 0 then .nothing
    else resolveStream l r.surf true
  | none => .nothing

/-- A source entry resolved (R28, R34, R59). -/
def resolve (l : List Rec) (entry : Nat) : ResSrc :=
  match SrcRef.ofEntry entry with
  | .stream i => resolveStream l i false
  | .node n => resolveNode l n
  | .ensemble e =>
    match recBody l RT.ENSEMBLE e with
    | some b => resolveNode l (ensembleFace b)
    | none => .nothing
  | .solid => .solid
  | .invalid => .nothing

/-- Base width of a source. -/
def ResSrc.w : ResSrc → Nat
  | .surface _ x _ => x.width
  | .inline _ w _ => w
  | _ => 0

/-- Base height of a source. -/
def ResSrc.h : ResSrc → Nat
  | .surface _ x _ => x.height
  | .inline _ _ h => h
  | _ => 0

/-- Stored levels of a source: four with a pyramid, the base alone otherwise (R339). -/
def ResSrc.levels : ResSrc → Nat
  | .surface _ x _ => if x.pyramid then 4 else 1
  | _ => 1

/-- The source is an INDEX8 stream (R330). -/
def ResSrc.index8 : ResSrc → Bool
  | .surface _ x _ => x.format == 0x0C
  | _ => false

/-- The source is a BUDGET surface (R27, R360). -/
def ResSrc.budget : ResSrc → Bool
  | .surface _ x _ => x.mode == 3
  | _ => false

/-! ### Who feeds whom (R16) -/

/-- The node whose output a source entry takes, directly or through its surface. -/
def feederOf (l : List Rec) (e : Nat) : Option Nat :=
  match SrcRef.ofEntry e with
  | .stream i => surfaceNode l i
  | r => faceOf l r

/-- The layers of a record list, with their descriptors. -/
def layersOf (l : List Rec) : List (Nat × LayerDesc) :=
  (l.filter fun r => r.type == RT.LAYER).map fun r => (r.id, LayerDesc.ofBody r.body)

/-- The nodes whose output node `n` takes as a source, directly or through their surface (R16). -/
def feeders (l : List Rec) (n : Nat) : List Nat :=
  ((layersOf l).filter fun e => e.1 / 16 == n).filterMap fun e => feederOf l e.2.source

/-- The nodes reachable from a list along feeders; `fuel` bounds the rounds. -/
def reach (l : List Rec) : Nat → List Nat → List Nat → List Nat
  | 0, _, seen => seen
  | fuel + 1, front, seen =>
    match (front.flatMap (feeders l)).eraseDups.filter fun n => !seen.contains n with
    | [] => seen
    | next => reach l fuel next (seen ++ next)

/-- A layer of node `n` with source entry `e` would give the node its own output, directly or through other nodes
(R16). -/
def loopsBack (l : List Rec) (n e : Nat) : Bool :=
  match feederOf l e with
  | some k => k == n || (reach l 257 [k] []).contains n
  | none => false

/-- What a layer of node `n` reads: its source entry resolved. A node never takes its own output as a source (R16): an
entry that would, which only a direct write can leave, names nothing (DESIGN CHOICE, assumption 44). -/
def resolveFor (l : List Rec) (n e : Nat) : ResSrc := if loopsBack l n e then .nothing else resolve l e

/-! ### Crop and level (R25, R334, R335, R339) -/

/-- Effective crop width and height (R334). -/
def LayerDesc.crop (d : LayerDesc) (w h : Nat) : Nat × Nat :=
  (if d.cropW = 0 then w - d.cropX else d.cropW, if d.cropH = 0 then h - d.cropY else d.cropH)

/-- The crop lies inside the source and is not empty (R334). -/
def LayerDesc.cropOk (d : LayerDesc) (w h : Nat) : Bool :=
  let c := d.crop w h
  decide (0 < c.1) && decide (0 < c.2) && decide (d.cropX + c.1 ≤ w) && decide (d.cropY + c.2 ≤ h)

/-- The pyramid level a layer reads: PYR_LEVEL when fixed; else the smallest stored level whose crop is at least the
destination on both axes, or the base (R25, R339). -/
def LayerDesc.level (d : LayerDesc) (r : ResSrc) : Nat :=
  let c := d.crop r.w r.h
  if d.pyrFixed then d.pyrLevel
  else
    let ok := fun n => decide (n < r.levels) && decide (d.dstW ≤ c.1 / 2 ^ n) && decide (d.dstH ≤ c.2 / 2 ^ n)
    if ok 3 then 3 else if ok 2 then 2 else if ok 1 then 1 else 0

/-- Crop origin and size at level `n` (R335): x, y, w, h. -/
def LayerDesc.cropAt (d : LayerDesc) (r : ResSrc) (n : Nat) : Nat × Nat × Nat × Nat :=
  let c := d.crop r.w r.h
  (d.cropX / 2 ^ n, d.cropY / 2 ^ n, c.1 / 2 ^ n, c.2 / 2 ^ n)

/-- The destination rectangle clipped to a canvas (R24): [x0, x1) × [y0, y1); empty when x1 ≤ x0 or y1 ≤ y0. -/
def LayerDesc.clip (d : LayerDesc) (w h : Nat) : Nat × Nat × Nat × Nat :=
  let x0 := (clampI 0 w d.dstX).toNat
  let y0 := (clampI 0 h d.dstY).toNat
  (x0, y0, max x0 (clampI 0 w (d.dstX + d.dstW)).toNat, max y0 (clampI 0 h (d.dstY + d.dstH)).toNat)

/-- The clipped rectangle is empty. -/
def emptyRect (r : Nat × Nat × Nat × Nat) : Bool := decide (r.2.2.1 ≤ r.1) || decide (r.2.2.2 ≤ r.2.1)

/-! ### The rules of a descriptor -/

/-- R331 field ranges, read from the 64 bytes, with the thresholds after defaults. -/
def descFieldsOk (b : List Byte) (p : Policy) : Bool :=
  let d := LayerDesc.ofBody b
  let solid := d.source == 0xFFFF
  let al := if d.aLive = 0 then p.aLive else d.aLive
  let as := if d.aStale = 0 then p.aStale else d.aStale
  (solid || SrcRef.ofEntry d.source != .invalid)
  && decide (leAt b 2 1 ≤ 15)
  && decide (d.cropX ≤ 16383) && decide (d.cropY ≤ 16383) && decide (d.cropW ≤ 16384) && decide (d.cropH ≤ 16384)
  && decide (-16384 ≤ d.dstX) && decide (d.dstX ≤ 16383) && decide (-16384 ≤ d.dstY) && decide (d.dstY ≤ 16383)
  && decide (1 ≤ d.dstW) && decide (d.dstW ≤ 16384) && decide (1 ≤ d.dstH) && decide (d.dstH ≤ 16384)
  && decide (leAt b 20 1 ≤ 2) && decide (leAt b 21 1 ≤ 3) && decide (leAt b 22 1 ≤ 15) && leAt b 23 1 == 0
  && leAt b 27 1 == 0 && leAt b 31 1 == 0 && decide (al < as)
  && (decide (d.scaler ≤ 31) || d.scaler == 0xFF) && decide (d.alpha ≤ 2) && decide (d.csc ≤ 15)
  && decide (d.palette ≤ 63) && (d.scaler != 0xFF || (d.coefH == 0 && d.coefV == 0))
  && (solid || d.fill == 0) && (!solid || d.guard == 0) && leNat (slice b 44 20) == 0

/-- DST fields in range: a descriptor that fails here covers the node's whole canvas when drawn as BAD_DESC (R358). -/
def descDstOk (b : List Byte) : Bool :=
  let d := LayerDesc.ofBody b
  decide (-16384 ≤ d.dstX) && decide (d.dstX ≤ 16383) && decide (-16384 ≤ d.dstY) && decide (d.dstY ≤ 16383)
  && decide (1 ≤ d.dstW) && decide (d.dstW ≤ 16384) && decide (1 ≤ d.dstH) && decide (d.dstH ≤ 16384)

/-- Rules that tie a descriptor to its source: crop (R334), fixed level, of a SOLID layer the base (R339), 1:1 size (R335), ratios from 1/8 to 64
(R369), INDEX8 without scaler and with a palette (R330, R331). -/
def descSourceOk (d : LayerDesc) (r : ResSrc) : Bool :=
  match r with
  | .solid => d.scaler == 0xFF && d.palette == 0 && (!d.pyrFixed || d.pyrLevel == 0)
  | .nothing => true
  | _ =>
    let n := d.level r
    let c := d.cropAt r n
    let w := c.2.2.1
    let h := c.2.2.2
    d.cropOk r.w r.h && decide (n < r.levels)
    && (if d.scaler = 0xFF then w == d.dstW && h == d.dstH
        else decide (w ≤ 8 * d.dstW) && decide (d.dstW ≤ 64 * w) && decide (h ≤ 8 * d.dstH) && decide (d.dstH ≤ 64 * h))
    && (if r.index8 then d.scaler == 0xFF else d.palette == 0)

/-- Scaler rules across layers (R364): at most 8 layers on one scaler, all on one frame clock. -/
def descScalerOk (l : List Rec) (i : Nat) (d : LayerDesc) : Bool :=
  if d.scaler = 0xFF then true
  else
    let others := (layersOf l).filter fun e => e.1 != i && e.2.scaler == d.scaler
    decide (others.length + 1 ≤ 8) && others.all fun e => clockOf l 257 (e.1 / 16) == clockOf l 257 (i / 16)

/-- The coefficient sets that a descriptor names are valid (R364). -/
def descSetsOk (valid : Nat → Bool) (d : LayerDesc) : Bool := d.scaler == 0xFF || (valid d.coefH && valid d.coefV)

/-- A descriptor obeys every rule R336 checks but for the validity of its sets, which can change under it (R375). -/
def descOk (l : List Rec) (i : Nat) (b : List Byte) : Bool :=
  let d := LayerDesc.ofBody b
  descFieldsOk b (policyOf l) && descSourceOk d (resolve l d.source) && descScalerOk l i d

/-! ### The structure in force -/

/-- The records of the running structure with every layer's descriptor as it is in force. -/
def State.records (s : State) : List Rec :=
  s.ld.recs.map fun r => if r.type = RT.LAYER then { r with body := s.windowBytes (ldtBase r.id) 16 } else r

/-- The taps of each valid coefficient set in force (R375). -/
def State.setsInForce (s : State) (k : Nat) : Option Nat := if s.setValid k then some (s.setTaps k) else none

end Sys2Proof.Machine
end

