-- ==== Sys2Proof/Machine/Compose.lean ====
section
/-!
DEFINITION. Machine/Compose.lean: the composition fabric: what a commit point settles for layers and scalers (R336,
R339, R375, R378), the latch with Vigil's layer states (R337, R356, R435 to R438, R441), MEMORY nodes (R33) and
segments (R354, R358).
-/
namespace Sys2Proof.Machine

/-- Layer `i` beside its descriptor. -/
def State.layer (s : State) (i : Nat) : LayerSt := Cells.get (fun _ => {}) s.layers i

/-- Replace layer `i`. -/
def State.setLayer (s : State) (i : Nat) (x : LayerSt) : State := { s with layers := Cells.put (fun _ => {}) s.layers i x }

/-- Node `n` beside its record. -/
def State.nodeSt (s : State) (n : Nat) : NodeSt := Cells.get (fun _ => {}) s.nodes n

/-- Replace node `n`. -/
def State.setNode (s : State) (n : Nat) (x : NodeSt) : State := { s with nodes := Cells.put (fun _ => {}) s.nodes n x }

/-- Output `n` beside its registers. -/
def State.output (s : State) (n : Nat) : OutputSt := Cells.get (fun _ => {}) s.outputs n

/-- Replace output `n`. -/
def State.setOutput (s : State) (n : Nat) (x : OutputSt) : State :=
  { s with outputs := Cells.put (fun _ => {}) s.outputs n x }

/-! ### Commit points: sets, levels, sharing (R336, R339, R375, R376 to R379) -/

/-- The content of coefficient set `k` obeys R371 and the zero rules of R372. -/
def State.setContentOk (s : State) (k : Nat) : Bool :=
  let b := s.windowBytes (coefBase k) 1024
  let t := leAt b 0 1
  let used := tapCounts.filter fun v => decide (v ≤ t)
  tapCounts.contains t && leNat (slice b 1 63) == 0 && leNat (slice b 3008 1088) == 0
    && (t == 8 || leNat (slice b (variantOff 8) 1024) == 0)
    && used.all fun v => rowsOk (s.coefRows k v)

/-- The check of a set that a write has changed, at an FCLK0 commit point (R375). -/
def State.checkSet (s : State) (k : Nat) : State :=
  if 8 ≤ k ∧ k < 128 then
    let t := s.fld (coefBase k) 7 0
    let c := tapsCode t + (if s.setContentOk k then 8 else 0)
    s.setFld (Reg.SCL_SET_STATUS (k / 8)) (4 * (k % 8) + 3) (4 * (k % 8)) c
  else s

/-- What a commit point settles for layer `i` alone: its level, clipped width, taps, pass-through, and whether its
sets are valid. -/
def State.settleLayer (s : State) (recs : List Rec) (i : Nat) : State :=
  match nodeRec recs (i / 16) with
  | none => s
  | some nr =>
    let d := s.layerDesc i
    let r := resolveFor recs (i / 16) d.source
    let n := d.level r
    let c := d.cropAt r n
    let rect := d.clip nr.w nr.h
    let x := s.layer i
    let hasScaler := d.scaler != 0xFF
    let conf := if hasScaler then s.setTaps d.coefV else 0
    let rows := if hasScaler then s.coefRows d.coefV conf else []
    s.setLayer i { x with
      level := n, wc := rect.2.2.1 - rect.1, tapsConf := conf, tapsUsed := conf, share := 0,
      pass := hasScaler && c.2.2.2 == d.dstH && impulse rows conf, short := false,
      setsBad := !descSetsOk s.setValid d,
      coefH := if hasScaler then s.coefRows d.coefH (s.setTaps d.coefH) else [], coefV := rows }

/-- A layer that a scaler has served with reduced taps, or with none (R378). -/
def LayerSt.reduced (x : LayerSt) : Bool := decide (x.tapsUsed < x.tapsConf) && !x.short

/-- One layer takes its share of a scaler's line buffer (R378): the pixel-lines left, and the state after it. `told`: the
layer as an earlier sharing of this commit point left it, whose events have been counted (R379). -/
def State.shareLayer (s : State) (recs : List Rec) (told : Nat → LayerSt) (left i : Nat) : Nat × State :=
  let d := s.layerDesc i
  let x := s.layer i
  let empty := match nodeRec recs (i / 16) with
    | some nr => emptyRect (d.clip nr.w nr.h)
    | none => true
  if !d.enable || empty || x.pass || x.setsBad then (left, s)
  else
    match tapCounts.find? fun t => decide (t ≤ x.tapsConf) && decide (t * x.wc ≤ left) with
    | some t =>
      let s1 := s.setLayer i { x with tapsUsed := t, share := t * x.wc, coefV := s.coefRows d.coefV t }
      (left - t * x.wc, if t < x.tapsConf ∧ (told i).reduced = false then (s1.setFld Reg.SCL_LAST_EVENT 27 16 i).raise .tapsReduced else s1)
    | none =>
      let s1 := s.setLayer i { x with tapsUsed := 0, share := 0, short := true }
      (left, if (told i).short then s1 else (s1.setFld Reg.SCL_LAST_EVENT 11 0 i).raise .lbShort)

/-- A scaler shares its 32,768 pixel-lines among its layers in ascending index, and shows what it gave (R376, R378). -/
def State.shareScaler (s : State) (recs : List Rec) (told : Nat → LayerSt) (clk sc : Nat) : State :=
  let ls := ((layersOf recs).filter fun e => e.2.scaler == sc).map (·.1)
  let (left, s1) := ls.foldl (fun acc i => acc.2.shareLayer recs told acc.1 i) (32768, s)
  let red := ls.any fun i => (s1.layer i).reduced
  let short := ls.any fun i => (s1.layer i).short
  s1.setReg (Reg.SCL_SCALER_STATUS sc)
    (w32 (ls.length % 16 * 2 ^ 28 + clk * 2 ^ 24 + (if red then 2 ^ 23 else 0) + (if short then 2 ^ 22 else 0) + (32768 - left)))

/-- Everything a commit point of clock `clk` settles for layers and scalers; `again`: it has settled at this commit point
before, and its events have been counted (R379, assumption 11). A scaler that no layer names any more gives its share
back (R381). -/
def State.settle (again : Bool) (s : State) (clk : Nat) : State :=
  let recs := s.records
  let told := fun i => if again then s.layer i else {}
  let mine := ((layersOf recs).map (·.1)).filter fun i => clockOf recs 257 (i / 16) == clk
  let s1 := mine.foldl (fun t i => t.settleLayer recs i) s
  let scs := (List.range 32).filter fun sc => (mine.any fun i => (s1.layerDesc i).scaler == sc)
    || (s1.fld (Reg.SCL_SCALER_STATUS sc) 31 28 != 0 && s1.fld (Reg.SCL_SCALER_STATUS sc) 26 24 == clk
      && !((layersOf recs).any fun e => e.2.scaler == sc))
  let s2 := scs.foldl (fun t sc => t.shareScaler recs told clk sc) s1
  let strictBudget := (layersOf recs).any fun e => e.2.guard == 2 && (resolve recs e.2.source).budget
  s2.hold .guardCodec strictBudget

/-! ### Layer causes and states (R358, R435 to R437) -/

/-- The causes of fault fill that a commit point settles for a layer (R358): GUARD_CODEC, LB_SHORT, NO_SOURCE,
BAD_DESC; 0 for none. A descriptor fails R336 also when a set it names was not valid at its node's last commit point
(R375) or its ratio has left the range. -/
def State.settledCause (s : State) (d : LayerDesc) (r : ResSrc) (i : Nat) : Nat :=
  let x := s.layer i
  if d.guard = 2 ∧ r.budget = true then 3
  else if x.short then 4
  else if r = .nothing then 5
  else if x.bad || x.setsBad || !descSourceOk d r then 8
  else 0

/-- What Vigil reads of a layer's latched source. -/
structure SrcView where
  state : Fresh
  sub   : Nat
  age   : Nat
  /-- consumers inherit its LATE and STALE -/
  composite : Bool
  /-- FROZEN of the source stream itself, with its STILL (R441) -/
  ownFrozen : Bool
  still : Nat
  /-- identity of the latched frame, none for an INLINE source: stream, FRAMES, FRAME_CRC -/
  frame : Option (Nat × Nat × Word)
  /-- the frame is new where it differs from the one before (R436) -/
  newOk : Option Word → Bool
  /-- an INLINE node's composite is new -/
  inlineNew : Bool

/-- The view of a stream at its latch (R435, R436). A node has no FREEZE_ON: its frame is new by the NEW it carries
alone (DEDUCED, assumption 16). -/
def StreamSt.view (x : StreamSt) (i : Nat) (viaNode : Bool) : SrcView :=
  { state := x.state, sub := x.sub, age := x.age, composite := x.composite, ownFrozen := x.frozen, still := x.still,
    frame := if x.held then some (i, x.frames, x.crc) else none,
    newOk := fun prev =>
      let carried := (viaNode || x.kind == 2 || x.kind == 4) && x.new
      let differs := match prev with
        | some c => x.crc != c
        | none => true
      carried || (!viaNode && (!x.freezeOn || differs)),
    inlineNew := false }

/-- The view of an INLINE node: its composite at the same latch. -/
def Composite.view (c : Composite) : SrcView :=
  { state := c.state, sub := c.sub, age := c.age, composite := true, ownFrozen := false, still := 0, frame := none,
    newOk := fun _ => true, inlineNew := c.new }

/-- The state of a layer from its source and override (R435). -/
def layerState (v : SrcView) (aLive aStale : Nat) (ov : Option Nat) : Fresh × Nat :=
  match ov with
  | some sub => (.failed, sub)
  | none =>
    if v.state = .unknown then (.unknown, v.sub)
    else
      let own : Fresh × Nat := (if v.age ≤ aLive then .live else if v.age ≤ aStale then .late else .stale, 0)
      if v.composite || v.state == .frozen || v.state == .failed then worse own (v.state, v.sub) else own

/-- Is the latched frame new against the layer's previous latch (R436)? -/
def layerNew (v : SrcView) (last : Option (Nat × Nat × Word)) : Bool :=
  match v.frame with
  | none => v.inlineNew
  | some f =>
    match last with
    | none => v.newOk none
    | some g => (f.1 != g.1 || f.2.1 != g.2.1) && v.newOk (some g.2.2)

/-- What a guarded layer draws (R441): guard 1 WATCH, 2 STRICT. -/
def guardDraw (guard : Nat) (st : Fresh × Nat) (secs : Nat) : LayerDraw :=
  match st.1 with
  | .live => .content
  | .late => .content
  | .stale => if guard = 2 then .card secs else .content
  | .frozen => if guard = 2 then .card secs else .content
  | .failed => if guard = 2 then .fill 7 else .content
  | .unknown =>
    if st.2 = 0x20 then .fill 6
    else if st.2 = 0x22 then .content
    else if guard = 2 then .fill 7 else .content

/-- What a layer draws: the guard policy joined with the settled causes, the lowest cause recorded (R358, R359). A NONE
layer without a frame draws nothing, a guarded one NO_FRAME. -/
def layerDraw (guard cause : Nat) (st : Fresh × Nat) (secs : Nat) (noFrame : Bool) : LayerDraw :=
  if guard = 0 then
    if cause ≠ 0 then .fill cause else if noFrame then .nothing else .content
  else
    let own := if !noFrame then cause else if cause = 0 then 6 else min cause 6
    match guardDraw guard st secs with
    | .fill c => .fill (if own = 0 then c else min c own)
    | d => if own ≠ 0 then .fill own else d

/-! ### Windows (R356) -/

/-- One INLINE stage that a window is mapped through (R356): consumer layer destination, crop, canvas. -/
structure Stage where
  dx : Int
  dy : Int
  dw : Nat
  dh : Nat
  cx : Nat
  cy : Nat
  cw : Nat
  ch : Nat
  w  : Nat
  h  : Nat
  deriving DecidableEq, Repr

/-- A window in integer coordinates. -/
abbrev Win := Int × Int × Int × Int

/-- A window mapped through one stage and clipped (R356). -/
def Stage.map (g : Stage) (r : Win) : Win :=
  let lo := fun (d : Int) (c n v : Int) (k : Nat) => d + (v - c) * k / n
  let hi := fun (d : Int) (c n v : Int) (k : Nat) => d + -((-(v - c) * k) / n)
  let x0 := lo g.dx g.cx g.cw r.1 g.dw
  let y0 := lo g.dy g.cy g.ch r.2.1 g.dh
  let x1 := hi g.dx g.cx g.cw r.2.2.1 g.dw
  let y1 := hi g.dy g.cy g.ch r.2.2.2 g.dh
  (max (max x0 g.dx) 0, max (max y0 g.dy) 0, min (min x1 (g.dx + g.dw)) g.w, min (min y1 (g.dy + g.dh)) g.h)

/-- The window of a clipped rectangle on the raster, none where it maps to nothing (R356). -/
def windowOf (stages : List Stage) (rect : Nat × Nat × Nat × Nat) : Option (Nat × Nat × Nat × Nat) :=
  let r := stages.foldl (fun w g => g.map w)
    ((rect.1 : Int), (rect.2.1 : Int), (rect.2.2.1 : Int), (rect.2.2.2 : Int))
  if r.1 < r.2.2.1 ∧ r.2.1 < r.2.2.2 then some (r.1.toNat, r.2.1.toNat, r.2.2.1.toNat, r.2.2.2.toNat) else none

/-- The origin of a glyph for a window on a W × H raster (R397). -/
def glyphOrigin (corner w h : Nat) (r : Nat × Nat × Nat × Nat) : Nat × Nat :=
  let x : Int := if corner % 2 = 0 then r.1 else (r.2.2.1 : Int) - 32
  let y : Int := if corner < 2 then r.2.1 else (r.2.2.2 : Int) - 32
  ((max (min x ((w : Int) - 32)) 0).toNat, (max (min y ((h : Int) - 32)) 0).toNat)

/-- Two rectangles intersect. -/
def rectsMeet (a b : Nat × Nat × Nat × Nat) : Bool :=
  decide (a.1 < b.2.2.1) && decide (b.1 < a.2.2.1) && decide (a.2.1 < b.2.2.2) && decide (b.2.1 < a.2.2.2)

/-- The window of layer `i` is in mismatch (R444): its own region, or a grid region that meets it. -/
def OutputSt.windowBad (o : OutputSt) (i : Nat) (win : Nat × Nat × Nat × Nat) : Bool :=
  (List.range o.regions.length).any fun k =>
    match o.regions[k]?, o.runs[k]? with
    | some r, some (_, _, bad) =>
      bad && ((r.kind == 1 && r.src == i) || (r.kind == 2 && rectsMeet (r.x0, r.y0, r.x1, r.y1) win))
    | _, _ => false

/-- The damaged tile that layer `i` read in the previous frame is of the stream that is still its source and has not
flipped since (R437). `strm`: the stream it reads now. -/
def State.readPoison (s : State) (i : Nat) (strm : Option Nat) : Bool :=
  match (s.layer i).poison with
  | some (st, fr) => strm == some st && decide ((s.stream st).frames = fr)
  | none => false

/-- The override of a layer at its latch (R437), as the sub-cause of FAILED; the first that applies. -/
def State.override (s : State) (out : Option Nat) (i cause : Nat) (strm : Option Nat) (win : Option (Nat × Nat × Nat × Nat)) : Option Nat :=
  let o := s.output (out.getD 0)
  if out.isSome && o.hold.isSome then some 0x10
  else if out.isSome && (o.frozen || (o.openLoop && s.policy.glassRequired)) then some 0x13
  else if out.isSome && (match win with
      | some w => o.windowBad i w
      | none => false) then some 0x12
  else if cause ≠ 0 then some 0x14
  else if s.readPoison i strm then some 0x11
  else none

/-! ### The latch (R337, R435 to R438) -/

/-- A layer's change of state at a latch of a raster-timed node (R447). -/
def State.stateChange (s : State) (i : Nat) (old new : Fresh × Nat) : State :=
  if old.1 = new.1 then s
  else
    ((s.setReg Reg.VGL_CHANGE_LAST (w32 (old.1.code * 2 ^ 28 + new.1.code * 2 ^ 24 + new.2 * 2 ^ 16 + i))).setReg
      Reg.VGL_CHANGE_TS s.ts).raise .stateChange

/-- What the latch of one node yields: the state, its composite, the plans of its tree, its lantern windows. -/
structure Latched where
  s : State
  comp : Composite
  plans : List NodePlan
  lanterns : List Lantern

/-- The composite of the counted layers' (age, state, new) (R438). -/
def compositeOf (ts : Word) (l : List (Nat × (Fresh × Nat) × Bool)) : Composite :=
  match l with
  | [] => { cap := ts }
  | h :: t =>
    let age := t.foldl (fun a e => max a e.1) h.1
    let st := t.foldl (fun a e => worse a e.2.1) h.2.1
    { age := age, state := st.1, sub := st.2, new := l.any (·.2.2), cap := ts - w32 (age * 100000) }

/-- The layers of a node in blending order: ascending ZORDER, then slot (R351). -/
def blendOrder (l : List (Nat × DrawLayer)) : List DrawLayer :=
  (List.range 16).flatMap fun z => (l.filter fun e => e.1 == z).map (·.2)

/-- What is gathered over the layers of one node at a latch. -/
structure LatchAcc where
  s : State
  counted : List (Nat × (Fresh × Nat) × Bool)
  draws : List (Nat × DrawLayer)
  plans : List NodePlan
  lanterns : List Lantern

/-- The palette of a layer that reads an INDEX8 source (R330). -/
def State.paletteOf (s : State) (d : LayerDesc) (r : ResSrc) : List Word :=
  if r.index8 then (List.range 256).map fun k => s.reg (0x30_0000 + 1024 * d.palette + 4 * k) else []

/-- The rectangle that layer `i` draws on its canvas: its clipped destination, or the whole canvas where the
destination is out of range (R358). A layer whose rectangle is empty draws nothing (R24); one whose clipped
destination is empty counts nowhere (R438). -/
def State.layerRect (s : State) (i w h : Nat) : Nat × Nat × Nat × Nat :=
  if descDstOk (s.windowBytes (ldtBase i) 16) then (s.layerDesc i).clip w h else (0, 0, w, h)

/-- Layer `i` draws: it is enabled, and the rectangle it draws is not empty (R24). -/
def State.layerDraws (s : State) (i w h : Nat) : Bool := (s.layerDesc i).enable && !emptyRect (s.layerRect i w h)

/-- The latch of layer `i` of a node with canvas `w` × `h`, its INLINE child's composite given where it has one. A layer
that draws nothing has its state from its source's most recent complete frame, and nothing else (R435). -/
def State.latchLayer (s : State) (recs : List Rec) (out : Option Nat) (raster : Nat × Nat) (stages : List Stage)
    (w h i : Nat) (child : Option Composite) (a : LatchAcc) : LatchAcc :=
  let d := s.layerDesc i
  let pol := policyOf recs
  let r := resolveFor recs (i / 16) d.source
  let drawn := s.layerDraws i w h
  let cause := if drawn then s.settledCause d r i else 0
  let rect := s.layerRect i w h
  let x := s.layer i
  let strm := match r with
    | .surface st _ _ => some st
    | _ => none
  let s1 := match strm with
    | some st => if drawn then s.takeFrame (.layer i) st else s
    | none => s
  let view : SrcView := match r, child with
    | .surface st _ via, _ => (s.stream st).view st via
    | .inline _ _ _, some c => c.view
    | _, _ => { state := .unknown, sub := 0x20, age := 0, composite := false, ownFrozen := false, still := 0,
                frame := none, newOk := fun _ => false, inlineNew := false }
  let noFrame := match strm with
    | some st => (s.stream st).complete.isNone
    | none => false
  let win := if out.isSome && d.guard != 0 && drawn then windowOf stages (d.clip w h) else none
  let st := layerState view (if d.aLive = 0 then pol.aLive else d.aLive) (if d.aStale = 0 then pol.aStale else d.aStale)
    (s.override out i cause strm win)
  let new := layerNew view x.last
  let phase := if x.restart then 0 else if st.1 = .live ∧ new then (x.phase + 1) % 4 else x.phase
  let shown := if st.1 = .frozen ∧ view.ownFrozen = true then view.still else view.age
  let draw := layerDraw d.guard cause st (ageSecs shown) noFrame
  let strictBad := out.isSome && d.guard == 2
    && (st.1 == .stale || st.1 == .frozen || st.1 == .failed || (st.1 == .unknown && st.2 != 0x22))
  let y := { x with state := st.1, sub := st.2, age := view.age, shown := shown, phase := phase, restart := false,
                    last := if view.frame.isSome then view.frame else x.last,
                    poison := none, strictBad := strictBad }
  let lan : Option Lantern := match win with
    | some wn =>
      let g := glyphOrigin d.corner raster.1 raster.2 wn
      some { layer := i, x0 := wn.1, y0 := wn.2.1, x1 := wn.2.2.1, y1 := wn.2.2.2, gx := g.1, gy := g.2,
             corner := d.corner, state := st.1, phase := phase, secs := ageSecs view.age, strict := d.guard == 2,
             drawn := d.guard == 2 || !(s.bit (Reg.OUT_CTRL (out.getD 0)) 31) }
    | none => none
  let y2 := { y with lantern := match lan, out with
    | some l, some o => some (o, l)
    | _, _ => none }
  let s2 := s1.setLayer i y2
  let s3 := if out.isSome && d.guard != 0 then s2.stateChange i (x.state, x.sub) st else s2
  let crop := d.cropAt r x.level
  let src : LayerSrc := match r with
    | .solid => .solid d.fill
    | .inline n _ _ => .node n
    | .surface k sx _ =>
      match (s.stream k).complete with
      | some b => match ((s.stream k).bufs[b]?).bind fun bf => bf.levels[x.level]? with
        | some img => .image k b x.level sx.mode sx.e (s.stream k).heldBias img
        | none => .nothing
      | none => .nothing
    | .nothing => .nothing
  let fmt := match r with
    | .surface _ sx _ => sx.format
    | _ => 0x08
  let alpha := match r with
    | .surface _ _ true => 2
    | .inline _ _ _ => 2
    | _ => d.alpha
  let dl : DrawLayer :=
    { index := i, draw := draw, src := src, dx := d.dstX, dy := d.dstY, x0 := rect.1, y0 := rect.2.1, x1 := rect.2.2.1,
      y1 := rect.2.2.2, scaled := d.scaler != 0xFF,
      h := { s := crop.2.2.1, c := crop.1, d := d.dstW, taps := (x.coefH.getD 0 []).length, coef := x.coefH },
      v := { s := crop.2.2.2, c := crop.2.1, d := d.dstH, taps := x.tapsUsed, coef := x.coefV, pass := x.pass },
      alpha := alpha, lalpha := d.lalpha, csc := s.cscIn d.csc fmt, palette := s.paletteOf d r }
  { a with s := s3, draws := if drawn then a.draws ++ [(d.zorder, dl)] else a.draws,
           counted := if d.guard ≠ 0 ∧ d.enable = true ∧ emptyRect (d.clip w h) = false then a.counted ++ [(view.age, st, new)] else a.counted,
           lanterns := match lan with
             | some l => a.lanterns ++ [l]
             | none => a.lanterns }

/-- The latch of node `n` and of every INLINE node beneath it, in one cycle (R337). `out`: the raster-timed output;
`raster`: its raster; `fuel` bounds the INLINE nesting (R16). -/
def latchNode (recs : List Rec) (out : Option Nat) (raster : Nat × Nat) : Nat → State → List Stage → Nat → Latched
  | 0, s, _, _ => { s := s, comp := { cap := s.ts }, plans := [], lanterns := [] }
  | fuel + 1, s, stages, n =>
    match nodeRec recs n with
    | none => { s := s, comp := { cap := s.ts }, plans := [], lanterns := [] }
    | some nr =>
      let latched := (s.nodeLayers n).filter fun i => (s.layerDesc i).guard != 0 || s.layerDraws i nr.w nr.h
      let acc := latched.foldl (fun (a : LatchAcc) i =>
        let d := a.s.layerDesc i
        match resolveFor recs n d.source with
        | .inline m mw mh =>
          let c := d.crop mw mh
          let g : Stage := { dx := d.dstX, dy := d.dstY, dw := d.dstW, dh := d.dstH, cx := d.cropX, cy := d.cropY,
                             cw := c.1, ch := c.2, w := nr.w, h := nr.h }
          let sub := latchNode recs out raster fuel a.s (g :: stages) m
          sub.s.latchLayer recs out raster stages nr.w nr.h i (some sub.comp)
            (if a.s.layerDraws i nr.w nr.h then
              { a with s := sub.s, plans := a.plans ++ sub.plans, lanterns := a.lanterns ++ sub.lanterns }
            else { a with s := sub.plans.foldl (fun t p => p.layers.foldl (fun u l => u.releaseReader (.layer l.index)) t) sub.s })
        | _ => a.s.latchLayer recs out raster stages nr.w nr.h i none a)
        { s := s, counted := [], draws := [], plans := [], lanterns := [] }
      let plan : NodePlan :=
        { node := n, w := nr.w, h := nr.h, start := canvasStart (s.bit (Reg.CMP_NODE_CTRL n) 0) nr.background,
          layers := blendOrder acc.draws }
      { s := acc.s, comp := compositeOf s.ts acc.counted, plans := plan :: acc.plans, lanterns := acc.lanterns }

/-- Lanterns in ascending layer index: the order they are drawn in (R397) and regions are numbered in (R404). -/
def sortLanterns (l : List Lantern) : List Lantern :=
  l.foldl (fun acc x => (acc.filter fun y => decide (y.layer ≤ x.layer)) ++ x :: acc.filter fun y => decide (x.layer < y.layer)) []

/-- GUARD_FAILED and VGL.STRICT_BAD follow the layers' last latches (R447). -/
def State.guardAlarm (s : State) : State :=
  let n := (s.layers.filter fun e => e.2.strictBad).length
  (s.setReg Reg.VGL_STRICT_BAD (w32 n)).hold .guardFailed (decide (n ≠ 0))

/-- The windows that output `n` had before its latch and has no longer are gone (R356). -/
def State.dropLanterns (s : State) (n : Nat) (l : List Lantern) : State :=
  s.layers.foldl (fun t e => match e.2.lantern with
    | some (o, _) => if o = n ∧ !l.any (fun x => x.layer == e.1) then t.setLayer e.1 { e.2 with lantern := none } else t
    | none => t) s

/-- OUT.STATE_COUNT and OUT.LANTERN_TOTAL follow the lantern windows of the last latches. -/
def State.countLanterns (s : State) : State :=
  let ws := s.layers.filterMap fun e => e.2.lantern
  let s1 := s.setReg Reg.OUT_LANTERN_TOTAL (w32 ws.length)
  (List.range 6).foldl (fun t k =>
    t.setReg (Reg.OUT_STATE_COUNT k) (w32 (ws.filter fun w => w.2.state.code == k).length)) s1

/-- The output conversion of node `n` towards format `fmt` (R346, R347). -/
def State.outConv (s : State) (n fmt : Nat) : OutConv :=
  { fmt := fmt, csc := s.cscOut (s.fld (Reg.CMP_NODE_CTRL n) 15 12) fmt, dither := s.fld (Reg.CMP_NODE_CTRL n) 5 4 != 0 }

/-! ### Frame storage -/

/-- Segment key of line `y`, segment `k`. -/
def segKey (y k : Nat) : Nat := y * 1024 + k

/-- A frame's working pixel at (x, y) from its segments; `cut k` gives the first column of segment `k`. A segment that
is missing reads as fault fill (R38). -/
def Frame.stored (f : Frame) (segOf : Nat → Nat × Nat) (x y : Nat) : Pix :=
  let (k, x0) := segOf x
  match Cells.get (fun _ => []) f.segs (segKey y k) with
  | [] => faultFill x y
  | l => l.getD (x - x0) (faultFill x y)

/-- A frame converted into a surface image (R346 to R348). -/
def Frame.toImg (f : Frame) (segOf : Nat → Nat × Nat) (w h : Nat) : Img :=
  let o : Img := { w := w, h := h, fmt := f.conv.fmt }
  (List.range (Fmt.planes o.fmt)).foldl (fun a p =>
    (List.range (Fmt.planeH o.fmt p h)).foldl (fun b y =>
      (List.range (Fmt.planeW o.fmt p w)).foldl (fun c x =>
        c.set p x y (convSample f.conv (f.stored segOf) w h p x y)) b) a) o

/-- Flip the surface of node `n` with a completed frame and the lanterns its output drew (R29, R33, R439, R456). -/
def State.flipNode (s : State) (n strm : Nat) (f : Frame) (glyphs : List Lantern) (img : Img) (fault : Bool) : State :=
  let x := s.nodeSt n
  let count := (x.count + 1) % 65536
  let s1 := s.setNode n { x with count := count, guarded := f.guarded, glyphs := glyphs }
  s1.offerFrame strm
    { alive := count, cap := f.comp.cap, ptp := false, epoch := f.epoch, img := img,
      stated := some { age := f.comp.age + (s.ticks - f.tick), state := f.comp.state, sub := f.comp.sub,
                       new := f.comp.new, fault := fault, composite := true, latchAge := f.comp.age, latch := f.latch } }

/-! ### Windows of guarded layers (R356, R396, R456) -/

/-- The lantern windows beneath node `n`: layer, window, glyph corner, for every enabled guarded layer (R356, R396). -/
def windowsOf (s : State) (recs : List Rec) : Nat → List Stage → Nat → List (Nat × (Nat × Nat × Nat × Nat) × Nat)
  | 0, _, _ => []
  | fuel + 1, stages, n =>
    match nodeRec recs n with
    | none => []
    | some nr => (s.nodeLayers n).flatMap fun i =>
      let d := s.layerDesc i
      let rect := d.clip nr.w nr.h
      if !d.enable || emptyRect rect then []
      else
        let own := if d.guard = 0 then [] else match windowOf stages rect with
          | some w => [(i, w, d.corner)]
          | none => []
        match resolveFor recs n d.source with
        | .inline m mw mh =>
          let c := d.crop mw mh
          own ++ windowsOf s recs fuel
            ({ dx := d.dstX, dy := d.dstY, dw := d.dstW, dh := d.dstH, cx := d.cropX, cy := d.cropY, cw := c.1,
               ch := c.2, w := nr.w, h := nr.h } :: stages) m
        | _ => own

/-- Lines [y0, y1) of the windows of the counted layers beneath node `n` (R438, R456). -/
def State.guardSpans (s : State) (n : Nat) : List (Nat × Nat) :=
  (windowsOf s s.records 257 [] n).map fun w => (w.2.1.2.1, w.2.1.2.2.2)

/-! ### MEMORY nodes (R33) -/

/-- The layers of node `n` and of the INLINE nodes beneath it, from a frame's plans. -/
def Frame.layers (f : Frame) : List Nat := f.plans.flatMap fun p => p.layers.map (·.index)

/-- A frame's readers end: their buffers are free again (R22). -/
def State.releaseFrame (s : State) (f : Frame) : State := f.layers.foldl (fun t i => t.releaseReader (.layer i)) s

/-- A MEMORY node at a commit point of its clock: a frame still in progress skips the start and counts an overrun; else
it latches its sources and starts, where its surface has a free buffer (R22, R33). -/
def State.memoryStart (s : State) (n : Nat) : State :=
  match s.node n with
  | none => s
  | some nr =>
    let x := s.nodeSt n
    if x.frame.isSome then (s.setNode n { x with overrun := satN 16 (x.overrun + 1), before := none }).raise .nodeOverrun
    else
      let l := latchNode s.records none (0, 0) 257 s [] n
      let st := s.stream nr.surf
      let s1 := l.s.startFrame nr.surf { alive := 0, cap := l.comp.cap, ptp := false, epoch := 0, w := nr.w, h := nr.h,
                                          fmt := st.format }
      let f : Frame := { plans := l.plans, comp := l.comp, latch := s.ts, tick := s.ticks,
                         epoch := s.fld Reg.TIM_EPOCH 7 0, conv := s.outConv n st.format,
                         strm := nr.surf, w := nr.w, h := nr.h, guarded := s.guardSpans n }
      match (s1.stream nr.surf).cur with
      | some inc =>
        if inc.dropped then (s1.discardFrame nr.surf).releaseFrame f
        else s1.setNode n { s1.nodeSt n with frame := some f, before := some s.layers }
      | none => s1.releaseFrame f

/-- Layers as they stand now, with what a latch of the layers `l` changes in them as it was before it. -/
def unlatch (l : List Nat) (now before : Cells LayerSt) : Cells LayerSt :=
  now.map fun e => if !l.contains e.1 then e else
    let b := Cells.get (fun _ => ({} : LayerSt)) before e.1
    (e.1, { e.2 with state := b.state, sub := b.sub, age := b.age, shown := b.shown, phase := b.phase,
                     restart := e.2.restart || b.restart, last := b.last, poison := b.poison, strictBad := b.strictBad,
                     lantern := b.lantern })

/-- A MEMORY node that started at this commit point, before another clock's point at the same instant had taken effect,
latches again what that point has left (R375, assumption 11). -/
def State.memoryAgain (s : State) (n : Nat) : State :=
  let x := s.nodeSt n
  match s.node n, x.frame, x.before with
  | some nr, some f, some b =>
    if f.segs.isEmpty && nr.surf == f.strm then
      let s0 := s.releaseFrame f
      let l := latchNode s0.records none (0, 0) 257 { s0 with layers := unlatch f.layers s0.layers b } [] n
      l.s.setNode n { l.s.nodeSt n with frame := some { f with
        plans := l.plans, comp := l.comp, conv := s.outConv n (s.stream f.strm).format, guarded := s.guardSpans n } }
    else s
  | _, _, _ => s

/-- The MEMORY nodes of clock `clk`. -/
def State.memoryOn (s : State) (clk : Nat) : List Nat :=
  s.nodeIds.filter fun n => match s.node n with
    | some r => r.dest == 1 && r.fclk == clk
    | none => false

/-- The MEMORY nodes of clock `clk` start at its commit point; those of the clocks `also`, whose points are at the same
instant, latch again. -/
def State.memoryNodes (s : State) (clk : Nat) (also : List Nat) : State :=
  let s1 := (s.memoryOn clk).foldl State.memoryStart s
  (also.flatMap s1.memoryOn).foldl State.memoryAgain s1

/-! ### Segments (R354, R358) -/

/-- Damage as the pixel functions ask for it. -/
def State.dmg (s : State) (st buf lv t : Nat) : Bool := s.tileDamaged st buf lv t

/-- Columns [x0, x1) of segment `k` of a MEMORY node's line: at most 1,024 pixels (R354). -/
def memSeg (w k : Nat) : Nat × Nat := (1024 * k, min w (1024 * k + 1024))

/-- The node canvases that columns [x0, x1) of line `y` of a frame are composed of, with the pixels needed of each. -/
def Frame.needs (f : Frame) (x0 x1 y : Nat) : List (Nat × List (Nat × Nat)) :=
  match f.plans with
  | p :: _ => planNeeds f.plans 257 p.node ((List.range (x1 - x0)).map fun k => (x0 + k, y))
  | [] => []

/-- The layer whose fault fill a segment drew last, with the cause at its last such pixel (CMP.FAULT_LAST): INLINE
children first, layers in blending order, pixels from left to right (R358, R359; the order: DEDUCED, assumption 63).
-/
def segFault (ls : List (DrawLayer × List (Nat × Nat))) (dmg : Nat → Nat → Nat → Nat → Bool) : Option (Nat × Nat) :=
  ls.foldl (fun acc e => match (e.2.filterMap fun q => e.1.faultAt dmg q.1 q.2).getLast? with
    | some c => some (e.1.index, c)
    | none => acc) none

/-- The layers that read a damaged tile at pixels they draw, with stream and level (R315, R437). -/
def poisonLayers (ls : List (DrawLayer × List (Nat × Nat))) (dmg : Nat → Nat → Nat → Nat → Bool) : List (Nat × Nat × Nat) :=
  ls.filterMap fun e => match e.1.draw, e.1.src with
    | .nothing, _ => none
    | _, .image st _ lv _ _ _ _ => if e.2.any fun q => e.1.poisoned dmg q.1 q.2 then some (e.1.index, st, lv) else none
    | _, _ => none

/-- The segments of INLINE nodes that hold fault fill among the pixels needed: node, line, segment of `cut` pixels. -/
def inlineFaults (f : Frame) (dmg : Nat → Nat → Nat → Nat → Bool) (cut : Nat → Nat) (needs : List (Nat × List (Nat × Nat))) :
    List (Nat × Nat × Nat) :=
  needs.dropLast.flatMap fun e => match planOf f.plans e.1 with
    | none => []
    | some p => e.2.filterMap fun q =>
      if (planPixel f.plans dmg 257 e.1 q.1 q.2).fault then some (e.1, q.2, q.1 / cut p.w) else none

/-- A frame whose images are as the held buffers hold them now: the host may have written raw into them (R77). -/
def State.refreshFrame (s : State) (f : Frame) : Frame :=
  { f with plans := f.plans.map fun p => { p with layers := p.layers.map fun l =>
      match l.src with
      | .image st buf lv mode e bias img =>
        match ((s.stream st).bufs[buf]?).bind fun b => b.levels[lv]? with
        | some now => if now.px = img.px ∧ now.tag = img.tag then { l with src := .image st buf lv mode e bias now } else l
        | none => l
      | _ => l } }

/-- The damaged tiles that layers read at pixels they draw: stream, buffer, level, tile (R294, R315). -/
def poisonTiles (ls : List (DrawLayer × List (Nat × Nat))) (dmg : Nat → Nat → Nat → Nat → Bool) : List (Nat × Nat × Nat × Nat) :=
  (ls.flatMap fun e => match e.1.draw, e.1.src with
    | .nothing, _ => []
    | _, .image st buf lv _ _ _ img =>
      ((List.range img.tiles).filter fun t => dmg st buf lv t
        && e.2.any fun q => e.1.poisoned (fun a b c k => a == st && b == buf && c == lv && k == t) q.1 q.2).map
          fun t => (st, buf, lv, t)
    | _, _ => []).eraseDups

/-- Marks and events of the damaged tiles a segment read (R315, R437). -/
def State.markPoison (s : State) (l : List (Nat × Nat × Nat)) : State :=
  l.foldl (fun t e =>
    let x := t.layer e.1
    (t.setLayer e.1 { x with poison := some (e.2.1, (t.stream e.2.1).frames) }).poisonRead e.2.1 e.2.2) s

/-- CMP.FAULT_LAST (R358). -/
def State.faultLast (s : State) (cause slot node : Nat) : State :=
  s.setReg Reg.CMP_FAULT_LAST (w32 (cause * 2 ^ 28 + slot * 2 ^ 24 + node))

/-- A frame with segment `k` of line `y`, columns [x0, x1), composed (R354): its pixels, its fault marks, its events.
`cut` gives the segments of an INLINE canvas, by its width; `port` is the memory port it reads through (R280). -/
def State.composeSegment (s : State) (port : Nat) (f0 : Frame) (cut : Nat → Nat) (y k x0 x1 : Nat) : State × Frame :=
  let f := s.refreshFrame f0
  let px := (List.range (x1 - x0)).map fun i => f.pixel s.dmg (x0 + i) y
  let fault := px.any (·.fault)
  let needs := f.needs x0 x1 y
  let ls := needLayers f.plans needs
  let s1 := (poisonTiles ls s.dmg).foldl (fun t e => t.tileFaults port e.1 e.2.1 e.2.2.1 e.2.2.2)
    (s.markPoison (poisonLayers ls s.dmg))
  let s2 := match segFault ls s.dmg with
    | some (i, c) => s1.faultLast c (i % 16) (i / 16)
    | none => s1
  (s2, { f with segs := Cells.put (fun _ => []) f.segs (segKey y k) px,
                faultSegs := if fault then f.faultSegs + 1 else f.faultSegs,
                inline := (inlineFaults f s.dmg cut needs).foldl (fun l e => if l.contains e then l else e :: l) f.inline })

/-- A frame of node `n` has ended: FAULT_SEGS of the node and of the INLINE nodes composed in it (CMP.NODE_STATUS). -/
def State.countFaults (s : State) (n : Nat) (f : Frame) (segs : Nat) : State :=
  (f.plans.drop 1).foldl (fun t p =>
      t.setNode p.node { t.nodeSt p.node with faultSegs := (f.inline.filter fun e => e.1 == p.node).length })
    (s.setNode n { s.nodeSt n with faultSegs := segs })

/-- Columns [x0, x1) of line `y` of the frame that stream `i` writes are composed: they are present for the codec
(R313). -/
def State.writeSegment (s : State) (i y x0 x1 : Nat) (img : Img) : State :=
  match (s.stream i).cur with
  | some g => (s.setStream i { s.stream i with cur := some { g with segs := (y, x0, x1 - x0) :: g.segs } }).storeLine i y img
  | none => s

/-- Segment lookup of a MEMORY node. -/
def memSegOf (x : Nat) : Nat × Nat := (x / 1024, x / 1024 * 1024)

/-- A segment of a MEMORY node completes; the last one flips the surface and ends the frame (R33). A surface that a
delta has replaced or removed since takes no frame of before (DESIGN CHOICE, assumption 47). -/
def State.memorySegment (s : State) (n : Nat) (f : Frame) (y k : Nat) : State :=
  let seg := memSeg f.w k
  if f.h ≤ y ∨ seg.2 ≤ seg.1 ∨ Cells.get (fun _ => []) f.segs (segKey y k) ≠ [] then s
  else
    let (s0, f1) := s.composeSegment 3 f (fun _ => 1024) y k seg.1 seg.2
    let s1 := s0.writeSegment f.strm y seg.1 seg.2 (f1.toImg memSegOf f.w f.h)
    if f1.segs.length = f.h * cdiv f.w 1024 then
      let s2 := (if (s1.stream f.strm).cur.isSome then
          s1.flipNode n f.strm f1 [] (f1.toImg memSegOf f.w f.h) (decide (f1.faultSegs ≠ 0))
        else s1).countFaults n f1 f1.faultSegs
      (s2.setNode n { s2.nodeSt n with frame := none }).releaseFrame f1
    else s1.setNode n { s1.nodeSt n with frame := some f1 }

end Sys2Proof.Machine
end

