-- ==== Sys2Proof/Machine/Stm.lean ====
section
/-!
DEFINITION. Machine/Stm.lean: the 65 step machines (R118 to R131): the decoding of program words, every instruction,
event lines, ports, faults and control. A command of this family names the machine; the instruction is the program
word at its PC.
-/
namespace Sys2Proof.Machine

/-! ### Instructions (R120, R121) -/

/-- A step-machine instruction. -/
inductive StmOp where
  | nop
  | movi (d imm : Nat)
  | movh (d imm : Nat)
  | mov (d a : Nat)
  | add (d a b : Nat)
  | addi (d a imm : Nat)
  | sub (d a b : Nat)
  | and (d a b : Nat)
  | andi (d a imm : Nat)
  | or (d a b : Nat)
  | ori (d a imm : Nat)
  | xor (d a b : Nat)
  | shl (d a imm : Nat)
  | shr (d a imm : Nat)
  | cmp (a b : Nat)
  | cmpi (a imm : Nat)
  | br (cond target : Nat)
  | call (target : Nat)
  | ret
  | ld (d a imm : Nat)
  | st (d a imm : Nat)
  | inp (d port : Nat)
  | out (d port : Nat)
  | waite (d mask : Nat)
  | clre (mask : Nat)
  | rdts (d : Nat)
  | halt
  | fault (code : Nat)
  | illegal
  deriving DecidableEq, Repr

/-- The instruction of a program word (R120 to R122). Bits that an instruction does not use are zero, in a partly used
immediate too (DEDUCED, assumption 12); anything else is illegal (R127). -/
def StmOp.decode (w : Word) : StmOp :=
  let d := wbits w 25 23
  let a := wbits w 22 20
  let b := wbits w 19 17
  let z16 := wbits w 16 16 == 0
  let imm := wbits w 15 0
  let noD := d == 0
  let noA := a == 0
  let noB := b == 0 && z16
  let noI := imm == 0
  let chk (ok : Bool) (i : StmOp) : StmOp := if ok then i else .illegal
  match wbits w 31 26 with
  | 0x00 => chk (noD && noA && noB && noI) .nop
  | 0x01 => chk (noA && noB) (.movi d imm)
  | 0x02 => chk (noA && noB) (.movh d imm)
  | 0x03 => chk (noB && noI) (.mov d a)
  | 0x04 => chk (z16 && noI) (.add d a b)
  | 0x05 => chk noB (.addi d a imm)
  | 0x06 => chk (z16 && noI) (.sub d a b)
  | 0x07 => chk (z16 && noI) (.and d a b)
  | 0x08 => chk noB (.andi d a imm)
  | 0x09 => chk (z16 && noI) (.or d a b)
  | 0x0A => chk noB (.ori d a imm)
  | 0x0B => chk (z16 && noI) (.xor d a b)
  | 0x0C => chk (noB && decide (imm < 32)) (.shl d a imm)
  | 0x0D => chk (noB && decide (imm < 32)) (.shr d a imm)
  | 0x0E => chk (noD && z16 && noI) (.cmp a b)
  | 0x0F => chk (noD && noB) (.cmpi a imm)
  | 0x10 => chk (wbits w 21 9 == 0 && decide (wbits w 25 22 ≤ 6)) (.br (wbits w 25 22) (wbits w 8 0))
  | 0x11 => chk (noD && noA && noB && decide (imm < 512)) (.call imm)
  | 0x12 => chk (noD && noA && noB && noI) .ret
  | 0x13 => chk noB (.ld d a imm)
  | 0x14 => chk noB (.st d a imm)
  | 0x15 => chk (noA && noB && decide (imm < 16)) (.inp d imm)
  | 0x16 => chk (noA && noB && decide (imm < 16)) (.out d imm)
  | 0x17 => chk (noA && noB) (.waite d imm)
  | 0x18 => chk (noD && noA && noB) (.clre imm)
  | 0x19 => chk (noA && noB && noI) (.rdts d)
  | 0x1A => chk (noD && noA && noB && noI) .halt
  | 0x1B => chk (noD && noA && noB && decide (0x100 ≤ imm) && decide (imm < 0x1000)) (.fault imm)
  | _ => .illegal

/-- A word from its fields OP, d, a, b, bit 16 and the immediate (R120). -/
def StmOp.word (op d a b imm : Nat) : Word :=
  BitVec.ofNat 32 (op * 2 ^ 26 + d * 2 ^ 23 + a * 2 ^ 20 + b * 2 ^ 17 + imm)

/-- The program word of an instruction (R120 to R122). -/
def StmOp.encode : StmOp → Word
  | .nop => StmOp.word 0x00 0 0 0 0
  | .movi d imm => StmOp.word 0x01 d 0 0 imm
  | .movh d imm => StmOp.word 0x02 d 0 0 imm
  | .mov d a => StmOp.word 0x03 d a 0 0
  | .add d a b => StmOp.word 0x04 d a b 0
  | .addi d a imm => StmOp.word 0x05 d a 0 imm
  | .sub d a b => StmOp.word 0x06 d a b 0
  | .and d a b => StmOp.word 0x07 d a b 0
  | .andi d a imm => StmOp.word 0x08 d a 0 imm
  | .or d a b => StmOp.word 0x09 d a b 0
  | .ori d a imm => StmOp.word 0x0A d a 0 imm
  | .xor d a b => StmOp.word 0x0B d a b 0
  | .shl d a imm => StmOp.word 0x0C d a 0 imm
  | .shr d a imm => StmOp.word 0x0D d a 0 imm
  | .cmp a b => StmOp.word 0x0E 0 a b 0
  | .cmpi a imm => StmOp.word 0x0F 0 a 0 imm
  | .br cond target => BitVec.ofNat 32 (0x10 * 2 ^ 26 + cond * 2 ^ 22 + target)
  | .call target => StmOp.word 0x11 0 0 0 target
  | .ret => StmOp.word 0x12 0 0 0 0
  | .ld d a imm => StmOp.word 0x13 d a 0 imm
  | .st d a imm => StmOp.word 0x14 d a 0 imm
  | .inp d port => StmOp.word 0x15 d 0 0 port
  | .out d port => StmOp.word 0x16 d 0 0 port
  | .waite d mask => StmOp.word 0x17 d 0 0 mask
  | .clre mask => StmOp.word 0x18 0 0 0 mask
  | .rdts d => StmOp.word 0x19 d 0 0 0
  | .halt => StmOp.word 0x1A 0 0 0 0
  | .fault code => StmOp.word 0x1B 0 0 0 code
  | .illegal => 0xFFFF_FFFF

/-- Every operand of an instruction fits its field (R120, R121, R122). -/
def StmOp.wf : StmOp → Bool
  | .nop => true
  | .movi d imm => decide (d < 8) && decide (imm < 65536)
  | .movh d imm => decide (d < 8) && decide (imm < 65536)
  | .mov d a => decide (d < 8) && decide (a < 8)
  | .add d a b => decide (d < 8) && decide (a < 8) && decide (b < 8)
  | .addi d a imm => decide (d < 8) && decide (a < 8) && decide (imm < 65536)
  | .sub d a b => decide (d < 8) && decide (a < 8) && decide (b < 8)
  | .and d a b => decide (d < 8) && decide (a < 8) && decide (b < 8)
  | .andi d a imm => decide (d < 8) && decide (a < 8) && decide (imm < 65536)
  | .or d a b => decide (d < 8) && decide (a < 8) && decide (b < 8)
  | .ori d a imm => decide (d < 8) && decide (a < 8) && decide (imm < 65536)
  | .xor d a b => decide (d < 8) && decide (a < 8) && decide (b < 8)
  | .shl d a imm => decide (d < 8) && decide (a < 8) && decide (imm < 32)
  | .shr d a imm => decide (d < 8) && decide (a < 8) && decide (imm < 32)
  | .cmp a b => decide (a < 8) && decide (b < 8)
  | .cmpi a imm => decide (a < 8) && decide (imm < 65536)
  | .br cond target => decide (cond ≤ 6) && decide (target < 512)
  | .call target => decide (target < 512)
  | .ret => true
  | .ld d a imm => decide (d < 8) && decide (a < 8) && decide (imm < 65536)
  | .st d a imm => decide (d < 8) && decide (a < 8) && decide (imm < 65536)
  | .inp d port => decide (d < 8) && decide (port < 16)
  | .out d port => decide (d < 8) && decide (port < 16)
  | .waite d mask => decide (d < 8) && decide (mask < 65536)
  | .clre mask => decide (mask < 65536)
  | .rdts d => decide (d < 8)
  | .halt => true
  | .fault code => decide (0x100 ≤ code) && decide (code < 0x1000)
  | .illegal => false

/-! ### Machines -/

/-- Step machine `m`. -/
def State.machine (s : State) (m : Nat) : StepMachine := Cells.get (fun _ => {}) s.stm m

/-- Replace step machine `m`. -/
def State.setMachine (s : State) (m : Nat) (x : StepMachine) : State := { s with stm := Cells.put (fun _ => {}) s.stm m x }

/-- General register `k` of a machine. -/
def StepMachine.reg (x : StepMachine) (k : Nat) : Word := Cells.get (fun _ => 0) x.g k

/-- Write general register `k`. -/
def StepMachine.setReg (x : StepMachine) (k : Nat) (v : Word) : StepMachine := { x with g := Cells.put (fun _ => 0) x.g k v }

/-- The machine after RESTART: everything of R119 cleared but program memory, and with it what the machine's ports have
set: the alarm time of P0, the tap, LINE_SET and the alive counter of P4 (DESIGN CHOICE, assumption 74). -/
def StepMachine.cleared (x : StepMachine) : StepMachine := { prog := x.prog }

/-- The kinds of machine by number (R118). -/
inductive StmKind where
  | ingest
  | output
  | touch
  deriving DecidableEq, Repr

/-- The kind of machine `m` (R118). -/
def stmKind (m : Nat) : StmKind := if m < 40 then .ingest else if m < 64 then .output else .touch

/-- STM.STATUS.STATE of machine `m`. -/
def State.stmState (s : State) (m : Nat) : Nat := s.fld (Reg.STM_STATUS m) 31 29

/-- Write STM.STATUS.STATE. -/
def State.setStmState (s : State) (m v : Nat) : State := s.setFld (Reg.STM_STATUS m) 31 29 v

/-- STM.CTRL.RUN of machine `m`. -/
def State.stmRun (s : State) (m : Nat) : Bool := s.bit (Reg.STM_CTRL m) 31

/-- STM.CTRL.WORDS of machine `m`. -/
def State.stmWords (s : State) (m : Nat) : Nat := s.fld (Reg.STM_CTRL m) 9 0

/-- STM.CTRL.GRANT of machine `m`. -/
def State.stmGrant (s : State) (m : Nat) : Nat := s.fld (Reg.STM_CTRL m) 25 22

/-- The instruction machine `m` executes next: it is RUNNING and its PC lies below WORDS. -/
def State.stmFetch (s : State) (m : Nat) : Option StmOp :=
  let x := s.machine m
  if m ≤ 64 ∧ s.stmState m = 1 ∧ x.pc < s.stmWords m then
    some (StmOp.decode (Cells.get (fun _ => 0) x.prog x.pc))
  else none

/-- The machine goes on: RUNNING while RUN is 1, STOPPED after the current instruction when RUN is 0 (STM.CTRL). -/
def State.stmGo (s : State) (m : Nat) : State := s.setStmState m (if s.stmRun m then 1 else 0)

/-- Complete an instruction: the machine's new content, its next PC. -/
def State.stmDone (s : State) (m : Nat) (x : StepMachine) (pc : Nat) : State :=
  (s.setMachine m { x with pc := pc % 512, wait := .none }).stmGo m

/-- Complete an instruction that goes to the next word. -/
def State.stmNext (s : State) (m : Nat) (x : StepMachine) : State := s.stmDone m x (x.pc + 1)

/-- A machine stops FAULTED, records its code and sets REEL_FAULT (R127). -/
def State.stmFault (s : State) (m code : Nat) : State :=
  ((s.setStmState m 4).setFld (Reg.STM_STATUS m) 27 16 code).event Blk.STM 0

/-- Z and N of a result. -/
def StepMachine.zn (x : StepMachine) (r : Word) : StepMachine := { x with z := r == 0, n := r.getLsbD 31 }

/-- A register-writing instruction without flags. -/
def State.stmPut (s : State) (m d : Nat) (v : Word) : State := s.stmNext m ((s.machine m).setReg d v)

/-- A register-writing instruction that sets Z and N. -/
def State.stmLogic (s : State) (m d : Nat) (v : Word) : State := s.stmNext m (((s.machine m).setReg d v).zn v)

/-- Addition: Z, N and the carry out. -/
def State.stmAdd (s : State) (m d : Nat) (a b : Word) : State :=
  let x := ((s.machine m).setReg d (a + b)).zn (a + b)
  s.stmNext m { x with c := decide (2 ^ 32 ≤ a.toNat + b.toNat) }

/-- The flags of a - b: Z, N and the borrow. -/
def StepMachine.cmpFlags (x : StepMachine) (a b : Word) : StepMachine :=
  let y := x.zn (a - b)
  { y with c := decide (a.toNat < b.toNat) }

/-- A 16-bit immediate sign-extended (R120). -/
def sx16 (imm : Nat) : Word := (BitVec.ofNat 16 imm).signExtend 32

/-! ### The plain instructions -/

/-- NOP (R121). -/
def execNop (m : Nat) (s : State) : Res :=
  match s.stmFetch m with
  | some .nop => .next (s.stmNext m (s.machine m))
  | _ => .next s

/-- MOVI (R121). -/
def execMovi (m : Nat) (s : State) : Res :=
  match s.stmFetch m with
  | some (.movi d imm) => .next (s.stmPut m d (w32 imm))
  | _ => .next s

/-- MOVH (R121): the lower half is kept. -/
def execMovh (m : Nat) (s : State) : Res :=
  match s.stmFetch m with
  | some (.movh d imm) => .next (s.stmPut m d (wput ((s.machine m).reg d) 31 16 imm))
  | _ => .next s

/-- MOV (R121). -/
def execMov (m : Nat) (s : State) : Res :=
  match s.stmFetch m with
  | some (.mov d a) => .next (s.stmPut m d ((s.machine m).reg a))
  | _ => .next s

/-- ADD (R121). -/
def execAdd (m : Nat) (s : State) : Res :=
  match s.stmFetch m with
  | some (.add d a b) => .next (s.stmAdd m d ((s.machine m).reg a) ((s.machine m).reg b))
  | _ => .next s

/-- ADDI (R121). -/
def execAddi (m : Nat) (s : State) : Res :=
  match s.stmFetch m with
  | some (.addi d a imm) => .next (s.stmAdd m d ((s.machine m).reg a) (sx16 imm))
  | _ => .next s

/-- SUB (R121). -/
def execSub (m : Nat) (s : State) : Res :=
  match s.stmFetch m with
  | some (.sub d a b) =>
    let x := s.machine m
    .next (s.stmNext m ((x.setReg d (x.reg a - x.reg b)).cmpFlags (x.reg a) (x.reg b)))
  | _ => .next s

/-- AND (R121). -/
def execAnd (m : Nat) (s : State) : Res :=
  match s.stmFetch m with
  | some (.and d a b) => .next (s.stmLogic m d ((s.machine m).reg a &&& (s.machine m).reg b))
  | _ => .next s

/-- ANDI (R121). -/
def execAndi (m : Nat) (s : State) : Res :=
  match s.stmFetch m with
  | some (.andi d a imm) => .next (s.stmLogic m d ((s.machine m).reg a &&& w32 imm))
  | _ => .next s

/-- OR (R121). -/
def execOr (m : Nat) (s : State) : Res :=
  match s.stmFetch m with
  | some (.or d a b) => .next (s.stmLogic m d ((s.machine m).reg a ||| (s.machine m).reg b))
  | _ => .next s

/-- ORI (R121). -/
def execOri (m : Nat) (s : State) : Res :=
  match s.stmFetch m with
  | some (.ori d a imm) => .next (s.stmLogic m d ((s.machine m).reg a ||| w32 imm))
  | _ => .next s

/-- XOR (R121). -/
def execXor (m : Nat) (s : State) : Res :=
  match s.stmFetch m with
  | some (.xor d a b) => .next (s.stmLogic m d ((s.machine m).reg a ^^^ (s.machine m).reg b))
  | _ => .next s

/-- SHL (R121). -/
def execShl (m : Nat) (s : State) : Res :=
  match s.stmFetch m with
  | some (.shl d a imm) => .next (s.stmLogic m d ((s.machine m).reg a <<< imm))
  | _ => .next s

/-- SHR, logical (R121). -/
def execShr (m : Nat) (s : State) : Res :=
  match s.stmFetch m with
  | some (.shr d a imm) => .next (s.stmLogic m d ((s.machine m).reg a >>> imm))
  | _ => .next s

/-- CMP (R121). -/
def execCmp (m : Nat) (s : State) : Res :=
  match s.stmFetch m with
  | some (.cmp a b) =>
    let x := s.machine m
    .next (s.stmNext m (x.cmpFlags (x.reg a) (x.reg b)))
  | _ => .next s

/-- CMPI (R121). -/
def execCmpi (m : Nat) (s : State) : Res :=
  match s.stmFetch m with
  | some (.cmpi a imm) =>
    let x := s.machine m
    .next (s.stmNext m (x.cmpFlags (x.reg a) (sx16 imm)))
  | _ => .next s

/-- Does a BR condition hold (R122)? -/
def brHolds (cond : Nat) (x : StepMachine) : Bool :=
  match cond with
  | 0 => true
  | 1 => x.z
  | 2 => !x.z
  | 3 => x.c
  | 4 => !x.c
  | 5 => x.n
  | 6 => !x.n
  | _ => false

/-- BR (R121, R122). -/
def execBr (m : Nat) (s : State) : Res :=
  match s.stmFetch m with
  | some (.br cond target) =>
    let x := s.machine m
    .next (s.stmDone m x (if brHolds cond x then target else x.pc + 1))
  | _ => .next s

/-- CALL (R121): STACK with four entries held (R127). -/
def execCall (m : Nat) (s : State) : Res :=
  match s.stmFetch m with
  | some (.call target) =>
    let x := s.machine m
    if x.stack.length < 4 then .next (s.stmDone m { x with stack := (x.pc + 1) % 512 :: x.stack } target)
    else .next (s.stmFault m 0x003)
  | _ => .next s

/-- RET (R121): STACK with no entry held (R127). -/
def execRet (m : Nat) (s : State) : Res :=
  match s.stmFetch m with
  | some .ret =>
    let x := s.machine m
    match x.stack with
    | pc :: t => .next (s.stmDone m { x with stack := t } pc)
    | [] => .next (s.stmFault m 0x003)
  | _ => .next s

/-- The data word at a data address: local 0 to 63, SHARE 256 to 303 (R119); none is DATA_RANGE (R127). -/
def State.stmLoad (s : State) (m a : Nat) : Option Word :=
  if a < 64 then some (Cells.get (fun _ => 0) (s.machine m).loc a)
  else if 256 ≤ a ∧ a < 304 then some (s.reg (Reg.STM_SHARE (a - 256)))
  else none

/-- LD (R121). The address, here and of ST, is the sum of the register and imm as numbers: one past 2^32 is in no range
(DESIGN CHOICE, assumption 74). -/
def execLd (m : Nat) (s : State) : Res :=
  match s.stmFetch m with
  | some (.ld d a imm) =>
    match s.stmLoad m (((s.machine m).reg a).toNat + imm) with
    | some v => .next (s.stmPut m d v)
    | none => .next (s.stmFault m 0x004)
  | _ => .next s

/-- ST (R121, R126): a SHARE store stands once applied; commands are applied one after another, so the order of a
collision is the order of the commands. -/
def execSt (m : Nat) (s : State) : Res :=
  match s.stmFetch m with
  | some (.st d a imm) =>
    let x := s.machine m
    let addr := (x.reg a).toNat + imm
    if addr < 64 then .next (s.stmNext m { x with loc := Cells.put (fun _ => 0) x.loc addr (x.reg d) })
    else if 256 ≤ addr ∧ addr < 304 then .next ((s.setReg (Reg.STM_SHARE (addr - 256)) (x.reg d)).stmNext m x)
    else .next (s.stmFault m 0x004)
  | _ => .next s

/-! ### Event lines (R123) -/

/-- Latch event line `e` of machine `m`; repeated events merge. -/
def State.stmEvent (s : State) (m e : Nat) : State :=
  let x := s.machine m
  s.setMachine m { x with ev := x.ev ||| BitVec.ofNat 16 (2 ^ e) }

/-- WAITE returns: the pending masked lines go to Gd and are cleared. -/
def State.stmWaiteReturn (s : State) (m mask d : Nat) : State :=
  let x := s.machine m
  let p := x.ev &&& BitVec.ofNat 16 mask
  s.stmNext m { x.setReg d (p.zeroExtend 32) with ev := x.ev &&& ~~~ BitVec.ofNat 16 mask }

/-- WAITE (R121): returns at once when a masked line is pending, waits otherwise. -/
def execWaite (m : Nat) (s : State) : Res :=
  match s.stmFetch m with
  | some (.waite d mask) =>
    let x := s.machine m
    if x.ev &&& BitVec.ofNat 16 mask ≠ 0 then .next (s.stmWaiteReturn m mask d)
    else .next ((s.setMachine m { x with wait := .event mask d }).setStmState m 2)
  | _ => .next s

/-- A machine waiting in WAITE wakes when a masked line is pending (R121). -/
def execWaiteWake (m : Nat) (s : State) : Res :=
  let x := s.machine m
  match x.wait with
  | .event mask d =>
    if s.stmState m = 2 ∧ x.ev &&& BitVec.ofNat 16 mask ≠ 0 then .next (s.stmWaiteReturn m mask d) else .next s
  | _ => .next s

/-- CLRE (R121). -/
def execClre (m : Nat) (s : State) : Res :=
  match s.stmFetch m with
  | some (.clre mask) =>
    let x := s.machine m
    .next (s.stmNext m { x with ev := x.ev &&& ~~~ BitVec.ofNat 16 mask })
  | _ => .next s

/-- RDTS (R121). -/
def execRdts (m : Nat) (s : State) : Res :=
  match s.stmFetch m with
  | some (.rdts d) => .next (s.stmPut m d s.ts)
  | _ => .next s

/-- HALT (R121): the PC stays at the instruction. -/
def execHalt (m : Nat) (s : State) : Res :=
  match s.stmFetch m with
  | some .halt => .next (s.setStmState m 3)
  | _ => .next s

/-- FAULT (R121). -/
def execStmFault (m : Nat) (s : State) : Res :=
  match s.stmFetch m with
  | some (.fault code) => .next (s.stmFault m code)
  | _ => .next s

/-- The event ILLEGAL_INSTRUCTION (R127): a running machine meets an illegal word, a PC at or beyond WORDS, or, where
`parity` says so, a parity error of its program word. -/
def execIllegalInstruction (m : Nat) (parity : Bool) (s : State) : Res :=
  if m ≤ 64 ∧ s.stmState m = 1 then
    if s.stmWords m ≤ (s.machine m).pc then .next (s.stmFault m 0x002)
    else if parity then .next (s.stmFault m 0x006)
    else match s.stmFetch m with
      | some .illegal => .next (s.stmFault m 0x001)
      | _ => .next s
  else .next s

/-! ### Input ports (R123) -/

/-- The ports a machine of a kind may read. -/
def stmReadable (k : StmKind) (p : Nat) : Bool :=
  match k with
  | .ingest => p == 1 || p == 5
  | .output => p == 1
  | .touch => p == 1

/-- The ports a machine of a kind may write. -/
def stmWritable (k : StmKind) (p : Nat) : Bool :=
  (p == 0 || p == 8 || p == 9) ||
  match k with
  | .ingest => p == 2 || p == 3 || p == 4
  | .output => p == 2 || p == 3
  | .touch => p == 2

/-- IN from a FIFO port: takes the oldest word, or waits (R121). -/
def State.stmInFifo (s : State) (m d p : Nat) (fifo : List Word) (pop : StepMachine → List Word → StepMachine) : State :=
  let x := s.machine m
  match fifo with
  | w :: t => s.stmNext m ((pop x t).setReg d w)
  | [] => (s.setMachine m { x with wait := .port p d }).setStmState m 2

/-- IN from port P1 TAP of an ingest machine; an IN from a port absent for the machine's kind faults with PORT
(R121, R127). -/
def execInTap (m : Nat) (s : State) : Res :=
  match s.stmFetch m with
  | some (.inp d p) =>
    if stmKind m = .ingest ∧ p = 1 then
      .next (s.stmInFifo m d 1 (s.machine m).tapFifo (fun x t => { x with tapFifo := t }))
    else if stmReadable (stmKind m) p then .next s
    else .next (s.stmFault m 0x005)
  | _ => .next s

/-- IN from port P5 ANC of an ingest machine (R199). -/
def execInAnc (m : Nat) (s : State) : Res :=
  match s.stmFetch m with
  | some (.inp d p) =>
    if stmKind m = .ingest ∧ p = 5 then
      .next (s.stmInFifo m d 5 (s.machine m).ancFifo (fun x t => { x with ancFifo := t }))
    else .next s
  | _ => .next s

/-- IN from port P1 PROPOSAL of the touch machine (R481). -/
def execInProposal (m : Nat) (s : State) : Res :=
  match s.stmFetch m with
  | some (.inp d p) =>
    if stmKind m = .touch ∧ p = 1 then
      .next (s.stmInFifo m d 1 (s.machine m).proposals (fun x t => { x with proposals := t }))
    else .next s
  | _ => .next s

/-- A machine waiting in IN resumes when a word is present at its port (R121). -/
def execInResume (m : Nat) (s : State) : Res :=
  let x := s.machine m
  if s.stmState m = 2 then
    match x.wait with
    | .port p d =>
      match stmKind m, p with
      | .ingest, 1 => .next (s.stmInFifo m d 1 x.tapFifo (fun x t => { x with tapFifo := t }))
      | .ingest, _ => .next (s.stmInFifo m d 5 x.ancFifo (fun x t => { x with ancFifo := t }))
      | .touch, _ => .next (s.stmInFifo m d 1 x.proposals (fun x t => { x with proposals := t }))
      | .output, _ => .next s
    | _ => .next s
  else .next s

/-! ### Output ports (R123 to R125) -/

/-- The word an OUT to port `p` sends, where machine `m` executes one. -/
def State.stmOutWord (s : State) (m p : Nat) : Option Word :=
  match s.stmFetch m with
  | some (.out d q) => if q = p then some ((s.machine m).reg d) else none
  | _ => none

/-- OUT to P0 ALARM (R123): sets the alarm time and clears E0; an alarm already passed latches E0 at once. -/
def execOutAlarm (m : Nat) (s : State) : Res :=
  match s.stmOutWord m 0 with
  | some w =>
    let x := s.machine m
    let due := tsReached s.ts w
    let ev0 := x.ev &&& ~~~ (1 : BitVec 16)
    .next (s.stmNext m { x with alarm := if due then none else some w, ev := if due then ev0 ||| 1 else ev0 })
  | none => .next s

/-- TS32 reaches the P0 alarm time and E0 latches (R123). -/
def execAlarmTimeReached (m : Nat) (s : State) : Res :=
  let x := s.machine m
  match x.alarm with
  | some w =>
    if tsReached s.ts w then .next ((s.setMachine m { x with alarm := none }).stmEvent m 0) else .next s
  | none => .next s

/-- The GPIO lines of the granted groups (R125): group g holds GPIO4g to GPIO4g+3. -/
def grantLines (grant : Nat) : BitVec 16 :=
  BitVec.ofNat 16 ((if grant.testBit 0 then 0x000F else 0) + (if grant.testBit 1 then 0x00F0 else 0)
    + (if grant.testBit 2 then 0x0F00 else 0) + (if grant.testBit 3 then 0xF000 else 0))

/-- Drive the masked GPIO lines, or on a standby keep them in the shadow (R125). -/
def State.driveGpio (s : State) (mask v : BitVec 16) : State :=
  if s.standby then
    let sh := s.boot.gpioShadow
    { s with boot := { s.boot with gpioShadow := (sh.1 ||| mask, (sh.2 &&& ~~~ mask) ||| (v &&& mask)) } }
  else
    { s with boot := { s.boot with gpio := (s.boot.gpio &&& ~~~ mask) ||| (v &&& mask),
                                   gpioDriven := s.boot.gpioDriven ||| mask } }

/-- The balls take the shadow values as the device becomes active (R125). -/
def State.releaseGpio (s : State) : State :=
  let sh := s.boot.gpioShadow
  { s with boot := { s.boot with gpio := (s.boot.gpio &&& ~~~ sh.1) ||| (sh.2 &&& sh.1),
                                 gpioDriven := s.boot.gpioDriven ||| sh.1, gpioShadow := (0, 0) } }

/-- OUT to P8 GPIO (R125); a mask bit outside the granted groups, and an OUT to a port absent for the machine's kind,
fault with PORT (R127). -/
def execOutGpio (m : Nat) (s : State) : Res :=
  match s.stmFetch m with
  | some (.out d p) =>
    if p = 8 then
      let w := (s.machine m).reg d
      let mask := BitVec.ofNat 16 (wbits w 31 16)
      if mask &&& ~~~ grantLines (s.stmGrant m) = 0 then
        .next ((s.driveGpio mask (BitVec.ofNat 16 (wbits w 15 0))).stmNext m (s.machine m))
      else .next (s.stmFault m 0x005)
    else if stmWritable (stmKind m) p then .next s
    else .next (s.stmFault m 0x005)
  | _ => .next s

/-- OUT to P9 NOTE (R123). -/
def execOutNote (m : Nat) (s : State) : Res :=
  match s.stmOutWord m 9 with
  | some w => .next ((s.setFld (Reg.STM_STATUS m) 15 0 (wbits w 15 0)).stmNext m (s.machine m))
  | none => .next s

/-- OUT to P2 TAP_X of an ingest machine (R123): first x and step, from the next frame start. -/
def execOutTapX (m : Nat) (s : State) : Res :=
  match stmKind m, s.stmOutWord m 2 with
  | .ingest, some w =>
    let x := s.machine m
    .next (s.stmNext m { x with tapX := (wbits w 15 0, wbits w 31 16) })
  | _, _ => .next s

/-- OUT to P3 TAP_Y of an ingest machine (R123): line, count and sub-stream, from the next frame start. -/
def execOutTapY (m : Nat) (s : State) : Res :=
  match stmKind m, s.stmOutWord m 3 with
  | .ingest, some w =>
    let x := s.machine m
    .next (s.stmNext m { x with tapY := (wbits w 15 0, wbits w 23 16, wbits w 25 24) })
  | _, _ => .next s

/-- OUT to P4 ALIVE of an ingest machine (R124): the counter of the frame whose TAP_READY has occurred; the last write
before its VIDEO_FE wins, and a write outside that interval is no frame's counter. -/
def execOutAlive (m : Nat) (s : State) : Res :=
  match stmKind m, s.stmOutWord m 4 with
  | .ingest, some w =>
    let x := s.machine m
    .next (s.stmNext m (if x.tapReady then { x with alive := some (wbits w 15 0) } else x))
  | _, _ => .next s

/-- OUT to P2 LINE_SET of an output machine (R123). -/
def execOutLineSet (m : Nat) (s : State) : Res :=
  match stmKind m, s.stmOutWord m 2 with
  | .output, some w =>
    let x := s.machine m
    .next (s.stmNext m { x with lineSet := some w.toNat })
  | _, _ => .next s

/-! ### Control (R129 to R131) -/

/-- GPIO groups that machines other than `m` hold. -/
def State.grantedElsewhere (s : State) (m : Nat) : Nat :=
  (List.range 65).foldl (fun acc k => if k = m then acc else acc ||| s.stmGrant k) 0

/-- RESTART (R119): machine state cleared, PC 0; runs if RUN is 1. -/
def State.stmRestart (s : State) (m : Nat) : State :=
  ((s.setMachine m (s.machine m).cleared).setFld (Reg.STM_STATUS m) 27 16 0).stmGo m

/-- A RUN write (STM.CTRL): 1 starts a STOPPED machine; 0 stops a RUNNING one, whose current instruction is complete
between two commands. A WAITING machine stops when its instruction completes; HALTED and FAULTED leave by RESTART. -/
def State.stmSetRun (s : State) (m : Nat) (run : Bool) : State :=
  let s1 := s.setBit (Reg.STM_CTRL m) 31 run
  if run ∧ s.stmState m = 0 then s1.setStmState m 1
  else if ¬ run ∧ s.stmState m = 1 then s1.setStmState m 0
  else s1

/-- A WORDS write; above 512 it is ignored (STM.CTRL). -/
def State.stmSetWords (s : State) (m n : Nat) : State :=
  if n ≤ 512 then s.setFld (Reg.STM_CTRL m) 9 0 n else s

/-- A GRANT write: refused as a whole field where another machine holds a named group (R131). -/
def State.stmSetGrant (s : State) (m g : Nat) : State :=
  if g % 16 &&& s.grantedElsewhere m = 0 then s.setFld (Reg.STM_CTRL m) 25 22 g
  else s.setBit Reg.STM_PROG_SEL 31 true

/-- A write of STM.CTRL[m] (R563: mixed level): KICK at level B; RUN, RESTART, GRANT and WORDS with X access, which
count as one X write. GRANT and WORDS apply before RESTART and RUN. -/
def State.stmCtrlWrite (s : State) (m : Nat) (x : Bool) (v : Word) : State :=
  let s1 := if wbit v 29 then s.stmEvent m 15 else s
  if x then
    let s2 := ((s1.stmSetGrant m (wbits v 25 22)).stmSetWords m (wbits v 9 0)).stmSetRun m (wbit v 31)
    (if wbit v 30 then s2.stmRestart m else s2).countX
  else s1

/-- A write of STM.CTRL[m] through a host port. -/
def State.stmHostCtrl (s : State) (p : Port) (m : Nat) (v : Word) : Res :=
  if m ≤ 64 then s.hostWrite p (Reg.STM_CTRL m) v (fun t => t.stmCtrlWrite m t.xOpen v) else .next s

/-- STM_RUN: a write of STM.CTRL[m] with RUN as given and the other fields as they read (R130). -/
def execStmRun (p : Port) (m : Nat) (run : Bool) (s : State) : Res :=
  s.stmHostCtrl p m (wput (s.reg (Reg.STM_CTRL m)) 31 31 (if run then 1 else 0))

/-- STM_RESTART: a write of STM.CTRL[m] with RESTART 1 (R119). -/
def execStmRestart (p : Port) (m : Nat) (s : State) : Res :=
  s.stmHostCtrl p m (wput (s.reg (Reg.STM_CTRL m)) 30 30 1)

/-- KICK: a write of STM.CTRL[m] with KICK 1 (R123). -/
def execKick (p : Port) (m : Nat) (s : State) : Res :=
  s.stmHostCtrl p m (wput (s.reg (Reg.STM_CTRL m)) 29 29 1)

/-- STM_GRANT: a write of STM.CTRL[m] with GRANT as given (R131). -/
def execStmGrant (p : Port) (m g : Nat) (s : State) : Res :=
  s.stmHostCtrl p m (wput (s.reg (Reg.STM_CTRL m)) 25 22 g)

/-- STM_WORDS: a write of STM.CTRL[m] with WORDS as given (R130); a number that the 10-bit field cannot hold is no
write of it. -/
def execStmWords (p : Port) (m n : Nat) (s : State) : Res :=
  s.stmHostCtrl p m (wput (s.reg (Reg.STM_CTRL m)) 9 0 n)

/-- The machine that PROG_SEL names. -/
def State.progMachine (s : State) : Nat := s.fld Reg.STM_PROG_SEL 6 0

/-- PROG_ADDR advances by 1, wrapping at 512. -/
def State.progAdvance (s : State) : State := s.incWrap Reg.STM_PROG_ADDR 8 0

/-- A PROG_DATA write with X access (R130): into a STOPPED, HALTED or FAULTED machine it stores the word and advances
PROG_ADDR; aimed at a RUNNING or WAITING machine it is discarded and sets PROG_SEL.REFUSED. A selection above 64 names
no machine: nothing is stored, and the address advances (DESIGN CHOICE, assumption 14). -/
def State.progWrite (s : State) (v : Word) : State :=
  let m := s.progMachine
  if s.stmState m = 1 ∨ s.stmState m = 2 then s.setBit Reg.STM_PROG_SEL 31 true
  else
    let x := s.machine m
    let s1 := if m ≤ 64 then
        s.setMachine m { x with prog := Cells.put (fun _ => 0) x.prog (s.fld Reg.STM_PROG_ADDR 8 0) v }
      else s
    s1.progAdvance.countX

/-- PROG_DATA_WRITE through a host port (R130, R13). -/
def execProgDataWrite (p : Port) (v : Word) (s : State) : Res :=
  s.hostWrite p Reg.STM_PROG_DATA v fun t =>
    if t.xOpen then t.progWrite v else t.refuseX (portCode p) true Reg.STM_PROG_DATA

/-- The program word that PROG_SEL and PROG_ADDR name. -/
def State.progWord (s : State) : Word :=
  Cells.get (fun _ => 0) (s.machine s.progMachine).prog (s.fld Reg.STM_PROG_ADDR 8 0)

/-- What a read answers on a host port. -/
def State.answer (s : State) (p : Port) (v : Word) : State :=
  match p with
  | .pcie => s.emit (.cpl v)
  | .spi => s.emit (.spi (beBytes 4 v.toNat))

/-- PROG_DATA_READ through a host port: returns the word and advances PROG_ADDR, the one exception to R6 (R130). -/
def execProgDataRead (p : Port) (s : State) : Res :=
  if !s.access p then .next s
  else if s.xOpen then .next ((s.answer p s.progWord).progAdvance)
  else .next ((s.refuseX (portCode p) false Reg.STM_PROG_DATA).answer p 0)

end Sys2Proof.Machine
end

