-- ==== Sys2Proof/Machine/TouchBase.lean ====
section
/-!
DEFINITION. Machine/TouchBase.lean: touch heads as their records name them, report rings, HEAD records and the CONTROL
entries that a head is due (R467, R480, R487, R488).
-/
namespace Sys2Proof.Machine

/-- Touch head `h` beside its registers. -/
def State.head (s : State) (h : Nat) : TouchHead := Cells.get (fun _ => {}) s.touch h

/-- Replace touch head `h`. -/
def State.setHead (s : State) (h : Nat) (x : TouchHead) : State := { s with touch := Cells.put (fun _ => {}) s.touch h x }

/-! ### TOUCH_HEAD (R467) -/

/-- A TOUCH_HEAD record. -/
structure HeadRec where
  output : Nat
  enable : Bool
  glove  : Bool
  water  : Bool
  cols   : Nat
  rows   : Nat
  panelW : Nat
  panelH : Nat
  freqs  : List Nat
  integ  : Nat
  rateTop : Nat
  minuet : Nat
  tTouch : Nat
  tGlove : Nat
  tWater : Nat
  tAnti  : Nat
  tNoise : Nat
  longHold : Nat
  colMask : Nat
  rowMask : Nat
  deriving DecidableEq, Repr

/-- The TOUCH_HEAD body at its offsets (R467). -/
def HeadRec.ofBody (b : List Byte) : HeadRec :=
  let f := leAt b 1 1
  { output := leAt b 0 1, enable := f.testBit 0, glove := f.testBit 1, water := f.testBit 2, cols := leAt b 2 1,
    rows := leAt b 3 1, panelW := leAt b 4 2, panelH := leAt b 6 2,
    freqs := [leAt b 8 2, leAt b 10 2, leAt b 12 2, leAt b 14 2], integ := leAt b 16 2, rateTop := leAt b 18 1,
    minuet := leAt b 19 1, tTouch := leAt b 20 2, tGlove := leAt b 22 2, tWater := leAt b 24 2, tAnti := leAt b 26 2,
    tNoise := leAt b 28 2, longHold := leAt b 30 2, colMask := leAt b 32 12, rowMask := leAt b 44 8 }

/-- Head `h` of the running structure where it is enabled. -/
def State.headRec (s : State) (h : Nat) : Option HeadRec :=
  match (s.body RT.TOUCH_HEAD h).map HeadRec.ofBody with
  | some r => if r.enable then some r else none
  | none => none

/-- The touch heads of the running structure, by number. -/
def State.headIds (s : State) : List Nat := (List.range 24).filter fun h => (s.headRec h).isSome

/-- Frequency index `f` is used. -/
def HeadRec.used (r : HeadRec) (f : Nat) : Bool := r.freqs.getD f 0 != 0

/-- The used frequency indices, ascending. -/
def HeadRec.usedFreqs (r : HeadRec) : List Nat := (List.range 4).filter r.used

/-- The threshold of R472 and R474: T_GLOVE with GLOVE set, T_TOUCH otherwise. -/
def HeadRec.thr (r : HeadRec) : Nat := if r.glove then r.tGlove else r.tTouch

/-- Key of node `n` at frequency index `f`. -/
def nodeKey (f n : Nat) : Nat := f * 6144 + n

/-- The CRC-32C that stands with a map (R471): over COLS and ROWS, the four frequencies, 2 bytes each, and b of every
node at every frequency, 2 bytes each, by frequency and node; the spec gives no layout (DESIGN CHOICE, assumption 80). -/
def TouchMap.sum (m : TouchMap) : Word :=
  w32 (Crc.value Crc.crc32c (leBytes 1 m.cols ++ leBytes 1 m.rows ++ (List.range 4).flatMap (fun f => leBytes 2 (m.freqs.getD f 0))
    ++ (List.range 4).flatMap fun f => (List.range (m.cols * m.rows)).flatMap fun n =>
      leBytes 2 (Cells.get (fun _ => 0) m.vals (nodeKey f n))))

/-- The map with its CRC as it is written (R471). -/
def TouchMap.sealed (m : TouchMap) : TouchMap := { m with crc := m.sum }

/-- The map kept for head `h` is valid for its record: its CRC holds, and COLS, ROWS and frequencies are the record's
(R471). -/
def State.mapValid (s : State) (h : Nat) (r : HeadRec) : Bool :=
  let m := Cells.get (fun _ => {}) s.mram.touchMaps h
  m.cols == r.cols && m.rows == r.rows && m.freqs == r.freqs && m.crc == m.sum

/-! ### Report rings (R487, R488) -/

/-- A report record but for HEAD, HSTATE and EVSEQ. -/
structure TouchRec where
  kind : Nat
  id   : Nat := 0
  flags : Nat := 0
  x : Nat := 0
  y : Nat := 0
  strength : Nat := 0
  zone : Nat := 0xFF
  zstate : Nat := 0
  held : Nat := 0
  deriving DecidableEq, Repr

/-- HSTATE (R487). -/
def TouchHead.hst (x : TouchHead) : Nat :=
  (if x.flooded then 1 else 0) + (if x.noMap then 2 else 0) + (if x.present then 4 else 0) + x.rate % 4 * 8
    + x.freq % 4 * 32 + (if x.suspect.isEmpty then 0 else 128)

/-- The 32 bytes of a record (R487). -/
def TouchRec.bytes (r : TouchRec) (h : Nat) (x : TouchHead) (wr : Nat) : List Byte :=
  leBytes 1 r.kind ++ leBytes 1 h ++ leBytes 2 x.seq ++ leBytes 4 x.ts.toNat ++ leBytes 1 r.id ++ leBytes 1 r.flags
    ++ leBytes 2 r.x ++ leBytes 2 r.y ++ leBytes 2 r.strength ++ leBytes 1 r.zone ++ leBytes 1 r.zstate
    ++ leBytes 1 x.hst ++ leBytes 1 wr ++ leBytes 4 (satN 32 r.held) ++ leBytes 8 0

/-- Records of ring `h`: 2^SIZE, SIZE outside 6 to 14 acting as 6. -/
def State.touchRingSize (s : State) (h : Nat) : Nat :=
  let z := s.fld (Reg.TCH_RING h) 31 28
  2 ^ (if 6 ≤ z ∧ z ≤ 14 then z else 6)

/-- Write one record where the ring has room (R488). -/
def State.touchPut (s : State) (h : Nat) (r : TouchRec) : State :=
  let wr := s.fld (Reg.TCH_RING_PTR h) 31 16
  let rd := s.fld (Reg.TCH_RING_PTR h) 15 0
  let n := s.touchRingSize h
  if n ≤ (wr + 65536 - rd) % 65536 then
    let x := s.head h
    (s.setHead h { x with lost := satN 8 (x.lost + 1), resync := true }).raise .reportRingFull
  else
    let s1 := (s.dramStore (s.fld (Reg.TCH_RING h) 25 0 * 4096 + wr % n * 32) (r.bytes h (s.head h) wr)).setFld
      (Reg.TCH_RING_PTR h) 31 16 (wr + 1)
    if wr = rd then s1.sendVector (27 + h) else s1

/-- A record of head `h` (R488, R489): a RESYNC record first after a drop; none on a standby. -/
def State.touchReport (s : State) (h : Nat) (r : TouchRec) : State :=
  if s.standby then s
  else if !(s.head h).resync then s.touchPut h r
  else
    let s1 := s.setHead h { s.head h with resync := false }
    let s2 := s1.touchPut h { kind := 6 }
    if (s2.head h).resync then s2 else s2.touchPut h r

/-- A HEAD record where HSTATE has changed (R487); `tooMany`: it belongs to a scan with more than 10 peaks (R475). -/
def State.reportHead (s : State) (h : Nat) (tooMany : Bool) : State :=
  let x := s.head h
  if x.hst = x.hstate then s
  else (s.setHead h { x with hstate := x.hst }).touchReport h { kind := 4, flags := if tooMany then 4 else 0 }

/-! ### CONTROL entries (R480) -/

/-- Scans per second of a step. -/
def stepRate (n : Nat) : Nat := match n with | 0 => 240 | 1 => 120 | 2 => 60 | _ => 15

/-- The entries of a head's first CONTROL packet: TOUCH_MASK, TOUCH_INTEG, TOUCH_FREQ of index 0, TOUCH_RATE for
RATE_TOP. -/
def HeadRec.entries (r : HeadRec) : List (Nat × Nat × Nat) :=
  ((List.range 3).map fun k => (4, k, r.colMask / 2 ^ (32 * k) % 2 ^ 32))
    ++ ((List.range 2).map fun k => (4, 4 + k, r.rowMask / 2 ^ (32 * k) % 2 ^ 32))
    ++ [(2, 0, r.integ), (1, 0, r.freqs.getD 0 0 * 1000), (3, 0, stepRate r.rateTop)]

/-- The entry that selects frequency index `f`. -/
def HeadRec.freqEntry (r : HeadRec) (f : Nat) : Nat × Nat × Nat := (1, f, r.freqs.getD f 0 * 1000)

/-- The entries of R480 frame by frame: the full set, each further used index, index 0 again. -/
def HeadRec.schedule (r : HeadRec) : List (List (Nat × Nat × Nat)) :=
  let more := r.usedFreqs.filter fun f => f != 0
  r.entries :: (more.map fun f => [r.freqEntry f]) ++ (if more.isEmpty then [] else [[r.freqEntry 0]])

/-- The step of a rate. -/
def rateStep (v : Nat) : Nat := if v = 240 then 0 else if v = 120 then 1 else if v = 60 then 2 else 3

/-- A head after its entries have been placed in a CONTROL packet: step and frequency in force. -/
def TouchHead.applied (x : TouchHead) (l : List (Nat × Nat × Nat)) : TouchHead :=
  l.foldl (fun y e => if e.1 = 1 then { y with freq := e.2.1 } else if e.1 = 3 then { y with rate := rateStep e.2.2 } else y) x

/-- The head on output `n`. -/
def State.headOf (s : State) (n : Nat) : Option Nat :=
  s.headIds.find? fun h => match s.headRec h with
    | some r => r.output == n
    | none => false

/-- After a VIDEO_FE of OUTn, the head's group of the frame joins the CONTROL packet (R480); a standby sends no TOUCH_
entries (R489). -/
def State.touchNext (s : State) (n : Nat) : State :=
  match s.headOf n with
  | none => s
  | some h =>
    let x := s.head h
    match x.later with
    | [] => s
    | g :: t =>
      let o := Cells.get (fun _ => {}) s.outputs n
      let s1 := if s.standby then s
        else { s with outputs := Cells.put (fun _ => {}) s.outputs n { o with queue := o.queue ++ g } }
      (s1.setHead h ({ x with later := t }.applied g)).reportHead h false

/-- TCH.STATUS of head `h` as the host reads it. -/
def State.touchStatus (s : State) (h : Nat) : Word :=
  match s.headRec h with
  | none => w32 ((s.head h).lost * 256)
  | some _ =>
    let x := s.head h
    let b := fun (c : Bool) n => if c then 2 ^ n else 0
    w32 (2 ^ 31 + b x.present 30 + b x.flooded 29 + b x.noMap 28 + b (!x.suspect.isEmpty) 27 + b (s.has RT.REEL 64) 26
      + x.rate % 4 * 2 ^ 24 + x.freq % 4 * 2 ^ 22 + min 15 x.touches.length * 2 ^ 18 + x.lost * 2 ^ 8 + min 255 x.noise)

end Sys2Proof.Machine
end

