-- ==== Sys2Proof/Machine/Output.lean ====
section
/-!
DEFINITION. Machine/Output.lean: the output engines (chapter 14): frames from commit point to VIDEO_FE (R387 to R392),
lanterns, regions and signatures (R396 to R407), CONTROL (R202, R203) and the glass loop (R443 to R446).
-/
namespace Sys2Proof.Machine

/-! ### Rasters -/

/-- A ring member other than 0, which takes time from its upstream (R527). -/
def State.ringFollower (s : State) : Bool := s.inRing && s.cascadeId != 0

/-- Clock `k` sources its own edges: not on a standby, and FCLK0 not on a ring member other than 0 (R270, R496, R529).
-/
def State.sourcesFclk (s : State) (k : Nat) : Bool := !s.standby && (k != 0 || !s.ringFollower)

/-- Period of frame clock `k` in 2^-32 ns (R268): floor of den × 10^9 × 2^32 / num; the last measured period for a
FRAME_REF clock that has one (R269), unless another device sources it (R270). -/
def State.period (s : State) (k : Nat) : Nat :=
  let c := Cells.get (fun _ => {}) s.tim.fclk k
  if c.ref && c.measured != 0 && s.sourcesFclk k then c.measured * 2 ^ 32 else c.den * 1000000000 * 2 ^ 32 / (max c.num 1)

/-- Segments of a line of `w` pixels and the pixels of each but the last (R200). -/
def cutLine (w : Nat) : Nat × Nat :=
  let n := cdiv w 1024
  (n, cdiv w (n * 32) * 32)

/-- Pixels of one port's line: half the canvas on a bonded pair (R395). -/
def Timing.portW (t : Timing) : Nat := if t.bonded then t.w / 2 else t.w

/-- Ports of an output: the even port and its odd one on a bonded pair. -/
def outPorts (n : Nat) (t : Timing) : List Nat := if t.bonded then [n, n + 1] else [n]

/-- Columns [x0, x1) on the canvas of segment `k` of an output's line; the odd half's segments follow (R395). -/
def outSeg (t : Timing) (k : Nat) : Nat × Nat :=
  let (n, sw) := cutLine t.portW
  let half := k / n
  let j := k % n
  (half * t.portW + j * sw, half * t.portW + min t.portW ((j + 1) * sw))

/-- The segment that holds canvas column `x`, and its first column. -/
def outSegOf (t : Timing) (x : Nat) : Nat × Nat :=
  let (n, sw) := cutLine t.portW
  let half := x / t.portW
  let j := x % t.portW / sw
  (half * n + j, half * t.portW + j * sw)

/-- OUTn is enabled: JLO.PORT_CTRL.ENABLE (R186). -/
def State.outEnabled (s : State) (n : Nat) : Bool := s.bit (Reg.JLO_PORT_CTRL n) 31

/-- The raster that OUTn runs: that of its frame in progress where a structure start has replaced it since (R388). -/
def State.raster (s : State) (n : Nat) : Option Timing :=
  match (s.output n).old with
  | some e => some e.1
  | none => s.timing n

/-- The lead of that raster. -/
def State.rasterLead (s : State) (n : Nat) : Nat :=
  match (s.output n).old with
  | some e => e.2
  | none => s.lead n

/-- The outputs that run rasters: enabled, with a raster, the even port for a bonded pair (R186, R387). -/
def State.rasterOuts (s : State) : List Nat :=
  (List.range 24).filter fun n => s.outEnabled n && (s.raster n).isSome && s.evenPort n == n

/-- The startup card is shown on OUTn: no bound node, or a structure about to start (R68, R387). -/
def State.showsCard (s : State) (n : Nat) : Bool :=
  !s.ld.loaded || (s.boundNode n).isNone || s.ld.startCard

/-- ON_AIR at a latch (R491, R67). -/
def State.onAir (s : State) : Bool :=
  if !s.ld.loaded then !s.twin.mpAlive && !s.bit Reg.TWN_PATHS 31 && !s.bit Reg.TWN_PATHS 30
  else s.fld Reg.TWN_STATUS 31 30 == 2 || s.fld Reg.TWN_STATUS 31 30 == 0

/-! ### Regions (R404, R405) -/

/-- The smallest rectangle that holds a window and its glyph (R404), on a W × H raster. -/
def windowRegion (t : Timing) (i : Nat) (w : Nat × Nat × Nat × Nat) (corner : Nat) : Region :=
  let g := glyphOrigin corner t.w t.h w
  { x0 := min w.1 g.1, y0 := min w.2.1 g.2, x1 := min t.w (max w.2.2.1 (g.1 + 32)),
    y1 := min t.h (max w.2.2.2 (g.2 + 32)), kind := 1, src := i }

/-- The grid cells of a raster, in region-number order (R404). -/
def gridRegions (t : Timing) : List Region :=
  (List.range t.gridY).flatMap fun j => (List.range t.gridX).map fun i =>
    { x0 := i * t.w / t.gridX, y0 := j * t.h / t.gridY, x1 := (i + 1) * t.w / t.gridX, y1 := (j + 1) * t.h / t.gridY,
      kind := 2, src := j * t.gridX + i }

/-- x0 rounded down and x1 up to even on a 4:2:2 output (R404). -/
def Region.even (r : Region) (fmt : Nat) : Region :=
  if Fmt.halfH fmt then { r with x0 := r.x0 / 2 * 2, x1 := cdiv r.x1 2 * 2 } else r

/-- The region set an output derives, and the windows beyond the 64th (R404); one region over the whole raster while
the card is shown (R403). -/
def State.deriveRegions (s : State) (n : Nat) (t : Timing) : List Region × Nat :=
  if s.showsCard n then ([{ x0 := 0, y0 := 0, x1 := t.w, y1 := t.h, kind := 2, src := 0 }], 0)
  else
    let ws := match s.boundNode n with
      | some k => windowsOf s s.records 257 [] k
      | none => []
    let sorted := ws.foldl (fun acc x =>
      (acc.filter fun y => decide (y.1 ≤ x.1)) ++ x :: acc.filter fun y => decide (x.1 < y.1)) []
    let wr := (sorted.map fun e => windowRegion t e.1 e.2.1 e.2.2).take 64
    let set := match t.mode with
      | 0 => wr
      | 1 => gridRegions t
      | _ => (wr ++ gridRegions t).take 64
    (set.map fun r => r.even t.fmt, if t.mode = 1 then 0 else sorted.length - 64)

/-- The set that will stand once what is in flight has been applied. -/
def OutputSt.settled (o : OutputSt) : List Region :=
  match o.flight with
  | some f => f.set
  | none => o.regions

/-- The region set derived at a commit point is announced when it differs (R405). -/
def State.regionsAtCommit (s : State) (n : Nat) (t : Timing) : State :=
  let o := s.output n
  let (set, past) := s.deriveRegions n t
  s.setOutput n { o with overCount := past, wanted := if set = o.settled then none else some set }

/-- The CONTROL entries that announce a region set (R202, R405): code, index, value. -/
def regionEntries (set : List Region) (commit : Nat) : List (Nat × Nat × Nat) :=
  ((List.range set.length).flatMap fun k =>
    match set[k]? with
    | some r => [(0x10, k, r.x1 * 65536 + r.x0), (0x11, k, r.y1 * 65536 + r.y0)]
    | none => []) ++ [(0x12, 0, set.length), (0x13, 0, commit)]

/-- Does a rectangle meet a region in mismatch (R448)? -/
def OutputSt.meetsBad (o : OutputSt) (r : Region) : Bool :=
  (List.range o.regions.length).any fun k =>
    match o.regions[k]?, o.runs[k]? with
    | some q, some (_, _, bad) => bad && rectsMeet (q.x0, q.y0, q.x1, q.y1) (r.x0, r.y0, r.x1, r.y1)
    | _, _ => false

/-- A set in flight comes into force at its commit frame: SETTLING until acknowledged, every run restarts, and a region
that meets an old one in mismatch starts in mismatch (R405, R448). -/
def OutputSt.applyFlight (o : OutputSt) : OutputSt :=
  match o.flight with
  | some f =>
    if (o.nextNo + 65536 - f.commit) % 65536 < 32768 then
      { o with regions := f.set, commitFrame := f.commit, settling := !f.acked, flight := none,
               runs := f.set.map fun r => (0, 0, o.meetsBad r) }
    else o
  | none => o

/-! ### Frame start (R387, R388) -/

/-- Event `e` for the machines of the ports of output `n`: a bonded pair shares its raster lines (R123, R395). -/
def State.rasterEvent (s : State) (n e : Nat) : State :=
  match s.timing n with
  | some t => (outPorts n t).foldl (fun u p => u.stmEvent (40 + p) e) s
  | none => s

/-- A frame of output `n` begins at TS32 now. -/
def State.beginFrame (s : State) (n : Nat) : State :=
  let o := s.output n
  let s1 := s.setOutput n { o with begun := true, start := s.ts, period := s.period (s.outClock n), waitStart := false,
                                   line := 0, fsSent := false }
  s1.rasterEvent n 2

/-- Raster line `j` is running on output `n` (R123): P1 LINE shows it, and it raises E1 where a port's machine set it.
-/
def State.lineStarts (s : State) (n j : Nat) (t : Timing) : State :=
  (outPorts n t).foldl (fun u p =>
    match (u.machine (40 + p)).lineSet with
    | some l => if l = j then u.stmEvent (40 + p) 1 else u
    | none => u) (s.setOutput n { s.output n with line := j })

/-- A commit point of the clock of output `n` (R388): a frame starts at once where the last one's VIDEO_FE has left;
otherwise it starts after that VIDEO_FE, and further commit points start none of their own. -/
def State.outputCommit (s : State) (n : Nat) : State :=
  match s.timing n with
  | none => s
  | some t =>
    let s1 := s.regionsAtCommit n t
    let o := s1.output n
    if o.begun then s1.setOutput n { o with waitStart := true } else s1.beginFrame n

/-- The outputs of clock `clk` at its commit point. -/
def State.outputsCommit (s : State) (clk : Nat) : State :=
  (s.rasterOuts.filter fun n => s.outClock n == clk).foldl (fun t n => t.outputCommit n) s

/-! ### The latch and VIDEO_FS (R389, R390) -/

/-- round(256 × P / TOTAL_LINES) with P in 2^-32 ns (R390). -/
def linePeriod (p total : Nat) : Nat := (2 * (256 * p) + total * 2 ^ 32) / (2 * total * 2 ^ 32)

/-- The VIDEO_FS payload (R195). -/
def videoFs (alive w h fmt tdom : Nat) (cap send : Word) (state age no flags lp epoch : Nat) : List Byte :=
  leBytes 2 alive ++ leBytes 2 w ++ leBytes 2 h ++ leBytes 1 fmt ++ leBytes 1 tdom ++ leBytes 4 cap.toNat
    ++ leBytes 4 send.toNat ++ leBytes 1 state ++ leBytes 3 age ++ leBytes 2 no ++ leBytes 1 flags ++ leBytes 1 0
    ++ leBytes 4 lp ++ leBytes 2 epoch ++ leBytes 2 0

/-- FSFLAGS (R195, R390): ON_AIR, SIDE_B, FALLBACK. -/
def State.fsFlags (s : State) (onAir card : Bool) : Nat :=
  (if onAir then 1 else 0) + (if s.bit Reg.SYS_STRAPS 5 then 2 else 0) + (if card then 4 else 0)

/-- Missed frames at the latch of frame `m` (R443, R446): frame m - 2, where sent, not compared and not SETTLING. -/
def OutputSt.countMissed (o : OutputSt) (m : Nat) : OutputSt :=
  match o.sent.find? fun x => x.no == (m + 65534) % 65536 with
  | some x =>
    if x.compared || x.settling then o
    else
      let missed := satN 8 (o.missed + 1)
      { o with missed := missed, openLoop := o.openLoop || decide (8 ≤ missed) }
  | none => o

/-- The corner glyphs of the startup card (R403): UNKNOWN at each corner of the raster. -/
def cardLanterns (t : Timing) : List Lantern :=
  (List.range 4).map fun c =>
    let g := glyphOrigin c t.w t.h (0, 0, t.w, t.h)
    { layer := 0, x0 := 0, y0 := 0, x1 := t.w, y1 := t.h, gx := g.1, gy := g.2, corner := c, state := .unknown, phase := 0,
      secs := 0, strict := true, drawn := true }

/-- VGL.LOOP of an output as its latch updates it. -/
def OutputSt.loopWord (o : OutputSt) : Word :=
  let b := fun (c : Bool) (n : Nat) => if c then 2 ^ n else 0
  w32 (b o.openLoop 31 + b o.frozen 30 + b (o.runs.any fun r => r.2.2) 29 + b ((o.sent.head?.map (·.settling)).getD false) 28
    + min o.missed 255 * 2 ^ 16 + o.matched % 65536)

/-- Alarms of the glass loop: REGION_MISMATCH and HEAD_FROZEN follow all outputs (R444, R445). -/
def State.glassAlarms (s : State) : State :=
  (s.hold .regionMismatch (s.outputs.any fun e => e.2.runs.any fun r => r.2.2)).hold .headFrozen
    (s.outputs.any fun e => e.2.frozen)

/-- The latch of output `n`'s frame, with VIDEO_FS on each port (R337, R389, R390). A frame that began before its structure
started and latches after it shows the card (DESIGN CHOICE, assumption 48). -/
def State.outputLatch (s : State) (n : Nat) (t : Timing) : State :=
  let o := (s.output n).applyFlight.countMissed (s.output n).nextNo
  let s0 := (s.setOutput n o).glassAlarms.setReg (Reg.VGL_LOOP n) o.loopWord
  let card := s0.showsCard n || o.old.isSome
  let node := if card then none else s0.boundNode n
  let l : Latched := match node with
    | some k => latchNode s0.records (some n) (t.w, t.h) 257 s0 [] k
    | none => { s := s0, comp := { state := .unknown, sub := 0x20, cap := s0.ts }, plans := [], lanterns := cardLanterns t }
  let s1 := ((l.s.dropLanterns n l.lanterns).guardAlarm).countLanterns
  let conv : OutConv := match node with
    | some k => s1.outConv k t.fmt
    | none => { fmt := t.fmt, csc := s1.cscOut 0 t.fmt, dither := false }
  let nr := node.bind fun k => s1.node k
  let memConv := node.bind fun k => nr.map fun r => s1.outConv k (s1.stream r.surf).format
  let s2 := match nr with
    | some r =>
      if r.dest = 2 then
        s1.startFrame r.surf { alive := 0, cap := l.comp.cap, ptp := false, epoch := 0, w := r.w, h := r.h,
                               fmt := (s1.stream r.surf).format }
      else s1
    | none => s1
  let memory := match nr with
    | some r => r.dest == 2 && (match (s2.stream r.surf).cur with
      | some c => !c.dropped
      | none => false)
    | none => false
  let onAir := s2.onAir
  let no := o.nextNo
  let f : OutFrame :=
    { no := no, frame := { plans := l.plans, comp := l.comp, latch := s.ts, tick := s.ticks,
                            epoch := s.fld Reg.TIM_EPOCH 7 0, conv := conv,
                            guarded := match node with
                              | some k => s0.guardSpans k
                              | none => [] }, card := card,
      lanterns := sortLanterns l.lanterns, onAir := onAir, regions := o.regions,
      sigs := o.regions.map fun _ => Crc.start Crc.crc32c, settling := o.settling, setNo := o.commitFrame, memory := memory, memConv := memConv }
  let s3 := s2.setOutput n { s2.output n with cur := some f, fsSent := true, nextNo := (no + 1) % 65536 }
  (outPorts n t).foldl (fun st p =>
    (st.sendPacket (64 + p) 0x01 0 0
      (videoFs no t.portW t.h t.fmt 2 l.comp.cap st.ts l.comp.state.code (satN 24 l.comp.age) no
        (s.fsFlags onAir (card || !s.ld.loaded)) (linePeriod o.period t.total) (st.fld Reg.TIM_EPOCH 15 0))).setReg
      (Reg.OUT_LAST_FS p) st.ts) s3

/-! ### Lines (R389 to R391, R397 to R399) -/

/-- A working pixel with the lanterns drawn over it (R398): the last glyph that covers it and is drawn. -/
def overlay (ls : List Lantern) (x y : Nat) (p : Pix) : Pix :=
  ls.foldl (fun q l =>
    if l.drawn && decide (l.gx ≤ x) && decide (x < l.gx + 32) && decide (l.gy ≤ y) && decide (y < l.gy + 32) then
      { glyphPix l.state l.phase l.secs (x - l.gx) (y - l.gy) with fault := q.fault }
    else q) p

/-- The working pixel an output sends at (x, y): the card, or the composed segment, or fault fill where the segment is
LATE; lanterns on top (R391, R398, R403). -/
def OutFrame.pixel (f : OutFrame) (t : Timing) (x y : Nat) : Pix :=
  overlay f.lanterns x y (if f.card then startupCard t.w t.h x y else f.frame.stored (outSegOf t) x y)

/-- Active line `y` of a frame in the output format, as a one-line image. -/
def OutFrame.lineImg (f : OutFrame) (t : Timing) (y : Nat) : Img :=
  let o : Img := { w := t.w, h := 1, fmt := t.fmt }
  (List.range 3).foldl (fun a p =>
    (List.range (Fmt.planeW t.fmt p t.w)).foldl (fun b x =>
      b.set p x 0 (convSample f.frame.conv (fun px _ => f.pixel t px y) t.w 1 p x y)) a) o

/-- Packed bytes of columns [x0, x1) of a line image (R196, R406). -/
def lineBytes (i : Img) (x0 x1 : Nat) : List Byte := packBits (Fmt.depth i.fmt) (i.wire x0 0 (x1 - x0))

/-- Is segment `k` of line `y` composed? -/
def OutFrame.ready (f : OutFrame) (y k : Nat) : Bool := f.card || !(Cells.get (fun _ => []) f.frame.segs (segKey y k)).isEmpty

/-- Send segment `k` of line `y` on its port; a LATE one as fault fill (R200, R391, R395). -/
def State.sendSegment (s : State) (n : Nat) (t : Timing) (f : OutFrame) (img : Img) (y k : Nat) : State × OutFrame :=
  let (cnt, _) := cutLine t.portW
  let half := k / cnt
  let port := n + half
  let (x0, x1) := outSeg t k
  let late := !f.ready y k
  let fault := late || (!f.card && (Cells.get (fun _ => []) f.frame.segs (segKey y k)).any (·.fault))
  let last := decide (k % cnt + 1 = cnt)
  let body := leBytes 2 y ++ leBytes 2 (x0 - half * t.portW) ++ leBytes 2 (x1 - x0) ++ leBytes 2 0 ++ lineBytes img x0 x1
  let s1 := s.sendPacket (64 + port) 0x02 0 ((if last then 1 else 0) + (if fault then 2 else 0)) body
  let add := fun (c : Nat × Nat) => if half = 0 then (c.1 + 1, c.2) else (c.1, c.2 + 1)
  let f1 := { f with faults := if fault then add f.faults else f.faults,
                     lines := if last then add f.lines else f.lines,
                     late := if late then (if half = 0 then f.late ||| 1 else f.late ||| 2) else f.late }
  if late then
    let node := (f.frame.plans.head?.map (·.node)).getD 0
    let s2 := (s1.addSat (Reg.OUT_UNDERFLOW port) 15 0 1).setReg Reg.OUT_UNDERFLOW_LAST (w32 (port * 2 ^ 24 + y))
    ((s2.faultLast 1 0 node).raise .underflow, f1)
  else (s1, f1)

/-- The signature registers after line `y` (R406, R420). -/
def OutFrame.signLine (f : OutFrame) (img : Img) (y : Nat) : OutFrame :=
  { f with sigs := (List.range f.regions.length).map fun k =>
      match f.regions[k]? with
      | some r => if r.y0 ≤ y ∧ y < r.y1 then Crc.feed Crc.crc32c (f.sigs.getD k 0) (lineBytes img r.x0 r.x1)
                  else f.sigs.getD k 0
      | none => 0 }

/-- The frame that an output writes to the surface of its GLASS_MEMORY node (R29), with the node and the surface; LATE
segments stand in it as fault fill, without lanterns. -/
def State.memoryCopy (s : State) (n : Nat) (t : Timing) (f : OutFrame) : Option (Nat × Nat × Frame × Img) :=
  match s.boundNode n with
  | none => none
  | some k =>
    match s.node k with
    | none => none
    | some r =>
      if !f.memory then none
      else
        let fr := { f.frame with conv := f.memConv.getD f.frame.conv }
        some (k, r.surf, fr, fr.toImg (outSegOf t) r.w r.h)

/-- Active line `y` leaves (R389, R391); the memory copy of a GLASS_MEMORY node takes it (R29, R313). -/
def State.sendLine (s : State) (n : Nat) (t : Timing) (f : OutFrame) (y : Nat) : State :=
  let img := f.lineImg t y
  let ks := List.range (((outPorts n t).length) * (cutLine t.portW).1)
  let (s1, f1) := ks.foldl (fun a k => a.1.sendSegment n t a.2 img y k) (s, f)
  let f2 := f1.signLine img y
  let s0 := match s1.memoryCopy n t f2 with
    | some (_, i, _, m) => s1.writeSegment i y 0 m.w m
    | none => s1
  let s2 := if y = 0 then s0.chkOutputStart n else s0
  (s2.chkOutputLine n (lineBytes img 0 t.w)).setOutput n { s2.output n with cur := some f2 }

/-! ### CONTROL (R202, R203) -/

/-- A CONTROL entry (R202). -/
def controlEntry (e : Nat × Nat × Nat) : List Byte := leBytes 1 e.1 ++ leBytes 1 e.2.1 ++ leBytes 2 0 ++ leBytes 4 e.2.2

/-- An entry that waits for its acknowledgement: the SEQs of the packets that carried it, and the entry. -/
abbrev Unacked := List Nat × Nat × Nat × Nat

/-- CONTROL packets of at most 256 entries each. -/
def controlChunks : Nat → List Unacked → List (List Unacked)
  | 0, _ => []
  | _, [] => []
  | fuel + 1, l => l.take 256 :: controlChunks fuel (l.drop 256)

/-- One CONTROL packet with these entries, each of which notes the packet's SEQ. -/
def State.sendChunk (n : Nat) (s : State) (c : List Unacked) : State :=
  let seq := s.nextTx (64 + n)
  let noted := c.map fun e => (seq :: e.1.filter (· != seq), e.2)
  let o := s.output n
  ((s.setOutput n { o with unacked := o.unacked ++ noted }).sendPacket (64 + n) 0x10 0 0
    (c.flatMap fun e => controlEntry e.2)).setFld (Reg.JLO_CTRL_ACK n) 31 16 seq

/-- Send what the head has not acknowledged again, in new packets, older entries first, and the queued entries (R203). -/
def State.sendControl (s : State) (n : Nat) : State :=
  let o := s.output n
  let all : List Unacked := o.unacked ++ o.queue.map fun e => ([], e)
  (controlChunks (all.length + 1) all).foldl (State.sendChunk n) (s.setOutput n { o with unacked := [], queue := [] })

/-- Announce a wanted region set after the VIDEO_FE of frame `f`, for frame f + 3, where none is in flight (R405). -/
def State.announce (s : State) (n f : Nat) : State :=
  let o := s.output n
  match o.wanted, o.flight with
  | some set, none =>
    let commit := (f + 3) % 65536
    s.setOutput n { o with wanted := none, queue := o.queue ++ regionEntries set commit,
                           flight := some { set := set, commit := commit } }
  | _, _ => s

/-! ### VIDEO_FE (R389, R392, R407) -/

/-- The scan-fault hold (R392): one second, in CLK_F cycles. -/
abbrev holdCycles : Nat := 600000000

/-- SCAN_FAULT follows the outputs in hold; an entry counts in OUT.EVT_CNT[1] (R392). -/
def State.scanFault (s : State) (entered : Bool) : State :=
  let s1 := if entered then s.setReg (Reg.EVT_CNT Blk.OUT 1) (s.reg (Reg.EVT_CNT Blk.OUT 1) + 1) else s
  s1.alarmNoCount Blk.OUT 1 (s1.outputs.any fun e => e.2.hold.isSome)

/-- Underflow accounting of a frame that has ended (R392, R395). -/
def State.endUnderflow (s : State) (n : Nat) (f : OutFrame) : State :=
  let s1 := if f.late.testBit 0 then s.addSat (Reg.OUT_UNDERFLOW n) 31 16 1 else s
  let s2 := if f.late.testBit 1 then s1.addSat (Reg.OUT_UNDERFLOW (n + 1)) 31 16 1 else s1
  let o := s2.output n
  let run := if f.late = 0 then 0 else o.run + 1
  let hold := if 3 ≤ run then some (s2.uptime + holdCycles) else o.hold
  (s2.setOutput n { o with run := run, hold := hold }).scanFault (decide (3 ≤ run) && o.hold.isNone)

/-- A frame that the surface of output `n`'s GLASS_MEMORY node could not take, no buffer being free, ends (R22, R415). -/
def State.dropMemory (s : State) (n : Nat) : State :=
  match (s.boundNode n).bind s.node with
  | some r =>
    if r.dest = 2 ∧ (match (s.stream r.surf).cur with | some c => c.dropped | none => false) = true then s.discardFrame r.surf
    else s
  | none => s

/-- The memory copy of a GLASS_MEMORY node flips in the cycle its VIDEO_FE leaves (R29). -/
def State.flipMemory (s : State) (n : Nat) (t : Timing) (f : OutFrame) : State :=
  match s.memoryCopy n t f with
  | none => s.dropMemory n
  | some (k, i, fr, img) =>
    s.flipNode k i fr (f.lanterns.filter (·.drawn)) img (decide (fr.faultSegs ≠ 0) || decide (f.late ≠ 0))

/-- VIDEO_FE of output `n`, then CONTROL, then a frame that was waiting (R388, R389). -/
def State.endFrame (s : State) (n : Nat) (t : Timing) (f : OutFrame) : State :=
  let ports := outPorts n t
  let s1 := (List.range ports.length).foldl (fun st h =>
    st.sendPacket (64 + n + h) 0x03 0 0
      (leBytes 2 f.no ++ leBytes 2 (if h = 0 then f.lines.1 else f.lines.2)
        ++ leBytes 2 (if h = 0 then f.faults.1 else f.faults.2) ++ leBytes 2 0)) s
  let sigs := (List.range f.regions.length).map fun k =>
    match f.regions[k]? with
    | some r => if r.x1 ≤ r.x0 ∨ r.y1 ≤ r.y0 then 0 else w32 (Crc.finish Crc.crc32c (f.sigs.getD k 0))
    | none => 0
  let s2 := (s1.chkOutputEnd n).flipMemory n t f
  let s3 := if (s2.output n).old.isSome then s2
    else (match s2.boundNode n with
      | some k => if f.card then s2 else s2.countFaults k f.frame (f.faults.1 + f.faults.2)
      | none => s2).releaseFrame f.frame
  let o := s3.output n
  let sent := ({ no := f.no, sigs := sigs, settling := f.settling, setNo := f.setNo } :: o.sent).take 8
  let s4 := s3.setOutput n { o with cur := none, begun := false, old := none, sent := sent }
  let s5 := { s4 with twin := { s4.twin with
    own := (SigFrame.mk n f.no f.settling sigs f.onAir :: s4.twin.own).take 96 } }
  let s6 := s5.endUnderflow n f
  if (s6.output n).waitStart && (s6.timing n).isSome then s6.beginFrame n
  else ports.foldl (fun u p => (u.touchNext p).sendControl p) (s6.announce n f.no)

/-- Raster line `j` of output `n` begins (R389): the latch, a line, or the end of the frame. The blanking lines after
VIDEO_FE run until the next frame begins. -/
def State.rasterLine (s : State) (n j : Nat) : State :=
  match s.raster n with
  | none => s
  | some t =>
    let o := s.output n
    if !(s.rasterOuts.contains n) || decide (t.total ≤ j) then s
    else if !o.begun then
      if o.sent ≠ [] ∧ t.commitLead + t.h < j then s.lineStarts n j t else s
    else
      let s2 := s.lineStarts n j t
      match o.cur with
      | none =>
        if j = t.commitLead - s.rasterLead n ∧ o.fsSent = false then s2.outputLatch n t else s2
      | some f =>
        if t.commitLead ≤ j ∧ j < t.commitLead + t.h then s2.sendLine n t f (j - t.commitLead)
        else if j = t.commitLead + t.h then s2.endFrame n t f
        else s2

/-- SCAN_FAULT_HOLD_END (R392): the hold of output `n` ends 1 s after the last frame that kept the run at 3. -/
def execScanFaultHoldEnd (n : Nat) (s : State) : Res :=
  let o := s.output n
  match o.hold with
  | some d => if d ≤ s.uptime then .next ((s.setOutput n { o with hold := none }).scanFault false) else .next s
  | none => .next s

/-- Segment `k` of line `y` of output `n` enters its line FIFO where its line has been requested and its deadline has not
passed (R391). -/
def State.outputSegment (s : State) (n y k : Nat) : State :=
  match s.raster n, (s.output n).cur with
  | some t, some f =>
    let o := s.output n
    let seg := outSeg t k
    let asked := decide (y + (t.commitLead - s.rasterLead n) ≤ o.line)
    let intime := decide (o.line < t.commitLead + y)
    if f.card || !asked || !intime || decide (t.h ≤ y)
        || decide ((outPorts n t).length * (cutLine t.portW).1 ≤ k) || f.ready y k then s
    else
      let (s1, fr) := s.composeSegment 0 f.frame (fun w => (cutLine w).2) y k seg.1 seg.2
      s1.setOutput n { s1.output n with cur := some { f with frame := fr } }
  | _, _ => s

/-- The output whose frame, begun before the structure started, is composed of node `n` (R388). -/
def State.oldOutput (s : State) (n : Nat) : Option Nat :=
  (List.range 24).find? fun k => (s.output k).old.isSome && match (s.output k).cur with
    | some f => (f.frame.plans.head?.map (·.node)) == some n
    | none => false

/-- SEGMENT_COMPLETE (R354): a blend pipe completes segment `k` of line `y` of node `n`. An INLINE node's lines are
composed with its consumer's segment (R355). -/
def execSegmentComplete (n y k : Nat) (s : State) : Res :=
  match s.oldOutput n with
  | some o => .next (s.outputSegment o y k)
  | none => match s.node n with
    | none => .next s
    | some nr =>
      if nr.dest = 1 then
        match (s.nodeSt n).frame with
        | some f => .next (s.memorySegment n f y k)
        | none => .next s
      else if nr.dest = 3 then .next s
      else .next (s.outputSegment nr.output y k)

/-! ### The glass loop (R443 to R446) -/

/-- VGL.CFG counts: 0 acts as 1. -/
def State.vglN (s : State) (hi lo : Nat) : Nat := max 1 (s.fld Reg.VGL_CFG hi lo)

/-- The run of one region after a compare (R444). -/
def regionRun (mis mat : Nat) (r : Nat × Nat × Bool) (equal : Bool) : Nat × Nat × Bool :=
  if equal then
    let m := r.2.1 + 1
    (0, m, r.2.2 && decide (m < mat))
  else
    let d := r.1 + 1
    (d, 0, r.2.2 || decide (mis ≤ d))

/-- The compare of a frame's signatures with a report's (R443): every region of the set, a missing one and
one of a failed accumulator (R420) differing. -/
def State.glassCompare (s : State) (n : Nat) (x : SentSigs) (got : List Word) : State :=
  let o := s.output n
  let mis := s.vglN 7 0
  let mat := s.vglN 15 8
  let eq := fun k => !s.twin.accBad.contains (64 * n + k) && match got[k]? with
    | some g => g == x.sigs.getD k 0
    | none => false
  let ks := List.range x.sigs.length
  let runs := if x.setNo = o.commitFrame then ks.map fun k => regionRun mis mat (o.runs.getD k (0, 0, false)) (eq k)
    else o.runs
  let s1 := ks.foldl (fun t k =>
    if eq k then t
    else ((t.setReg Reg.VGL_GLASS_LAST (w32 (k * 2 ^ 24 + n * 2 ^ 16 + x.no))).setReg Reg.VGL_GLASS_SENT
      (x.sigs.getD k 0)).setReg Reg.VGL_GLASS_RETURNED (got.getD k 0)) s
  let sent := o.sent.map fun y => if y.no = x.no then { y with compared := true } else y
  let matched := if ks.all eq then (o.matched + 1) % 65536 else o.matched
  (s1.setOutput n { o with runs := runs, missed := 0, openLoop := false, sent := sent, matched := matched }).glassAlarms

/-- The head-freeze test of a report against the one before (R445). -/
def State.headFreeze (s : State) (n no : Nat) (scan : Word) : State :=
  let o := s.output n
  let hn := s.vglN 23 16
  match o.lastReport with
  | none => s.setOutput n { o with lastReport := some (no, scan) }
  | some (no0, scan0) =>
    if no = (no0 + 1) % 65536 then
      let adv := tsDiff scan0 scan
      let bad := decide (2 * adv * 2 ^ 32 < (o.period : Int)) || decide (3 * (o.period : Int) < 2 * adv * 2 ^ 32)
      let badRun := if bad then o.badRun + 1 else 0
      let goodRun := if bad then 0 else o.goodRun + 1
      let frozen := if o.frozen then decide (goodRun < hn) else decide (hn ≤ badRun)
      (s.setOutput n { o with lastReport := some (no, scan), badRun := badRun, goodRun := goodRun, frozen := frozen }).glassAlarms
    else s.setOutput n { o with lastReport := some (no, scan) }

/-- CTRL_ACK names the last CONTROL packet the head applied (R209): it covers the entries which a packet with that SEQ
carried, and so the REGION_COMMIT of the set in flight or in force (R203, R405). -/
def OutputSt.acknowledge (o : OutputSt) (ack : Nat) : OutputSt :=
  let committed := fun commit => o.unacked.any fun e => e.1.contains ack && e.2 == (0x13, 0, commit)
  { o with unacked := o.unacked.filter fun e => !e.1.contains ack,
           flight := o.flight.map fun f => { f with acked := f.acked || committed f.commit },
           settling := o.settling && !committed o.commitFrame }

/-- DUAL_ON_AIR while the latest report of any port says so (R212). -/
def State.dualAlarm (s : State) : State := s.hold .dualOnAir (s.outputs.any fun e => e.2.dual)

/-- An accepted HEAD_STATUS payload from OUTn (R209, R443, R445): registers, acknowledgement, glass loop, freeze test,
event E3 of the output's machine. A report of the odd port of a pair carries no regions (R211). -/
def State.headStatus (s : State) (n : Nat) (b : List Byte) : State :=
  let no := leAt b 0 2
  let onglass := leAt b 2 1
  let flags := leAt b 3 1
  let scan := w32 (leAt b 4 4)
  let nreg := leAt b 10 1
  let got := (List.range nreg).map fun r => w32 (leAt b (16 + 4 * r) 4)
  let s1 := ((s.setReg (Reg.JLO_HEAD_UID n) (w32 (leAt b 12 4))).setReg (Reg.JLO_HEAD_LAST n)
    (w32 (no * 2 ^ 16 + flags * 2 ^ 8 + onglass))).setFld (Reg.JLO_CTRL_ACK n) 15 0 (leAt b 8 2)
  let s2 := (s1.setOutput n { (s1.output n).acknowledge (leAt b 8 2) with dual := flags.testBit 0, reportTs := some s.ts }).dualAlarm
  let s3 := s2.stmEvent (40 + n) 3
  if s3.evenPort n ≠ n then s3
  else
    let s4 := s3.headFreeze n no scan
    let o := s4.output n
    match o.sent.find? fun x => x.no == no with
    | some x =>
      let intime := decide ((o.nextNo + 65536 - (no + 2)) % 65536 = 0) || decide ((o.nextNo + 65536 - (no + 1)) % 65536 = 0)
      if onglass ≠ 0 ∧ x.compared = false ∧ x.settling = false ∧ intime = true then s4.glassCompare n x got else s4
    | none => s4

/-! ### Step-machine ports of an output (R123) -/

/-- OUT to P3 HEAD_CTRL of an output machine (R123): queues a HEAD_USER entry for the head. -/
def execOutHeadCtrl (m : Nat) (s : State) : Res :=
  match stmKind m, s.stmOutWord m 3 with
  | .output, some w =>
    let n := m - 40
    let o := s.output n
    .next ((s.setOutput n { o with queue := o.queue ++ [(0x40, 0, w.toNat)] }).stmNext m (s.machine m))
  | _, _ => .next s

/-- IN from P1 LINE of an output machine (R123): the raster line now running, without waiting (DEDUCED, assumption
17). -/
def execInLine (m : Nat) (s : State) : Res :=
  match s.stmFetch m with
  | some (.inp d p) =>
    if stmKind m = .output ∧ p = 1 then .next (s.stmPut m d (w32 (s.output (s.evenPort (m - 40))).line)) else .next s
  | _ => .next s

end Sys2Proof.Machine
end

