-- ==== Sys2Proof/Machine/Link.lean ====
section
/-!
DEFINITION. Machine/Link.lean: the J-Link receivers (chapter 07): lane alignment (R183, R184), deskew (R185), electrical
idle (R186, R187), the packet layer (R189), packet classification and counters (R191 to R194, R214).
-/
namespace Sys2Proof.Machine

/-! ### Ports -/

/-- Receiver of a port; a JLO port has the one lane BK (R188). -/
def Link.initial (port : Nat) : Link := if 64 ≤ port ∧ port < 88 then { lanes := [{}] } else {}

/-- The receiver of a port. -/
def State.link (s : State) (port : Nat) : Link := Cells.get Link.initial s.links port

/-- Replace the receiver of a port. -/
def State.setLink (s : State) (port : Nat) (l : Link) : State := { s with links := Cells.put Link.initial s.links port l }

/-- Register block and index of a port (R176), none where no J-Link port has the number. -/
def linkPlace (port : Nat) : Option (Nat × Nat) :=
  if port < 40 then some (8, port)
  else if 64 ≤ port ∧ port < 88 then some (9, port - 64)
  else match jlxIndex port with
    | some i => some (10, i)
    | none => none

/-- Port number of index `i` of block `k`, none where the block has no such port. -/
def linkPort (k i : Nat) : Option Nat :=
  if k = 8 ∧ i < 40 then some i
  else if k = 9 ∧ i < 24 then some (64 + i)
  else if k = 10 ∧ i < 4 then some (112 + i)
  else if k = 10 ∧ i < 6 then some (116 + i)
  else none

/-- PORT_CTRL, CNT_A and CNT_B of index `i` of block `k`. -/
def linkCtrl (k i : Nat) : Nat := Reg.block k + 0x200 + 0x20 * i
def linkCntA (k i : Nat) : Nat := Reg.block k + 0x20C + 0x20 * i
def linkCntB (k i : Nat) : Nat := Reg.block k + 0x210 + 0x20 * i

/-- PORT_CTRL.ENABLE of a port in force. -/
def State.linkEnabled (s : State) (port : Nat) : Bool :=
  match linkPlace port with
  | some (k, i) => s.bit (linkCtrl k i) 31
  | none => false

/-- Every receive lane of the port is LOCKED. -/
def Link.locked (l : Link) : Bool := l.lanes.all fun x => x.st == 2

/-- The port is aligned (R185); BK needs no deskew (R188). -/
def Link.aligned (l : Link) : Bool := l.locked && (l.lanes.length == 1 || l.skewOk)

/-- The port is enabled and aligned, so it delivers packets (R185, R186). -/
def State.aligned (s : State) (port : Nat) : Bool := s.linkEnabled port && (s.link port).aligned

/-! ### Counters (R214) -/

/-- Add `n` to a CNT_A field of a port. -/
def State.cntA (s : State) (port hi lo n : Nat) : State :=
  match linkPlace port with
  | some (k, i) => s.addSat (linkCntA k i) hi lo n
  | none => s

/-- Add `n` to a CNT_B field of a port. -/
def State.cntB (s : State) (port hi lo n : Nat) : State :=
  match linkPlace port with
  | some (k, i) => s.addSat (linkCntB k i) hi lo n
  | none => s

/-- Raise a flag of the port's block. -/
def State.linkFlag (s : State) (port : Nat) (f : Nat → Flag) : State :=
  match linkPlace port with
  | some (k, _) => s.raise (f k)
  | none => s

/-- `n` packets of a port abandoned (R184, R189). -/
def State.aborted (s : State) (port n : Nat) : State := s.cntB port 23 16 n

/-! ### Lane state machine (R183, R184) -/

/-- A lane of a port. -/
def Link.lane (l : Link) (k : Nat) : Lane := l.lanes.getD k {}

/-- Replace a lane. -/
def Link.setLane (l : Link) (k : Nat) (x : Lane) : Link := { l with lanes := l.lanes.set k x }

/-- A lane leaves LOCKED: its port is no longer aligned, blocks waiting for it are dropped. -/
def Link.unlock (l : Link) : Link := { l with slots := [], skewOk := false }

/-- A packet in progress on a port is abandoned (R184). -/
def State.abandon (s : State) (port : Nat) : State :=
  match (s.link port).pkt with
  | some _ => (s.setLink port { s.link port with pkt := none }).aborted port 1
  | none => s

/-- A lane enters another state. From LOCKED its port loses alignment and a packet in progress is abandoned; a
transition to HUNT from LOCKED or RELOCK is LOCK_LOST; BK leaving LOCKED or RELOCK is HEAD_LOST of its output machine
(R183, R188). -/
def State.laneTo (s : State) (port k : Nat) (x : Lane) : State :=
  let l := s.link port
  let was := (l.lane k).st
  let l1 := l.setLane k x
  let s1 := s.setLink port (if was = 2 ∧ x.st ≠ 2 then l1.unlock else l1)
  let s2 := if was = 2 ∧ x.st ≠ 2 then s1.abandon port else s1
  let left := decide (was = 2 ∨ was = 3) && decide (x.st ≠ 2) && decide (x.st ≠ 3)
  let s3 := if left && x.st == 0 then (s2.cntB port 31 24 1).linkFlag port .lockLost else s2
  if left && decide (64 ≤ port) && decide (port < 88) then s3.stmEvent (40 + (port - 64)) 4 else s3

/-- The header of a block as lane `k` tests it: a header kind, and a data symbol with the lane's id and the expected
sequence (R181, R183). -/
def headerKind (syms : List Sym) : Bool :=
  match (syms[0]? : Option Sym) with
  | some .k285 => true
  | some .k281 => true
  | some .k280 => true
  | _ => false

/-- Symbol 1 as sequence and lane id, none where it is no data symbol. -/
def headerSeq (syms : List Sym) : Option (Nat × Nat) :=
  match (syms[1]? : Option Sym) with
  | some (.data b) => some (b.toNat / 4, b.toNat % 4)
  | _ => none

/-- A valid header of lane `k` with sequence `seq` (R183). -/
def headerValid (syms : List Sym) (k seq : Nat) : Bool :=
  headerKind syms && headerSeq syms == some (seq, k)

/-- What HUNT keeps of a symbol: a header kind may open a candidate. -/
def huntFrom (y : Sym) : List Sym := if headerKind [y] then [y] else []

/-- An EIDLE_ENTER control block (R182). -/
def isEidle (syms : List Sym) : Bool := syms[0]? == some .k281 && syms[2]? == some (.data 0x01)

/-- A lane goes idle (R186). -/
def State.laneIdle (s : State) (port k : Nat) (eidle : Bool) : State :=
  let x := (s.link port).lane k
  s.laneTo port k { x with st := 4, eidle := eidle, idleAt := s.uptime, run := 0, hist := [], blk := [] }

/-! ### Deskew and interleave (R185, R189) -/

/-- Position `j` of a block lies on lane `j mod n` at symbol `2 + j / n`, for `n` lanes (R189); a symbol of a discarded
block reads as a symbol error. -/
def interleave (n : Nat) (slots : List LaneSlot) : List Sym :=
  (List.range (62 * n)).map fun j =>
    match slots.find? fun e => e.lane == j % n with
    | some e => match e.syms with
      | some l => l.getD (2 + j / n) .err
      | none => .err
    | none => .err

/-- The bytes of a packet that ended at EOP, or why the packet layer ended a packet (R189). -/
inductive PacketEnd where
  | whole (bytes : List Byte)
  | badLength
  deriving DecidableEq, Repr

/-- One payload position of the packet layer (R189): the packet in progress (newest byte first), how many packets were
abandoned, and the ends so far. -/
def packetSym (a : Option (List Byte) × Nat × List PacketEnd) (x : Sym) : Option (List Byte) × Nat × List PacketEnd :=
  match a.1 with
  | none => match x with
    | .sop => (some [], a.2)
    | _ => a
  | some p => match x with
    | .data b => if 16397 ≤ p.length then (none, a.2.1, a.2.2 ++ [.badLength]) else (some (b :: p), a.2)
    | .eop =>
      let l := p.reverse
      (none, a.2.1, a.2.2 ++ [if l.length = 13 + leAt l 2 2 ∧ 13 ≤ l.length then .whole l else .badLength])
    | .sop => (some [], a.2.1 + 1, a.2.2)
    | _ => (none, a.2.1 + 1, a.2.2)

/-- Header symbol of a slot's block. -/
def LaneSlot.head (e : LaneSlot) : Option Sym :=
  match e.syms with
  | some l => l[0]?
  | none => none

/-- A block of a port whose lanes have all delivered it (R185, R189): lanes that disagree on its header type discard it,
a data block feeds the packet layer, an idle block or a discarded one interrupts a packet, a control block does not. -/
def State.portBlock (s : State) (port : Nat) (slots : List LaneSlot) : State × List PacketEnd :=
  let n := (s.link port).lanes.length
  let heads := slots.filterMap LaneSlot.head
  let kinds := heads.eraseDups
  if 1 < kinds.length then (((s.cntB port 7 0 1).abandon port), [])
  else if kinds = [.k281] then
    (if heads.length = n then (s, []) else (s.abandon port, []))
  else if kinds = [.k280] ∨ kinds = [] then (s.abandon port, [])
  else
    let r := (interleave n slots).foldl packetSym ((s.link port).pkt, 0, [])
    let s1 := s.setLink port { s.link port with pkt := r.1 }
    (if r.2.1 = 0 then s1 else s1.aborted port r.2.1, r.2.2)

/-- The skews of a port's lanes against the earliest (R185). -/
def skewsOf (slots : List LaneSlot) : List (Nat × Nat) :=
  let t0 := slots.foldl (fun a e => min a e.time) (slots.foldl (fun a e => max a e.time) 0)
  slots.map fun e => (e.lane, e.time - t0)

/-- Record a measured skew: above 8 symbols the port stays or becomes unaligned with DESKEW_FAIL, to be measured again
64 blocks on (R185). -/
def Link.measure (l : Link) (seq : Nat) (slots : List LaneSlot) : Link :=
  let sk := skewsOf slots
  let ok := sk.all fun e => decide (e.2 ≤ 8)
  let lanes := (List.range l.lanes.length).map fun k =>
    let x := l.lane k
    match sk.find? fun e => e.1 == k with
    | some e => { x with skew := e.2 }
    | none => x
  { l with lanes := lanes, skewOk := ok, deskewFail := !ok, measureAt := seq }

/-- A block that lane `k` delivers at symbol time `t` with sequence `seq`: kept until every lane of the port has
delivered the block of that sequence (R185). An entry half a wrap older belongs to an earlier wrap. -/
def State.laneDeliver (s : State) (port k seq t : Nat) (syms : Option (List Sym)) : State × List PacketEnd :=
  let l := s.link port
  if !l.locked then (s, [])
  else
    let old := (Cells.get (fun _ => []) l.slots seq).filter fun e => e.lane != k && decide (t ≤ e.time + 2048)
    let now := { lane := k, time := t, syms := syms : LaneSlot } :: old
    if now.length < l.lanes.length then
      (s.setLink port { l with slots := Cells.put (fun _ => []) l.slots seq now }, [])
    else
      let l1 := { l with slots := Cells.put (fun _ => []) l.slots seq [] }
      let due := l.lanes.length = 1 ∨ !l.deskewFail ∨ l.measureAt = seq
      let l2 := if l.lanes.length ≠ 1 ∧ due then l1.measure seq now else l1
      let s1 := s.setLink port l2
      if l2.aligned then s1.portBlock port now else (s1.abandon port, [])

/-- A header of lane `k` is complete (R183, R184): symbols 0 and 1 of a block, which began at symbol time
`lane.blkAt`. The sequence advances whether or not the header was valid in LOCKED. A lane that falls back to HUNT
resumes the search after the failed position. -/
def State.laneHeader (s : State) (port k : Nat) (syms : List Sym) : State :=
  let x := (s.link port).lane k
  let ok := headerValid syms k x.seq
  let next := (x.seq + 1) % 64
  let hunt := { x with st := 0, run := 0, hist := [], blk := huntFrom (syms.getD 1 .err) }
  let more := fun n => if x.run + 1 < n then { x with seq := next, run := x.run + 1, blk := syms }
    else { x with st := 2, seq := next, run := 0, hist := [true], eidle := false, swap := false, blk := syms }
  match x.st with
  | 1 => s.laneTo port k (if ok then more 32 else hunt)
  | 3 => s.laneTo port k (if ok then more 8 else hunt)
  | _ =>
    let hist := (ok :: x.hist).take 16
    s.laneTo port k (if 4 ≤ (hist.filter fun b => !b).length then hunt else { x with seq := next, hist := hist, blk := syms })

/-- A block of lane `k` is complete (R182, R184): a LOCKED lane delivers it, discarded where its header was invalid;
after an EIDLE_ENTER the lane is idle. -/
def State.laneBlock (s : State) (port k : Nat) (syms : List Sym) : State × List PacketEnd :=
  let x := (s.link port).lane k
  let s1 := s.laneTo port k { x with blk := [] }
  if x.st ≠ 2 then (s1, [])
  else
    let ok := x.hist.headD false
    if ok && isEidle syms then (s1.laneIdle port k true, [])
    else s1.laneDeliver port k ((x.seq + 63) % 64) x.blkAt (if ok then some syms else none)

/-- A symbol on a lane in HUNT (R183): a header-kind symbol followed by a data symbol with the lane's id is a
candidate, counts 1 and enters CHECK; one with another id is LANE_SWAP, but for the pair K28.5, D21.5 of idle payload,
whose id names no lane (assumption 54). -/
def State.laneHunt (s : State) (port k t : Nat) (y : Sym) : State :=
  let x := (s.link port).lane k
  match x.blk, y with
  | h :: _, .data b =>
    if b.toNat % 4 = k then
      s.laneTo port k { x with st := 1, seq := (b.toNat / 4 + 1) % 64, run := 1, swap := false, blk := [h, y] }
    else s.laneTo port k { x with swap := x.swap || !(h == .k285 && b == 0xB5), blk := [] }
  | _, _ => s.laneTo port k { x with blk := huntFrom y, blkAt := t }

/-- A symbol arrives on lane `k` of a port, its first bit at symbol time `t` (R183 to R186). In RELOCK the first block
begins at the expected position, a whole number of blocks after the last one. Answers the packets whose EOP it
completed. -/
def State.laneSym (s : State) (port k t : Nat) (y : Sym) : State × List PacketEnd :=
  let x := (s.link port).lane k
  if x.st = 4 then (s, [])
  else if x.st = 0 then (s.laneHunt port k t y, [])
  else if x.st = 3 ∧ x.blk = [] ∧ (t + 64 - x.blkAt % 64) % 64 ≠ 0 then (s, [])
  else
    let s1 := if y = .err then s.cntB port 7 0 1 else s
    let syms := x.blk ++ [y]
    if syms.length = 1 then (s1.laneTo port k { x with blk := syms, blkAt := t }, [])
    else if syms.length = 2 then (s1.laneHeader port k syms, [])
    else if syms.length < 64 then (s1.laneTo port k { x with blk := syms }, [])
    else s1.laneBlock port k syms

/-- What the bits of a lane are taken with: the state, the lane's bits, the packets completed, the bits taken. -/
structure LaneRun where
  s : State
  bits : Deser
  ends : List PacketEnd
  n : Nat

/-- The received polarity of lane `k` of a port: PORT_CTRL.POLARITY bit k of a data lane, bit 4 of BK. -/
def State.laneInverted (s : State) (port k : Nat) : Bool :=
  match linkPlace port with
  | some (b, i) => s.bit (linkCtrl b i) (if b = 9 then 4 else k)
  | none => false

/-- One bit of a lane (R180, R183); a boundary that moves drops the symbols of the block in progress. An idle lane keeps
its symbol boundary and disparity for RELOCK (R187). -/
def LaneRun.bit (port k t : Nat) (r : LaneRun) (b : Bool) : LaneRun :=
  let x := (r.s.link port).lane k
  if x.st = 4 then { r with n := r.n + 1 }
  else
    let d := r.bits.take (x.st == 0) (b != r.s.laneInverted port k)
    match d.2.1 with
    | some y =>
      let o := r.s.laneSym port k ((10 * t + r.n - 9) / 10) y
      { s := o.1, bits := d.1, ends := r.ends ++ o.2, n := r.n + 1 }
    | none =>
      { s := if d.2.2 then r.s.laneTo port k { x with blk := [] } else r.s, bits := d.1, ends := r.ends, n := r.n + 1 }

/-- Bits arrive on lane `k` of a port, the first at symbol time `t` (R180, R183). Answers the packets they completed. -/
def State.laneBits (s : State) (port k t : Nat) (bits : List Bool) : State × List PacketEnd :=
  let l := s.link port
  let r := bits.foldl (LaneRun.bit port k t) ⟨s.setLink port { l with ck := true }, (l.lane k).bits, [], 0⟩
  let l1 := r.s.link port
  (r.s.setLink port (l1.setLane k { l1.lane k with bits := r.bits }), r.ends)

/-! ### Packets (R191 to R194) -/

/-- The packet types and channels that a port's role carries (R190, R191, R213, R504, R524, R526, R531). -/
def State.wanted (s : State) (port : Nat) (p : RxPacket) : Bool :=
  if port < 40 then
    match s.body RT.PORT port with
    | some b => [0x01, 0x02, 0x03].contains p.type && decide (p.chan < 4) && (leAt b 4 1).testBit p.chan
      && (s.body RT.STREAM (4 * port + p.chan)).isSome
    | none => false
  else if port < 88 then [0x11, 0x12, 0x3F].contains p.type && p.chan == 0
  else if port < 116 then
    (p.type == 0x30 && decide (p.chan ≤ 1)) || (p.type == 0x31 && p.chan == 0) || (p.type == 0x3F && p.chan == 0)
  else [0x20, 0x21, 0x3F].contains p.type && p.chan == 0

/-- A packet discarded for its length (R189). -/
def State.packetLost (s : State) (port : Nat) : State := (s.cntA port 31 20 1).linkFlag port .packetCrc

/-- A packet between SOP and EOP reaches a port (R189, R191 to R194): the length test, the classification of R193, the
sequence gap, the count of JLX, and the test for unwanted packets; `f` handles a wanted one. -/
def State.packetIn (s : State) (port : Nat) (b : List Byte) (f : State → RxPacket → State) : State :=
  if b.length < 13 ∨ b.length ≠ 13 + leAt b 2 2 ∨ 16397 < b.length then s.packetLost port
  else
    let p := RxPacket.ofBytes b
    if !p.crcOk then
      if p.guardOk then s.packetLost port else (s.cntA port 19 8 1).linkFlag port .checkDamaged
    else
      let s1 := if p.guardOk then s else s.cntA port 7 4 1
      let gap := match (s1.link port).lastSeq with
        | some q => (p.seq + 65536 - q - 1) % 65536
        | none => 0
      let s2 := (s1.setLink port { s1.link port with lastSeq := some p.seq }).cntB port 15 8 gap
      let s3 := match jlxIndex port with
        | some i => s2.incWrap (Reg.JLX_PKT_RX i) 31 0
        | none => s2
      if s3.wanted port p then f s3 p else s3.cntA port 3 0 1

/-- A packet that arrives whole on an aligned port of the role `ok` names. `f` handles a wanted packet of type `ty`. -/
def State.packetRow (s : State) (ok : Bool) (port ty : Nat) (b : List Byte) (f : State → RxPacket → State) : Res :=
  if ok && s.aligned port then .next (s.packetIn port b fun t p => if p.type = ty then f t p else t) else .next s

/-! ### IDLE packets (R204) and counters -/

/-- Payload of the IDLE packet of a port: receive lanes LOCKED, port aligned (R204). -/
def State.idlePayload (s : State) (port : Nat) : List Byte :=
  let l := s.link port
  let lanes := (List.range l.lanes.length).foldl (fun a k => if (l.lane k).st = 2 then a + 2 ^ k else a) 0
  leBytes 4 (lanes + if s.aligned port then 16 else 0)

/-- The JLX ports. -/
def jlxPorts : List Nat := [112, 113, 114, 115, 120, 121]

/-- IDLE_SEND (R204): an IDLE packet on every enabled JLX port. -/
def execIdleSend (s : State) : Res :=
  if s.ready then .next (jlxPorts.foldl (fun t port => t.sendPacket port 0x3F 0 0 (t.idlePayload port)) s) else .next s

/-- An accepted IDLE packet (R204): FAR_STATUS of a JLX port shows byte 0. -/
def State.idleIn (s : State) (port : Nat) (p : RxPacket) : State :=
  match jlxIndex port with
  | some i => (s.setLink port { s.link port with idleRx := some s.uptime }).setFld (Reg.JLX_FAR_STATUS i) 7 0 (leAt p.payload 0 1)
  | none => s

/-- IDLE_RX (R204). -/
def execIdleRx (port : Nat) (b : List Byte) (s : State) : Res :=
  s.packetRow (decide (64 ≤ port)) port 0x3F b fun t p => t.idleIn port p

/-- Clear CNT_A and CNT_B of one port of block `k`, or of every port with 0xFF (R214). -/
def State.cntClear (s : State) (k v : Nat) : State :=
  let one := fun t i => match linkPort k i with
    | some _ => (t.setReg (linkCntA k i) 0).setReg (linkCntB k i) 0
    | none => t
  if v = 0xFF then (List.range 40).foldl one s else one s v

/-- CNT_CLR (R214): a write of `v` to CNT_CLR of block `k` (8 JLI, 9 JLO, 10 JLX), an X register. -/
def execCntClr (p : Port) (k : Nat) (v : Word) (s : State) : Res :=
  if k = 8 ∨ k = 9 ∨ k = 10 then
    s.hostWriteX p (Reg.block k + 0x48) v fun t => t.cntClear k (wbits v 7 0)
  else .next s

/-! ### Registers that show a receiver -/

/-- ALIGNED_LO or ALIGNED_HI of block `k`: bit i is port `base + i`. -/
def State.alignedWord (s : State) (k base : Nat) : Word :=
  (List.range 32).foldl (fun a i => match linkPort k (base + i) with
    | some port => if s.aligned port then a ||| w32 (2 ^ i) else a
    | none => a) 0

/-- PORT_STATUS of a port. -/
def State.portStatus (s : State) (port : Nat) : Word :=
  let l := s.link port
  let b := fun (x : Bool) (n : Nat) => if x then 2 ^ n else 0
  w32 (b (s.aligned port) 31 + b l.ck 30 + b l.deskewFail 29 + b (l.lanes.any (·.swap)) 28
    + b (l.lanes.all fun x => x.st == 4 && x.eidle) 27 + if l.lanes.length = 1 then (l.lane 0).st else 0)

/-- PORT_SKEW of a JLI or JLX port: STATE and SKEW of each lane, 31 while not LOCKED. -/
def State.portSkew (s : State) (port : Nat) : Word :=
  let l := s.link port
  w32 (leNat ((List.range 4).map fun k =>
    let x := l.lane k
    BitVec.ofNat 8 (x.st * 32 + if x.st = 2 then min x.skew 31 else 31)))

/-- FAR_STATUS of JLX index `i`: VALID while an IDLE packet arrived within the last 1 ms. -/
def State.farStatus (s : State) (i : Nat) : Word :=
  let v := match linkPort 10 i with
    | some port => match (s.link port).idleRx with
      | some t => decide (s.uptime - t ≤ cyclesPerMs)
      | none => false
    | none => false
  wput (s.reg (Reg.JLX_FAR_STATUS i)) 31 31 (if v then 1 else 0)

end Sys2Proof.Machine
end

