-- ==== Sys2Proof/Machine/Ingest.lean ====
section
/-!
DEFINITION. Machine/Ingest.lean: uncompressed capture (R195 to R199): frames of the sub-streams of INn, the tap and the
ancillary words of their step machines (R123, R124).
-/
namespace Sys2Proof.Machine

/-- The stream that sub-stream `k` of INn feeds (R213), where it exists and captures. -/
def State.captureStream (s : State) (n k : Nat) : Option Nat :=
  let i := 4 * n + k
  let x := s.stream i
  if x.on && x.kind == 0 then some i else none

/-! ### Tap and ancillary words -/

/-- Tap settings in force of ingest machine `m`: x, step, y, count, sub-stream. -/
def StepMachine.tap (x : StepMachine) : Nat × Nat × Nat × Nat × Nat :=
  (x.tapNow.getD 0 0, x.tapNow.getD 1 0, x.tapNow.getD 2 0, x.tapNow.getD 3 0, x.tapNow.getD 4 0)

/-- Pixel `px` of line `ln` has arrived. -/
def Incoming.got (f : Incoming) (ln px : Nat) : Bool :=
  f.segs.any fun e => e.1 == ln && decide (e.2.1 ≤ px) && decide (px < e.2.1 + e.2.2)

/-- A tap sample: the upper 8 bits of luma, or of G; 0 beyond the frame (R123). -/
def Incoming.tapSample (f : Incoming) (x y : Nat) : Nat :=
  if f.w ≤ x ∨ f.h ≤ y ∨ !Fmt.known f.fmt then 0
  else f.img.at (if Fmt.yuv f.fmt then 0 else 1) x y / 2 ^ (Fmt.depth f.fmt - 8)

/-- The tap samples of the current frame are all present: each has arrived or lies beyond the frame (R123). -/
def Incoming.tapAll (f : Incoming) (t : Nat × Nat × Nat × Nat × Nat) : Bool :=
  (List.range t.2.2.2.1).all fun i =>
    let x := t.1 + i * t.2.1
    decide (f.w ≤ x) || decide (f.h ≤ t.2.2.1) || f.got t.2.2.1 x

/-- Four samples a word, sample 0 in bits [7:0] (R123). -/
def tapWords (l : List Nat) : List Word :=
  (List.range (cdiv l.length 4)).map fun k =>
    w32 (leNat ((List.range 4).map fun j => BitVec.ofNat 8 (l.getD (4 * k + j) 0)))

/-- TAP_READY of machine `n` once the samples of the frame `f` of sub-stream `k` are all present: the words stand at P1
and E1 latches (R123). A step outside 1 to 256 and a count outside 1 to 64 act as written (DESIGN CHOICE, assumption 74).
-/
def State.tapCheck (s : State) (n k : Nat) (f : Incoming) : State :=
  let m := s.machine n
  let t := m.tap
  if m.tapReady || t.2.2.2.2 != k || m.tapNow.isEmpty || !f.tapAll t then s
  else
    let words := tapWords ((List.range t.2.2.2.1).map fun i => f.tapSample (t.1 + i * t.2.1) t.2.2.1)
    (s.setMachine n { m with tapReady := true, tapFifo := m.tapFifo ++ words }).stmEvent n 1

/-- A frame of sub-stream `k` starts (R123, R124): a TAP_X or TAP_Y write that names the sub-stream takes effect, words
of the frame before are gone, and E2 latches on the machine that taps the sub-stream. -/
def State.tapStart (s : State) (n k : Nat) : State :=
  let m := s.machine n
  let now := if m.tapY.2.2 = k then [m.tapX.1, m.tapX.2, m.tapY.1, m.tapY.2.1, k] else m.tapNow
  if now.getD 4 0 = k ∧ now ≠ [] then
    (s.setMachine n { m with tapNow := now, tapFifo := [], tapReady := false, alive := none }).stmEvent n 2
  else s

/-- Words of ANC at the 64-word FIFO of P5: words at a full FIFO are dropped (R199). -/
def State.ancIn (s : State) (n k : Nat) (words : List Word) : State :=
  let m := s.machine n
  if m.tap.2.2.2.2 = k ∧ m.tapNow ≠ [] then
    let fifo := (m.ancFifo ++ words).take 64
    let s1 := s.setMachine n { m with ancFifo := fifo }
    if fifo.isEmpty then s1 else s1.stmEvent n 4
  else s

/-- The REEL record of machine `n` sets ALIVE_SRC (R128). -/
def State.aliveSrc (s : State) (n : Nat) : Bool :=
  match s.body RT.REEL n with
  | some b => (leAt b 2 1).testBit 1
  | none => false

/-- The alive counter of a frame of sub-stream `k` (R124): the VIDEO_FS's, or the one written to P4 since TAP_READY, or
the previous counter. -/
def State.frameAlive (s : State) (n k i fs : Nat) : Nat :=
  let m := s.machine n
  if s.aliveSrc n && m.tap.2.2.2.2 == k then m.alive.getD (s.stream i).alive else fs

/-! ### Frames -/

/-- The frame a VIDEO_FS starts (R195, R428): its capture time and domain by TDOM. -/
def State.fsFrame (s : State) (x : StreamSt) (b : List Byte) : Incoming :=
  let tdom := leAt b 7 1
  let w := leAt b 2 2
  let h := leAt b 4 2
  let fmt := leAt b 6 1
  { alive := leAt b 0 2, cap := if tdom = 1 ∨ tdom = 2 then w32 (leAt b 8 4) else s.ts, ptp := tdom == 1,
    epoch := s.fld Reg.TIM_EPOCH 7 0, w := w, h := h, fmt := fmt,
    bad := !(w == x.width && h == x.height && fmt == x.format) }

/-- An accepted VIDEO_FS of sub-stream `k` of INn (R195, R198): a frame still open is discarded, the next one starts. -/
def State.fsIn (s : State) (n : Nat) (p : RxPacket) : State :=
  match s.captureStream n p.chan with
  | none => s
  | some i =>
    if p.payload.length < 32 then s
    else
      let s1 := match (s.stream i).cur with
        | some _ => s.discardFrame i
        | none => s
      let s2 := s1.startFrame i (s1.fsFrame (s1.stream i) p.payload)
      let s3 := s2.tapStart n p.chan
      match (s3.stream i).cur with
      | some f => s3.tapCheck n p.chan f
      | none => s3

/-- Payload bytes of `count` pixels of a wire format (R196). -/
def segBytes (fmt count : Nat) : Nat := cdiv (Fmt.wireCount fmt count * Fmt.depth fmt) 8

/-- A pixel segment of the frame in progress (R197, R198): one that lies outside the frame, or whose length or format
does not fit, delivers no pixel. -/
def Incoming.segment (f : Incoming) (line x count : Nat) (data : List Byte) : Incoming :=
  let even := !Fmt.halfH f.fmt || (x % 2 == 0 && count % 2 == 0)
  if line < f.h ∧ 1 ≤ count ∧ x + count ≤ f.w ∧ even = true ∧ Fmt.known f.fmt = true ∧ f.fmt ≤ 8
      ∧ data.length = segBytes f.fmt count then
    { f with img := f.img.unwire x line (unpackBits (Fmt.depth f.fmt) (Fmt.wireCount f.fmt count) data),
             segs := (line, x, count) :: f.segs }
  else f

/-- An accepted VIDEO_LINE of sub-stream `k` of INn (R197 to R199). -/
def State.lineIn (s : State) (n : Nat) (p : RxPacket) : State :=
  match s.captureStream n p.chan with
  | none => s
  | some i =>
    let b := p.payload
    let count := leAt b 4 2
    if b.length < 8 then s
    else if (leAt b 6 2).testBit 0 then
      if b.length = 8 + 4 * count then s.ancIn n p.chan ((List.range count).map fun j => w32 (leAt b (8 + 4 * j) 4)) else s
    else
      match (s.stream i).cur with
      | none => s
      | some f =>
        let f1 := f.segment (leAt b 0 2) (leAt b 2 2) count (b.drop 8)
        ((s.setStream i { s.stream i with cur := some f1 }).storeLine i (leAt b 0 2) f1.img).tapCheck n p.chan f1

/-- Every pixel of every line has arrived (R198). -/
def Incoming.whole (f : Incoming) : Bool :=
  (List.range f.h).all f.lineWhole

/-- An accepted VIDEO_FE of sub-stream `k` of INn (R198): the frame is offered for flip, or discarded whole; E3
latches on the machine that taps the sub-stream. -/
def State.feIn (s : State) (n : Nat) (p : RxPacket) : State :=
  match s.captureStream n p.chan with
  | none => s
  | some i =>
    match (s.stream i).cur with
    | none => s
    | some f =>
      let alive := s.frameAlive n p.chan i f.alive
      let s1 :=
        if f.bad || f.dropped || !f.whole then s.discardFrame i
        else s.offerFrame i { alive := alive, cap := f.cap, ptp := f.ptp, epoch := f.epoch, img := f.img }
      let m := s1.machine n
      if m.tap.2.2.2.2 = p.chan ∧ m.tapNow ≠ [] then
        (s1.setMachine n { m with tapReady := false, alive := none }).stmEvent n 3
      else s1

/-- VIDEO_FS_RX (R195): on INn. -/
def execVideoFsRx (n : Nat) (b : List Byte) (s : State) : Res :=
  s.packetRow (decide (n < 40)) n 0x01 b fun t p => t.fsIn n p

/-- VIDEO_LINE_RX (R198): on INn. -/
def execVideoLineRx (n : Nat) (b : List Byte) (s : State) : Res :=
  s.packetRow (decide (n < 40)) n 0x02 b fun t p => t.lineIn n p

/-- VIDEO_FE_RX (R198): on INn. -/
def execVideoFeRx (n : Nat) (b : List Byte) (s : State) : Res :=
  s.packetRow (decide (n < 40)) n 0x03 b fun t p => t.feIn n p

end Sys2Proof.Machine
end

