-- ==== Sys2Proof/Machine/Net.lean ====
section
/-!
DEFINITION. Machine/Net.lean: Ethernet ports, group membership, decoder contexts and depacketising (R215 to R236).
-/
namespace Sys2Proof.Machine

/-! ### Ports -/

/-- PORT record body of ETHn (R216). -/
def State.ethBody (s : State) (n : Nat) : Option (List Byte) := s.body RT.PORT (96 + n)

/-- Add 1 to ETH.CNT[n][k]. -/
def State.ethCount (s : State) (n k : Nat) : State := s.incWrap (Reg.ETH_CNT n k) 31 0

/-- ETHn is on and its link up. -/
def State.ethUp (s : State) (n : Nat) : Bool := s.bit (Reg.ETH_PORT_CTRL n) 31 && s.bit (Reg.ETH_PORT_STATUS n) 31

/-- Send a frame on ETHn. Kinds: 1 membership report, 2 ARP or ND answer, 3 PTP, 4 RTP. -/
def State.sendEth (s : State) (n kind : Nat) (fields : List Nat) : State :=
  if s.ethUp n then (s.ethCount n 10).emit (.eth n kind fields) else s

/-- The port registers as a structure start sets them from its PORT record (R216), or without one. -/
def State.ethLoad (s : State) (n : Nat) : State :=
  match s.ethBody n with
  | some b =>
    let f := leAt b 2 1
    let ctrl := (leAt b 0 1 % 2) * 2 ^ 31 + leAt b 1 1 % 4 * 2 ^ 29 + (f % 2) * 2 ^ 28 + (f / 2 % 2) * 2 ^ 27
      + leAt b 10 2 % 4096
    (((s.setReg (Reg.ETH_PORT_CTRL n) (w32 ctrl)).setReg (Reg.ETH_MAC_LO n) (w32 (beNat (slice b 6 4)))).setReg
      (Reg.ETH_MAC_HI n) (w32 (beNat (slice b 4 2)))).setReg (Reg.ETH_IPV4 n) (w32 (beNat (slice b 12 4)))
  | none => (((s.setReg (Reg.ETH_PORT_CTRL n) 0).setReg (Reg.ETH_MAC_LO n) 0).setReg (Reg.ETH_MAC_HI n) 0).setReg
      (Reg.ETH_IPV4 n) 0

/-- An IPv4 address in the 16-byte layout of R221. -/
def ip4Layout (a : Word) : List Byte := leBytes 12 0 ++ beBytes 4 a.toNat

/-- The link-local IPv6 address of a port (R216). -/
def State.linkLocal (s : State) (n : Nat) : List Byte :=
  linkLocalOf (beBytes 2 (s.fld (Reg.ETH_MAC_HI n) 15 0) ++ beBytes 4 (s.reg (Reg.ETH_MAC_LO n)).toNat)

/-- An address of ETHn's own (R215, R216). -/
def State.ownAddress (s : State) (n : Nat) (a : List Byte) : Bool :=
  (s.reg (Reg.ETH_IPV4 n) != 0 && a == ip4Layout (s.reg (Reg.ETH_IPV4 n)))
    || a == s.linkLocal n

/-- The source address of what ETHn sends (R216): its link-local IPv6 address, or its IPv4 address in the layout of
R221. -/
def State.sourceIp (s : State) (n : Nat) (ip6 : Bool) : List Byte :=
  if ip6 then s.linkLocal n else ip4Layout (s.reg (Reg.ETH_IPV4 n))

/-! ### Contexts and membership -/

/-- DECODER_CONTEXT body of context `c` (R221). -/
def State.ctxBody (s : State) (c : Nat) : Option (List Byte) := s.body RT.DECODER_CONTEXT c

/-- Context `c`. -/
def State.ctx (s : State) (c : Nat) : DecCtx := Cells.get (fun _ => {}) s.net.ctx c

/-- Replace context `c`. -/
def State.setCtx (s : State) (c : Nat) (x : DecCtx) : State :=
  { s with net := { s.net with ctx := Cells.put (fun _ => {}) s.net.ctx c x } }

/-- Decoder core `k`. -/
def State.core (s : State) (k : Nat) : DecCore := Cells.get (fun _ => {}) s.net.cores k

/-- Replace decoder core `k`. -/
def State.setCore (s : State) (k : Nat) (x : DecCore) : State :=
  { s with net := { s.net with cores := Cells.put (fun _ => {}) s.net.cores k x } }

/-- TBASE of a DECODER_CONTEXT body. -/
def ctxTbase (b : List Byte) : Nat := bitsN (leAt b 5 1) 2 1

/-- Multicast filter entries a record list needs (R218). -/
def mcastEntries (l : List Rec) : Nat :=
  (l.filter fun r => r.type == RT.DECODER_CONTEXT && ctxMulticast r.body).foldl (fun n r => n + (ctxPorts r.body).length) 0

/-- Key of a port's IGMP or MLD host. -/
def queryKey (n : Nat) (ip6 : Bool) : Nat := 2 * n + if ip6 then 1 else 0

/-- An older querier governs the port's IGMP or MLD host: IGMPv2 or MLDv1 compatibility mode (R215). -/
def State.oldMode (s : State) (n : Nat) (ip6 : Bool) : Bool :=
  decide (s.uptime < Cells.get (fun _ => 0) s.net.oldQuery (queryKey n ip6))

/-- Send a membership report (R215, R216, R219): its form (3 IGMPv3 or MLDv2, 2 IGMPv2 or MLDv1, which has no source
list), join or leave, protocol, the port's VLAN, the port's own address as IP source (0.0.0.0 on a port without IPV4),
group, SSM source. -/
def State.sendReport (s : State) (r : Report) : State :=
  let old := s.oldMode r.port r.ip6
  s.sendEth r.port 1 ([if old then 2 else 3, if r.join then 1 else 0, if r.ip6 then 6 else 4,
      s.fld (Reg.ETH_PORT_CTRL r.port) 11 0]
    ++ (s.sourceIp r.port r.ip6 ++ r.group ++ if old then [] else r.source).map (·.toNat))

/-- The report of a context's group on a port. -/
def ctxReport (b : List Byte) (n : Nat) (join : Bool) : Report :=
  let mode := leAt b 5 1
  { port := n, ip6 := mode.testBit 3, group := slice b 16 16, source := if mode.testBit 4 then slice b 32 16 else [],
    join := join }

/-- Join or leave a context's group on each of its ports: a report now, to be repeated once (R219). -/
def State.ctxMembership (s : State) (b : List Byte) (join : Bool) : State :=
  if !ctxMulticast b then s
  else (ctxPorts b).foldl (fun t n =>
    let r := ctxReport b n join
    let u := t.sendReport r
    { u with net := { u.net with reports := u.net.reports ++ [r] } }) s

/-- The groups of a context are left, where it has joined them. -/
def State.ctxLeave (s : State) (c : Nat) (b : List Byte) : State :=
  let x := s.ctx c
  if x.joined then (s.setCtx c { x with joined := false }).ctxMembership b false else s

/-- Enter WAIT_IRAP (R225): RECOVERING has ended, access units before the first IRAP or IDR are discarded (R248). -/
def DecCtx.waitIrap (x : DecCtx) : DecCtx := { x with st := 1, fresh := true, skip := false }

/-- DEC_CTRL 1 from STOPPED (R226, R227): groups joined, SSRC unlocked, counts cleared. -/
def State.ctxStart (s : State) (c : Nat) : State :=
  match s.ctxBody c with
  | none => s
  | some b =>
    let x := s.ctx c
    if x.st ≠ 0 then s
    else
      (s.setCtx c { x.waitIrap with ssrc := none, other := none, next := none, recent := [], held := [], au := none,
                                     afterGap := false, cnt := [0, 0, 0, 0, 0, 0, 0, 0, 0], ref := none,
                                     prevRtp := none, started := false, backRun := 0,
                                     joined := true }).ctxMembership b true

/-- Context `c`, whose record was `b`, stops (R226): groups left, CPB and DPB emptied, STOPPED. -/
def State.ctxStopBy (s : State) (c : Nat) (b : List Byte) : State :=
  let x := s.ctx c
  if x.st = 0 then s
  else (s.setCtx c { x with st := 0, held := [], au := none, cpb := [], dpb := [], ref := none }).ctxLeave c b

/-- DEC_CTRL 0 (R226). -/
def State.ctxStop (s : State) (c : Nat) : State := s.ctxStopBy c ((s.ctxBody c).getD [])

/-- DEC_CTRL 2 (R226): CPB and DPB emptied, WAIT_IRAP in every case; no group is joined by it. -/
def State.ctxDiscard (s : State) (c : Nat) : State :=
  s.setCtx c { (s.ctx c).waitIrap with cpb := [], dpb := [], au := none, ref := none }

/-- What takes effect at a picture boundary (R226). -/
def State.ctxAct (s : State) (c : Nat) (act : CtxAct) : State :=
  match act with
  | .ctrl 0 => s.ctxStop c
  | .ctrl 1 => s.ctxStart c
  | .ctrl _ => s.ctxDiscard c
  | .replace old start =>
    let t := s.ctxStopBy c old
    if start then t.ctxStart c else t

/-- A core decodes a picture of context `c`. -/
def State.ctxBusy (s : State) (c : Nat) : Bool :=
  (List.range 8).any fun k => match (s.core k).job with
    | some j => j.1 == c
    | none => false

/-- An act on context `c` (R226): at its next picture boundary, which is now unless a core decodes a picture of it. -/
def State.ctxSoon (s : State) (c : Nat) (act : CtxAct) : State :=
  if s.ctxBusy c then s.setCtx c { s.ctx c with ctrl := (s.ctx c).ctrl ++ [act] } else s.ctxAct c act

/-- DEC_CTRL of context `c`. -/
def State.decCtrl (s : State) (c act : Nat) : State := s.ctxSoon c (.ctrl act)

/-- Context `c` has gone: it stops, and a core that decodes a picture of it gives the picture up. -/
def State.ctxGone (s : State) (c : Nat) : State :=
  let s1 := s.ctxStop c
  ((List.range 8).foldl (fun t k => match (t.core k).job with
    | some j => if j.1 = c then (t.setCore k {}).setBit (Reg.DEC_CORE_STATUS k) 31 false else t
    | none => t) s1).setCtx c {}

/-- REPORT_REPEAT (R219): the oldest state-change report is sent a second time. -/
def execReportRepeat (s : State) : Res :=
  match s.net.reports with
  | r :: t => .next (({ s with net := { s.net with reports := t } }).sendReport r)
  | [] => .next s

/-- The groups of ETHn: one report for each context that has joined there (R219, R220). -/
def State.portReports (s : State) (n : Nat) : List Report :=
  (List.range 256).filterMap fun c => match s.ctxBody c with
    | some b => if (s.ctx c).joined ∧ (ctxPorts b).contains n ∧ ctxMulticast b then some (ctxReport b n true) else none
    | none => none

/-- CLK_F cycles for which an older querier governs a port after its query: 260 s, twice the default query interval of
125 s and a response interval of 10 s (RFC 3376, RFC 3810; PRESUMED, assumption 56). -/
def oldQuerierCycles : Nat := 260000 * cyclesPerMs

/-- IGMP_QUERY (R215, R219): a query on ETHn by IGMP, or by MLD where `ip6`, general where `group` is none, is answered.
`old`: an IGMPv2 or MLDv1 query, which puts the port in its compatibility mode. -/
def execIgmpQuery (n : Nat) (q : MemberQuery) (s : State) : Res :=
  let l := (s.portReports n).filter fun r => r.ip6 == q.ip6 && match q.group with
    | some g => r.group == g
    | none => true
  let s1 : State := if q.old then { s with net := { s.net with
      oldQuery := Cells.put (fun _ => 0) s.net.oldQuery (queryKey n q.ip6) (s.uptime + oldQuerierCycles) } } else s
  .next (if s.ready ∧ s.ethUp n then l.foldl State.sendReport s1 else s)

/-- ETHn reports that its link is down. -/
def State.portDown (s : State) (n : Nat) : State :=
  if s.bit (Reg.ETH_PORT_STATUS n) 31 then (s.setReg (Reg.ETH_PORT_STATUS n) 0).raise .linkDown else s

/-- LINK_DOWN (R161, R220): block lock or FEC alignment of ETHn has been lost for 1 ms, or ETH_REFCLK is
absent, which takes every port down and clears ETH_REF_OK. -/
def execLinkDown (l : EthLoss) (s : State) : Res :=
  if !s.ready then .next s
  else match l with
    | .lock n => .next (if n < 8 then s.portDown n else s)
    | .ref => .next ((List.range 8).foldl State.portDown (s.setFld Reg.CLK_STATUS 29 29 0))

/-- LINK_UP (R220): the link of an enabled port returns; unsolicited reports for all groups of the port. A link that
runs shows that ETH_REFCLK has edges (R161, assumption 53). -/
def execLinkUp (n : Nat) (s : State) : Res :=
  if n < 8 ∧ s.ready ∧ s.bit (Reg.ETH_PORT_CTRL n) 31 ∧ !s.bit (Reg.ETH_PORT_STATUS n) 31 then
    let mode := s.fld (Reg.ETH_PORT_CTRL n) 30 29
    let w := 2 ^ 31 + 2 ^ 30 + (if mode = 1 then 2 ^ 29 else 0) + (if mode = 2 then 2 ^ 24 else 2 * 2 ^ 24)
    let s1 := (s.setReg (Reg.ETH_PORT_STATUS n) (w32 w)).setFld Reg.CLK_STATUS 29 29 1
    .next ((s1.portReports n).foldl State.sendReport s1)
  else .next s

/-! ### Depacketising (R227 to R230) -/

/-- Add `n` to counter `k` of a context: CTX_CNT words saturate at 32 bits, TS_OLD and TS_FUTURE at 16 (R249's
registers). -/
def DecCtx.count (x : DecCtx) (k n : Nat) : DecCtx :=
  { x with cnt := x.cnt.modify k fun v => satN (if k < 7 then 32 else 16) (v + n) }

/-- What a payload says of the NAL units it carries (R229; the payload headers of RFC 6184 and RFC 7798): their types,
whether it opens or continues a fragment that is not its last, whether it continues a fragment; none: unsupported. -/
structure NalInfo where
  types : List Nat
  opens : Bool
  continues : Bool
  deriving DecidableEq, Repr

/-- The NAL unit types of an aggregation packet from its units' 16-bit lengths; `fuel` bounds the units. -/
def aggTypes (hevc : Bool) : Nat → List Byte → List Nat
  | 0, _ => []
  | fuel + 1, l =>
    if l.length < 3 then []
    else
      let n := beNat (l.take 2)
      let h := leAt l 2 1
      (if hevc then h / 2 % 64 else h % 32) :: aggTypes hevc fuel (l.drop (2 + n))

/-- R229 on a payload. -/
def nalInfo (hevc : Bool) (p : List Byte) : Option NalInfo :=
  let h := leAt p 0 1
  if hevc then
    let t := h / 2 % 64
    if p.length < 2 then none
    else if t ≤ 47 then some ⟨[t], false, false⟩
    else if t = 48 then some ⟨aggTypes true p.length (p.drop 2), false, false⟩
    else if t = 49 ∧ 3 ≤ p.length then
      let f := leAt p 2 1
      some ⟨[f % 64], !f.testBit 6, !f.testBit 7⟩
    else none
  else
    let t := h % 32
    if p.length < 1 then none
    else if 1 ≤ t ∧ t ≤ 23 then some ⟨[t], false, false⟩
    else if t = 24 then some ⟨aggTypes false p.length (p.drop 1), false, false⟩
    else if t = 28 ∧ 2 ≤ p.length then
      let f := leAt p 1 1
      some ⟨[f % 32], !f.testBit 6, !f.testBit 7⟩
    else none

/-- An IRAP (HEVC types 16 to 23) or IDR (H.264 type 5) NAL unit type. -/
def nalIrap (hevc : Bool) (t : Nat) : Bool := if hevc then decide (16 ≤ t) && decide (t ≤ 23) else t == 5

/-- The extension formula (R266) on the Almanac copy: full TAI ns of a TS32. -/
def State.extend (s : State) (t : Word) : Int :=
  ((s.pair Reg.ETH_ALM_TAI_LO).toNat : Int) + tsDiff (s.reg Reg.ETH_ALM_TS32) t

/-- Full TAI ns of a stream's capture time (R266): one of the PTP domain from an earlier time epoch by the last Almanac of
its own epoch, any other by the Almanac of now, as a step moves the device's own with it (R440). -/
def State.extendCap (s : State) (x : StreamSt) : Int :=
  match s.tim.past.find? fun p => p.epoch % 256 == x.capEpoch % 256 with
  | some p => if x.ptp && x.capEpoch % 256 != s.fld Reg.TIM_EPOCH 7 0 then (p.tai.toNat : Int) + tsDiff p.ts x.cap else s.extend x.cap
  | none => s.extend x.cap

/-- RTP_PTP (R232): capture TS32, nanoseconds before arrival, a timestamp more than 90 ticks after arrival. -/
def State.rtpCapture (s : State) (ta rtp : Word) : Word × Int × Bool :=
  let rtpA := BitVec.ofInt 32 (s.extend ta * 90000 / 1000000000)
  let dt := (rtpA - rtp).toNat
  if 2 ^ 31 ≤ dt then (ta, 0, decide (90 < 2 ^ 32 - dt))
  else
    let ns := (dt * 1000000000 + 45000) / 90000
    (ta - w32 ns, ns, false)

/-- RTCP_SR (R233): capture TAI from the last report; TS32 and nanoseconds before arrival from the Almanac pair. -/
def State.srCapture (s : State) (sr : Int × Word) (ta rtp : Word) : Word × Int :=
  let tai := sr.1 + ((rtp - sr.2).toInt * 1000000000 + 45000) / 90000
  let before := s.extend ta - tai
  if before < 0 then (ta, 0) else (ta - BitVec.ofInt 32 before, before)

/-- The access unit with its capture time (R231, R234); under RTCP_SR by the last report, where one has arrived
(R233). -/
def State.auCapture (s : State) (tbase : Nat) (x : DecCtx) (a : AccessUnit) : DecCtx × AccessUnit :=
  let e := s.fld Reg.TIM_EPOCH 7 0
  match tbase with
  | 0 => (x, { a with cap := a.arrive, epoch := e })
  | 1 =>
    let r := s.rtpCapture a.arrive a.rtp
    (if r.2.2 then x.count 8 1 else x, { a with cap := r.1, epoch := e, old := decide (2000000000 < r.2.1) })
  | _ => match x.sr with
    | some r =>
      let k := s.srCapture r a.arrive a.rtp
      (x, { a with cap := k.1, epoch := e, old := decide ((2000000000 : Int) < k.2), untimed := false })
    | none => (x, { a with cap := a.arrive, epoch := e, untimed := true })

/-- Bytes of the CPB of a context: the window less 1 MiB and DPB_PICS + 1 picture buffers (R222). -/
def cpbBytes (b : List Byte) (x : StreamSt) : Nat :=
  bitsN (leAt b 12 4) 27 18 * 2 ^ 20 - 2 ^ 20
    - (leAt b 7 1 % 16 + 2) * (cdiv x.width 64 * 64 * (cdiv x.height 64 * 64) * Fmt.bits x.format / 8)

/-- CPB bytes in use. -/
def DecCtx.cpbUsed (x : DecCtx) : Nat := x.cpb.foldl (fun n a => n + a.bytes) 0

/-- The access unit in assembly ends (R230): to the CPB, or discarded before the first IRAP, in a skip, or for want of
space. -/
def State.auEnd (s : State) (b : List Byte) (x : DecCtx) : DecCtx :=
  match x.au with
  | none => x
  | some a0 =>
    let y := { x with au := none }
    let a1 := { a0 with done := s.ts, damaged := a0.damaged || a0.frag.isSome, frag := none }
    if (y.st = 1 ∨ y.skip) ∧ !a1.irap then y
    else if cpbBytes b (s.stream (leAt b 0 2)) < y.cpbUsed + a1.bytes then { (y.count 6 1) with skip := true }
    else
      let r := s.auCapture (ctxTbase b) y a1
      let st := if r.1.st = 1 then (if ctxTbase b = 2 ∧ r.1.sr = none then 4 else 2) else r.1.st
      { r.1 with cpb := r.1.cpb ++ [r.2], skip := false, st := st }

/-- Whole NAL units of `types` in `n` payload bytes join an access unit. -/
def AccessUnit.add (a : AccessUnit) (hevc : Bool) (types : List Nat) (n : Nat) : AccessUnit :=
  { a with bytes := a.bytes + n, irap := a.irap || types.any (nalIrap hevc), cra := a.cra || (hevc && types.contains 21),
           rasl := a.rasl || (hevc && (types.contains 8 || types.contains 9)) }

/-- A payload of `n` bytes joins the access unit in assembly (R229, R230). A fragmented NAL unit joins with its last
fragment; one with a fragment missing is dropped, and the access unit is DAMAGED. -/
def AccessUnit.take (a : AccessUnit) (hevc : Bool) (i : NalInfo) (n : Nat) : AccessUnit :=
  match i.continues, a.frag with
  | false, open' =>
    let b := { a with frag := none, damaged := a.damaged || open'.isSome }
    if i.opens then { b with frag := some (n, i.types.headD 0) } else b.add hevc i.types n
  | true, none => { a with damaged := true }
  | true, some f =>
    if i.opens then { a with frag := some (f.1 + n, f.2) } else AccessUnit.add { a with frag := none } hevc [f.2] (f.1 + n)

/-- A packet accepted in order (R228 to R230). -/
def State.rtpAccept (s : State) (b : List Byte) (x : DecCtx) (p : HeldRtp) : DecCtx :=
  let hevc := (leAt b 5 1).testBit 0
  let x0 := x.count 0 1
  let x1 := match x0.au with
    | some a => if a.rtp ≠ p.rtp then s.auEnd b { x0 with au := some (if x.afterGap then { a with damaged := true } else a) } else x0
    | none => x0
  let a : AccessUnit := match x1.au with
    | some a => a
    | none => { rtp := p.rtp, arrive := p.arrive, bytes := 0, damaged := false, irap := false, cra := false, rasl := false,
                frag := none }
  let a1 := if x.afterGap then { a with damaged := true, frag := none } else a
  let x2 := match nalInfo hevc p.payload with
    | none => { (x1.count 4 1) with au := some { a1 with damaged := true, frag := none }, afterGap := false }
    | some i => { x1 with afterGap := false, au := some (a1.take hevc i p.payload.length) }
  let x3 := { x2 with next := some ((p.seq + 1) % 65536) }
  if p.marker then s.auEnd b x3 else x3

/-- Held packets that are now in order are accepted; `fuel` bounds them. -/
def State.rtpDrain (s : State) (b : List Byte) : Nat → DecCtx → DecCtx
  | 0, x => x
  | fuel + 1, x =>
    match x.held.find? fun h => some h.seq == x.next with
    | some h => s.rtpDrain b fuel (s.rtpAccept b { x with held := x.held.filter fun k => k.seq != h.seq } h)
    | none => x

/-- The held packet next after the gap: the one closest ahead of the expected number. -/
def nextHeld (n : Nat) (l : List HeldRtp) : Option HeldRtp :=
  l.foldl (fun a h => match a with
    | none => some h
    | some k => if (h.seq + 65536 - n) % 65536 < (k.seq + 65536 - n) % 65536 then some h else a) none

/-- A gap of context `c` is declared lost (R228): LOST counts, RTP_LOSS sets, the access unit is DAMAGED, held packets
that follow are accepted. -/
def State.gapLost (s : State) (b : List Byte) (c : Nat) : State :=
  let x := s.ctx c
  match x.next with
  | none => s
  | some n => match nextHeld n x.held with
    | none => s
    | some h =>
      let y := { (x.count 1 ((h.seq + 65536 - n) % 65536)) with
        next := some h.seq, afterGap := true,
        au := x.au.map fun a => { a with damaged := true } }
      (s.setCtx c (s.rtpDrain b x.held.length y)).raise .rtpLoss

/-- A number at most 1,024 before `e`, or less than 4,096 after it (R228). -/
def nearSeq (e q : Nat) : Bool := decide ((e + 65536 - q) % 65536 ≤ 1024) || decide ((q + 65536 - e) % 65536 < 4096)

/-- A packet of the locked SSRC with its sequence number (R228). -/
def State.rtpOrder (s : State) (b : List Byte) (c : Nat) (p : HeldRtp) : State :=
  let x := s.ctx c
  let d := match x.next with
    | some n => (p.seq + 65536 - n) % 65536
    | none => 0
  let e := match x.next with
    | some n => n
    | none => p.seq
  let note := fun (y : DecCtx) => { y with recent := p.seq :: y.recent.filter (nearSeq e) }
  if d = 0 then
    let y := s.rtpAccept b (note x) p
    s.setCtx c (s.rtpDrain b y.held.length y)
  else if d < 4096 then
    if x.held.any fun h => h.seq == p.seq then s.setCtx c (x.count 3 1)
    else
      let s1 := s.setCtx c (note { x with held := x.held ++ [p] })
      if leAt b 7 1 / 16 = 0 then s1.gapLost b c else s1
  else if d < 61440 then
    let y := (x.count 6 1).waitIrap
    s.setCtx c (s.rtpAccept b { note y with held := [], au := none, afterGap := false } p)
  else if x.recent.contains p.seq && decide (65536 - d ≤ 1024) then s.setCtx c (x.count 3 1)
  else s.setCtx c (x.count 2 1)

/-- GAP_LOST (R228): REORDER × 10 ms have passed since the first packet after a gap of context `c` arrived. -/
def execGapLost (c : Nat) (s : State) : Res :=
  match s.ctxBody c with
  | some b => if (s.ctx c).st = 0 then .next s else .next (s.gapLost b c)
  | none => .next s

/-- A context's WINDOW, from its DECODER_CONTEXT body, is laid out by the decoder: context state, pictures and coded
pictures in a form that the spec does not give (R222). -/
def State.layContext (s : State) (b : List Byte) : State := s.layOut (ctxRange b).1 (ctxRange b).2

/-- A datagram matched to context `c` (R224, R227). -/
def State.ctxPacket (s : State) (c : Nat) (b : List Byte) (k : EthContent) : State :=
  let x := s.ctx c
  if x.st = 0 then s
  else match k with
    | .rtp ver pt ssrc seq ts marker payload =>
      if ver ≠ 2 ∨ pt ≠ leAt b 6 1 then s.setCtx c (x.count 4 1)
      else match x.ssrc with
        | some l =>
          if l ≠ ssrc then s.setCtx c { (x.count 5 1) with other := some ssrc }
          else ((s.layContext b).setCtx c { x with other := none }).rtpOrder b c ⟨seq % 65536, ts, marker, payload, s.ts⟩
        | none => ((s.layContext b).setCtx c { x with ssrc := some ssrc }).rtpOrder b c ⟨seq % 65536, ts, marker, payload, s.ts⟩
    | _ => s.setCtx c (x.count 4 1)

/-- SSRC_SWITCH (R227): the locked SSRC has been silent for 1 s while another sends; the context locks to that one. -/
def execSsrcSwitch (c : Nat) (s : State) : Res :=
  let x := s.ctx c
  match x.other with
  | some o =>
    if x.st = 0 then .next s
    else .next (s.setCtx c { x.waitIrap with ssrc := some o, other := none, next := none, recent := [], held := [],
                                              au := none, afterGap := false, ref := none })
  | none => .next s

/-- RTCP_SR (R233): a sender report of the locked SSRC at UDP_PORT + 1. -/
def execRtcpSr (c : Nat) (ssrc : Word) (ntpSec ntpFrac : Nat) (rtp : Word) (s : State) : Res :=
  match s.ctxBody c with
  | some b =>
    let x := s.ctx c
    if ctxTbase b = 2 ∧ x.st ≠ 0 ∧ x.ssrc = some ssrc then
      let tai := ((ntpSec : Int) - 2208988800 + s.tim.utc) * 1000000000 + ((ntpFrac * 1000000000 + 2 ^ 31) / 2 ^ 32 : Nat)
      let y := { x with sr := some (tai, rtp), st := if x.st = 4 then 2 else x.st }
      .next (s.setCtx c { y with cpb := y.cpb.map fun a => if a.untimed then (s.auCapture 2 y a).2 else a })
    else .next s
  | none => .next s

/-! ### Frames (R217, R224) -/

/-- The contexts a datagram on ETHn belongs to (R224). -/
def State.matches (s : State) (n : Nat) (f : EthFrame) : List (Nat × List Byte) :=
  (List.range 256).filterMap fun c => match s.ctxBody c with
    | some b =>
      let mode := leAt b 5 1
      if (ctxPorts b).contains n ∧ leAt b 8 2 = f.vlan ∧ mode.testBit 3 = f.ipv6 ∧ slice b 16 16 = f.dst
          ∧ (mode.testBit 4 = false ∨ slice b 32 16 = f.src) ∧ leAt b 2 2 = f.udp then some (c, b) else none
    | none => none

end Sys2Proof.Machine
end

