-- ==== Sys2Proof/Machine/Prescale.lean ====
section
/-!
DEFINITION. Machine/Prescale.lean: the pool of ingest prescalers (R382, R384). The levels themselves are `Img.pyramid`,
formed of the whole picture at its flip.
-/
namespace Sys2Proof.Machine

/-- The 40 prescalers. -/
abbrev prescalers : List Nat := List.range 40

/-- Prescaler `p` is working a band: BUSY. -/
def State.preBusy (s : State) (p : Nat) : Bool := decide (s.uptime < Cells.get (fun _ => 0) s.pre.busy p)

/-- The lowest-numbered free prescaler of the pool (R384). -/
def State.freePrescaler (s : State) : Option Nat := prescalers.find? fun p => !s.preBusy p && !s.pre.out.contains p

/-- Words LO and HI of SCL.PRE_BUSY. -/
def State.preBusyWord (s : State) (hi : Bool) : Word :=
  w32 ((List.range (if hi then 8 else 32)).foldl (fun n k =>
    if s.preBusy (if hi then 32 + k else k) then n + 2 ^ k else n) 0)

/-- CLK_F cycles that a band of `lines` base lines of `w` pixels takes: 4 base pixels per CLK_C cycle (R384). -/
def bandCycles (w lines : Nat) : Nat := cdiv (w * lines) 8

/-- The prescaler of the pool that is free first, the lowest-numbered of several. -/
def State.nextPrescaler (s : State) : Option Nat :=
  let freeAt := fun p => max s.uptime (Cells.get (fun _ => 0) s.pre.busy p)
  (prescalers.filter fun p => !s.pre.out.contains p).foldl (fun (a : Option Nat) p => match a with
    | some q => if freeAt p < freeAt q then some p else some q
    | none => some p) none

/-- All bands of a `w` × `h` frame that is written at once, one after another as prescalers become free: a decoded
picture at its output (R384). -/
def State.frameBands (s : State) (w h : Nat) : State :=
  (List.range (cdiv h 8)).foldl (fun t b => match t.nextPrescaler with
    | some p =>
      let from' := max t.uptime (Cells.get (fun _ => 0) t.pre.busy p)
      { t with pre := { t.pre with busy := Cells.put (fun _ => 0) t.pre.busy p (from' + bandCycles w (min 8 (h - 8 * b))) } }
    | none => t) s

/-- PRESCALER_BAND (R384): band `b` of 8 base lines of the frame that stream `i` writes goes to the lowest-numbered free
prescaler. -/
def execPrescalerBand (i b : Nat) (s : State) : Res :=
  let x := s.stream i
  match x.cur, s.freePrescaler with
  | some f, some p =>
    if x.pyramid ∧ !f.dropped ∧ 8 * b < f.h then
      let lines := min 8 (f.h - 8 * b)
      .next { s with pre := { s.pre with busy := Cells.put (fun _ => 0) s.pre.busy p (s.uptime + bandCycles f.w lines) } }
    else .next s
  | _, _ => .next s

end Sys2Proof.Machine
end

