-- ==== Sys2Proof/Machine/Events.lean ====
section
/-!
DEFINITION. Machine/Events.lean: the host event rings (R154 to R157).
-/
namespace Sys2Proof.Machine

/-- Queue `q` beside its registers. -/
def State.queue (s : State) (q : Nat) : QueueSt := Cells.get (fun _ => {}) s.cmd.queues q

/-- Replace queue `q`. -/
def State.setQueue (s : State) (q : Nat) (x : QueueSt) : State :=
  { s with cmd := { s.cmd with queues := Cells.put (fun _ => {}) s.cmd.queues q x } }

/-- STATE of queue `q`: 0 STOPPED, 1 RUNNING, 2 WAITING, 3 HALTED, 4 HELD (R151). -/
def State.qState (s : State) (q : Nat) : Nat := s.fld (Reg.CMD_Q_STATUS q) 31 29

/-- Set STATE of queue `q`. -/
def State.setQState (s : State) (q v : Nat) : State := s.setFld (Reg.CMD_Q_STATUS q) 31 29 v

/-- Records of a ring register's SIZE (R154). -/
def ringSize (w : Word) : Nat := 2 ^ wbits w 31 28

/-- DRAM address of slot `i` of a ring register. -/
def ringSlot (w : Word) (i : Nat) : Nat := wbits w 25 0 * 4096 + i % ringSize w * 32

/-- An event record (R154) but for EVSEQ: KIND, CODE, TAG, OP, CLOCK, OBJECT, TS32, INDEX, DATA0, DATA1. -/
structure EvRec where
  kind : Nat
  code : Nat := 0
  tag : Nat := 0
  op : Nat := 0
  clock : Nat := 0xFF
  object : Nat := 0
  ts : Word
  index : Nat := 0
  data0 : Nat := 0
  data1 : Nat := 0
  deriving DecidableEq, Repr

/-- Its 32 bytes in slot `wr` (R154). -/
def EvRec.bytes (r : EvRec) (wr : Nat) : List Byte :=
  leBytes 1 r.kind ++ leBytes 1 r.code ++ leBytes 2 r.tag ++ leBytes 1 r.op ++ leBytes 1 r.clock ++ leBytes 2 r.object
    ++ leBytes 4 r.ts.toNat ++ leBytes 2 r.index ++ leBytes 1 wr ++ leBytes 1 0 ++ leBytes 8 r.data0 ++ leBytes 8 r.data1

/-- Every slot of the ring that a ring register describes lies in host-accessible DRAM (R77, R132). -/
def State.ringOk (s : State) (w : Word) : Bool := s.hostRange (wbits w 25 0 * 4096) (32 * ringSize w)

/-- Write a record into ring `q` (R155 to R157): a full ring drops it, LOST counts and a RUNNING queue waits; a record
into an empty ring sends vector `q`. A ring outside host-accessible DRAM takes no record (DEDUCED, assumption 20). -/
def State.evWrite (s : State) (q : Nat) (r : EvRec) : State :=
  let ring := s.reg (Reg.CMD_EV_RING q)
  let wr := s.fld (Reg.CMD_EV_PTR q) 31 16
  let rd := s.fld (Reg.CMD_EV_PTR q) 15 0
  if !s.ringOk ring then s
  else if ringSize ring ≤ (wr + 65536 - rd) % 65536 then
    let s1 := (s.addSat (Reg.CMD_Q_CTRL q) 7 0 1).raise .eventRingFull
    let s2 := s1.setQueue q { s1.queue q with ringFull := true }
    if s2.qState q = 1 then s2.setQState q 2 else s2
  else
    let s1 := (s.dramStore (ringSlot ring wr) (r.bytes wr)).setFld (Reg.CMD_EV_PTR q) 31 16 (wr + 1)
    if wr = rd then s1.sendVector q else s1

end Sys2Proof.Machine
end

