-- ==== Sys2Proof/Machine/QueueBase.lean ====
section
/-!
DEFINITION. Machine/QueueBase.lean: fences (R147, R148) and how an accepted command ends (R49, R154, R155).
-/
namespace Sys2Proof.Machine

/-- A fence signal of value `v` (R147): the fence takes the larger value. -/
def State.signalFence (s : State) (f : Nat) (v : DWord) : State :=
  if (s.pair (Reg.CMD_FENCE_LO f)).toNat < v.toNat then s.setPair (Reg.CMD_FENCE_LO f) v else s

/-- The record of an event of a command (R154). -/
def evRecord (kind code tag op obj clock index : Nat) (ts : Word) : EvRec :=
  { kind := kind, code := code, tag := tag, op := op, clock := clock, object := obj, ts := ts, index := index }

/-- The event record of command `r`, number `index` of queue `q`, now: only Q0 to Q15 have event rings. `always`:
whatever its EVENT flag holds (R155). -/
def State.cmdEvent (s : State) (q index kind code : Nat) (always : Bool) (r : CmdRec) : State :=
  if q < 16 ∧ (always || r.flags.testBit 0) = true then
    s.evWrite q (evRecord kind code r.tag r.op r.obj 0xFF index s.ts)
  else s

/-- The accepted command with number `seq` has taken effect, or was discarded: COMMIT-mode signals that waited for it
alone are given (R148); a signal that is given counts as having taken effect itself. `fuel` bounds the chain. -/
def State.tookEffect (s : State) : Nat → List Nat → State
  | 0, _ => s
  | _, [] => s
  | fuel + 1, seq :: rest =>
    let less := s.cmd.fences.map fun p => { p with after := p.after.filter (· != seq) }
    let ripe := less.filter fun p => p.after.isEmpty
    let s1 := { s with cmd := { s.cmd with fences := less.filter fun p => !p.after.isEmpty } }
    let s2 := ripe.foldl (fun t p => (t.signalFence p.fence p.value).cmdEvent p.queue p.index 0 0 false p.cmd) s1
    s2.tookEffect fuel (rest ++ ripe.map (·.seq))

/-- One accepted command has taken effect. -/
def State.effectDone (s : State) (seq : Nat) : State := s.tookEffect (s.cmd.fences.length + 2) [seq]

/-- A queue that waited for room among the 1,024 held commands goes on (R135). -/
def State.wakeFull (s : State) : State :=
  (List.range 16).foldl (fun t q =>
    if t.qState q = 2 ∧ (t.queue q).wait = .none ∧ !(t.queue q).ringFull then t.setQState q 1 else t) s

/-- A held change ends with an event record where it came from a queue: `kind` 0 DONE, given where EVENT is set, 2
DISCARDED with OBJECT_GONE (R49, R155); refusals of internal queues go to the MRAM history. Parts of one
command share its number: the last part to end ends it, `rest` being parts that end with this one. -/
def State.endHeld (s : State) (rest : List Held) (h : Held) (kind : Nat) (ts : Word) : State :=
  let gone := kind == 2
  let code := if gone then 7 else 0
  let s1 := match h.origin with
    | .queue q index op tag obj event =>
      let r := evRecord kind code tag op obj h.clock index ts
      if gone then (s.evWrite q r).raise .objectGone else if event then s.evWrite q r else s
    | .internal _ _ => if gone then s.history 0x0B 7 [] else s
    | .direct => s
  if (rest ++ s.cmd.held).any fun x => x.seq == h.seq then s else (s1.effectDone h.seq).wakeFull

/-- The held changes of a list, already taken out, end as discarded (R49). -/
def State.endGone (s : State) : List Held → State
  | [] => s
  | h :: rest => (s.endHeld rest h 2 s.ts).endGone rest

/-- Held changes addressed to an object of the list are discarded (R49). -/
def State.discardGone (s : State) (gone : List (Nat × Nat)) : State :=
  let out := s.cmd.held.filter fun h => gone.contains h.object
  let s1 := { s with cmd := { s.cmd with held := s.cmd.held.filter fun h => !gone.contains h.object } }
  s1.endGone out

/-- Commands among the held changes (R135): direct writes do not count, nor does what another member holds, and parts of
one command count once. -/
def State.heldCommands (s : State) : Nat :=
  (((s.cmd.held.filter fun h => h.origin != .direct && h.change != .remote).map (·.seq)).eraseDups).length

/-- The DEC_CTRL commands that waited for a picture boundary of context `c` have taken effect, or, `gone`, are discarded
with it (R138, R226, R49). -/
def State.decEnd (s : State) (c : Nat) (gone : Bool) : State :=
  let out := s.cmd.decs.filter fun p => p.cmd.obj == c
  let s1 := { s with cmd := { s.cmd with decs := s.cmd.decs.filter fun p => p.cmd.obj != c } }
  out.foldl (fun t p =>
    let t1 := if !gone then t.cmdEvent p.queue p.index 0 0 false p.cmd
      else if p.queue < 16 then (t.cmdEvent p.queue p.index 2 7 true p.cmd).raise .objectGone
      else t.history 0x0B 7 []
    t1.effectDone p.seq) s1

end Sys2Proof.Machine
end

