-- ==== Sys2Proof/Machine/Dec.lean ====
section
/-!
DEFINITION. Machine/Dec.lean: the decoder cores and what becomes of a picture (R237 to R249).
-/
namespace Sys2Proof.Machine

/-! ### Starting a picture (R239) -/

/-- A core takes new pictures: it is idle and not out of service by CORE_DISABLE or the health self-test. -/
def State.coreFree (s : State) (k : Nat) : Bool :=
  decide (k < 8) && (s.core k).job.isNone && !s.bit Reg.DEC_CORE_DISABLE k && !s.bit (Reg.DEC_CORE_STATUS k) 30
    && !s.bit (Reg.DEC_CORE_STATUS k) 29

/-- The CPB as the decoder takes it: RASL pictures behind a CRA that began a run are passed over (R246). -/
def DecCtx.ahead (x : DecCtx) : List AccessUnit := if x.dropRasl then x.cpb.dropWhile (·.rasl) else x.cpb

/-- The context whose next access unit completed earliest, TS32 compared wrap-safely (R239). -/
def State.nextContext (s : State) : Option (Nat × AccessUnit × List AccessUnit) :=
  s.net.ctx.foldl (fun best e =>
    if e.2.st = 0 ∨ s.ctxBusy e.1 then best
    else match e.2.ahead with
      | [] => best
      | a :: t => match best with
        | some b => if tsDiff b.2.1.done a.done < 0 then some (e.1, a, t) else best
        | none => some (e.1, a, t)) none

/-- PICTURE_DECODE_START (R239): free core `k` takes the next picture. -/
def execPictureDecodeStart (k : Nat) (s : State) : Res :=
  if !s.coreFree k then .next s
  else match s.nextContext with
    | some (c, a, t) =>
      let s1 := (s.setCtx c { s.ctx c with cpb := t }).setCore k { job := some (c, a, s.ts), body := (s.ctxBody c).getD [] }
      .next ((s1.setBit (Reg.DEC_CORE_STATUS k) 31 true).setFld (Reg.DEC_CORE_STATUS k) 7 0 c)
    | none => .next s

/-! ### Cause and chain (R244 to R247) -/

/-- The bitstreams that R237 supports, for a context whose CODEC is HEVC or H.264. -/
def seqSupported (q : SeqInfo) (hevc : Bool) : Bool :=
  !q.otherFeature && decide (q.level ≤ 51) && decide (q.codedW ≤ 4096) &&
    if hevc then !q.highTier && !q.interlaced && !q.mono && decide (q.codedW * q.codedH ≤ 8912896)
      && ((q.profile == .hevcMain && q.depth == 8) || (q.profile == .hevcMain10 && decide (8 ≤ q.depth) && decide (q.depth ≤ 10)))
    else !q.interlaced && decide (q.codedH ≤ 2304) && q.depth == 8
      && (q.profile == .constrainedBaseline || q.profile == .main || q.profile == .high)

/-- UNSUPPORTED (R238): a feature not supported, or more DPB pictures than DPB_PICS. -/
def seqRefused (q : SeqInfo) (b : List Byte) : Bool :=
  !seqSupported q ((leAt b 5 1).testBit 0) || decide (leAt b 7 1 % 16 + 1 < q.dpb)

/-- Format code of the picture: YCbCr 4:2:0, a 4:0:0 picture with chroma at mid-level (R237). -/
def seqFormat (q : SeqInfo) : Nat := if q.depth = 8 then 0x09 else 0x0A

/-- The cropped size, the bit depth and the chroma format match the stream's entry (R238); no surface format has 9 bits
(R329). -/
def seqFits (q : SeqInfo) (x : StreamSt) : Bool :=
  q.w == x.width && q.h == x.height && seqFormat q == x.format && q.depth == Fmt.depth x.format

/-- A core's access breaks its context's window (R104, R242). -/
def accessOutside (w : Nat × Nat) (e : CoreAccess) : Bool := decide (e.addr < w.1) || decide (w.2 < e.addr + e.len)

/-- One access of a core in a window, with the reference pictures whose samples have read as poison so far (R242): a
write makes its lines good again (R297), one outside the window is suppressed. -/
def State.coreAccess (w : Nat × Nat) (t : State × List Nat) (e : CoreAccess) : State × List Nat :=
  if accessOutside w e then t
  else if e.write then (t.1.freshen e.addr (e.addr + e.len), t.2)
  else match e.ref with
    | some r => if t.1.poisonedRange (e.addr, e.addr + e.len) then (t.1, r :: t.2) else t
    | none => t

/-- The accesses of a picture in their order: the state after them, and the reference pictures that read as poison. -/
def State.coreAccesses (s : State) (w : Nat × Nat) (d : Decoded) : State × List Nat :=
  d.accesses.foldl (State.coreAccess w) (s, [])

/-- Reference pictures that a core reads outside the window: such a read returns poison (R242). -/
def strayRefs (w : Nat × Nat) (d : Decoded) : List Nat :=
  d.accesses.filterMap fun e => if !e.write && accessOutside w e then e.ref else none

/-- A reference picture that takes part in prediction: in the DPB and not read as poison, for which the null reference
stands (R242, R245; for a read outside the window DEDUCED, assumption 72). -/
def DecCtx.refPicture (x : DecCtx) (bad : List Nat) (no : Nat) : Option Picture :=
  if bad.contains no then none else x.dpb.find? fun p => p.no == no

/-- Cause of a picture (R238, R241 to R244, R246, R248). Where several hold: UNSUPPORTED, FORMAT, TIMEOUT, BITSTREAM,
MISSING_REF, MPU, DEPENDENT, in this order (DESIGN CHOICE, assumption 18, but TIMEOUT before a poisoned reference is
R248). -/
def pictureCause (x : DecCtx) (b : List Byte) (st : StreamSt) (a : AccessUnit) (d : Decoded) (bad : List Nat) (timeout : Bool) : Nat :=
  let absent := d.refs.any fun r => !(x.dpb.any fun p => p.no == r)
  let dep := d.refs.any fun r => x.dpb.any fun p => p.no == r && spreads p.cause
  if seqRefused d.seq b then 5
  else if !seqFits d.seq st then 6
  else if timeout then 3
  else if a.damaged || d.badNal then 1
  else if absent || !bad.isEmpty then 2
  else if d.accesses.any (accessOutside (ctxRange b)) then 4
  else if dep then 7 else 0

/-- The first CORRUPT picture of a chain of context `c` (R247). -/
def State.chainStart (s : State) (c cause no : Nat) : State :=
  let s1 := (s.setReg Reg.DEC_LAST_FAULT (w32 (c * 2 ^ 24 + cause * 2 ^ 16 + no % 65536))).raise .corrupt
  if cause = 2 then s1.raise .missingRef else s1

/-- A picture of context `c` carries `cause`: RECOVERING, and the chain in decode order (R246, R247); a context that
leaves RECOVERING under RTCP_SR before a report is NO_TIME (R225, R233). A picture that is not delivered for UNSUPPORTED
or FORMAT sets its stream FAILED here; the others do so as they are delivered. -/
def State.chainStep (s : State) (b : List Byte) (c cause : Nat) (a : AccessUnit) : State :=
  let x := s.ctx c
  if cause = 7 then s
  else if 1 ≤ cause ∧ cause ≤ 4 then
    let first := x.chain = 0 ∨ 5 ≤ x.chain
    let s1 := s.setCtx c { x with st := 3, chain := if first then cause else x.chain }
    if first then s1.chainStart c cause x.pics else s1
  else if 5 ≤ cause then
    let y := if x.chain = 0 ∨ 5 ≤ x.chain then { x with chain := cause } else x
    let s1 := s.setCtx c y
    let s2 := if x.chain = 0 then s1.chainStart c cause x.pics else s1
    let strm := leAt b 0 2
    let v := s2.stream strm
    if (v.chain = 0 ∨ 5 ≤ v.chain) ∧ v.on ∧ v.kind = 1 then s2.evalStream strm { v with chain := cause } else s2
  else if 5 ≤ x.chain then s.setCtx c { x with chain := 0 }
  else if a.irap then
    let on := if ctxTbase b = 2 ∧ x.sr = none then 4 else 2
    s.setCtx c { x with chain := 0, st := if x.st = 3 then on else x.st }
  else s

/-! ### Output (R234 to R236, R243) -/

/-- Two's-complement difference `b - a` of RTP timestamps. -/
def rtpDiff (a b : Word) : Int := (b - a).toInt

/-- The alive counter of an output picture and the context after it (R235, R236): once eight pictures in a row were not
later, the next IRAP or IDR resets rtp_ref and base, whatever comes between. -/
def DecCtx.aliveOf (x : DecCtx) (ticks : Nat) (p : Picture) : Nat × DecCtx :=
  let cont := if x.started then (x.alive + 1) % 65536 else 0
  match x.ref, x.prevRtp with
  | some r, some q =>
    if p.irap ∧ 8 ≤ x.backRun then
      (cont, { x with ref := some p.rtp, base := cont, alive := cont, prevRtp := some p.rtp, backRun := 0 })
    else if rtpDiff q p.rtp ≤ 0 then (x.alive, { x with prevRtp := some p.rtp, backRun := x.backRun + 1 })
    else
      let v := if ticks = 0 then (x.alive + 1) % 65536
        else (x.base + ((p.rtp - r).toNat + ticks / 2) / ticks) % 65536
      (v, { x with alive := v, prevRtp := some p.rtp, backRun := if 8 ≤ x.backRun then x.backRun else 0 })
  | _, _ => (cont, { x with ref := some p.rtp, base := cont, alive := cont, prevRtp := some p.rtp, backRun := 0,
                            started := true })

/-- Output of a picture (R243): its counter, and delivery to ingest, which stores and flips it. FORMAT pictures,
pictures before the first sender report and pictures too old are not delivered (R225, R234, R238). -/
def State.outputPicture (s : State) (b : List Byte) (c no : Nat) : State :=
  let x := s.ctx c
  match x.dpb.find? fun p => p.no == no && !p.shown with
  | none => s
  | some p =>
    let r := x.aliveOf (leAt b 10 2) p
    let y := { r.2 with dpb := x.dpb.map fun q => if q.no = no then { q with shown := true } else q }
    let strm := leAt b 0 2
    if p.cause = 6 ∨ p.untimed then s.setCtx c y
    else if p.old then s.setCtx c y
    else
      let s1 := s.setCtx c y
      let st := s1.stream strm
      if !st.on || st.kind != 1 then s1
      else
        let s2 := s1.startFrame strm { alive := r.1, cap := p.cap, ptp := p.ptp, epoch := p.epoch, w := p.img.w,
                                       h := p.img.h, fmt := p.img.fmt }
        match (s2.stream strm).cur with
        | some f =>
          if f.dropped then s2.discardFrame strm
          else
            let s3 := if st.pyramid then s2.frameBands p.img.w p.img.h else s2
            s3.offerFrame strm { alive := r.1, cap := p.cap, ptp := p.ptp, epoch := p.epoch, img := p.img,
                                 allSkip := p.allSkip, cause := p.cause, irap := p.irap, chain := p.chain }
        | none => s2

/-- The picture that the output process takes next: the lowest picture order count of those not yet output. -/
def DecCtx.nextOutput (x : DecCtx) : Option Picture :=
  (x.dpb.filter fun p => !p.shown).foldl (fun a p => match a with
    | some q => if p.poc < q.poc then some p else a
    | none => some p) none

/-- Pictures that are output and no longer used for reference leave the DPB. -/
def DecCtx.tidy (x : DecCtx) : DecCtx := { x with dpb := x.dpb.filter fun p => p.ref || !p.shown }

/-- The output process (R243), `fuel` bounding its pictures: while more pictures wait than may be reordered, or, where
the stream signals no such number, more than the DPB holds, the one with the lowest count is output (what the
standards' process comes to: PRESUMED, assumption 57). -/
def State.bump (b : List Byte) (c : Nat) (due : DecCtx → Bool) : Nat → State → State
  | 0, s => s
  | fuel + 1, s =>
    match (s.ctx c).nextOutput with
    | some p =>
      if due (s.ctx c) then
        let t := s.outputPicture b c p.no
        State.bump b c due fuel (t.setCtx c (t.ctx c).tidy)
      else s
    | none => s

/-- More waits than the sequence lets wait (R243). -/
def seqOver (q : SeqInfo) (x : DecCtx) : Bool :=
  match q.reorder with
  | some n => decide (n < (x.dpb.filter fun p => !p.shown).length)
  | none => decide (q.dpb < x.dpb.length)

/-! ### Statistics (R249) -/

/-- A fraction in 1/65,536, saturating at 0xFFFF. -/
def frac16 (a b : Nat) : Nat := min 0xFFFF (a * 65536 / b)

/-- Histogram bins that count a motion magnitude: bin 0 zero motion, bin j the range 2^(j-1) to 2^j, bin 15 from 2^14
on. With ZERO_MV above 0 a block of small motion is in both. -/
def motionBins (zmv m : Nat) : List Nat :=
  (if m ≤ zmv then [0] else []) ++ if m = 0 then [] else [min 15 (Nat.log2 m + 1)]

/-- The sixteen bins. -/
def motionHist (zmv : Nat) (l : List Nat) : List Nat :=
  (l.flatMap (motionBins zmv)).foldl (fun h j => h.modify j fun n => satN 16 (n + 1)) (List.replicate 16 0)

/-- STAT and STAT_ROWS of a picture (R249). Fractions round down; over no inter block they are open. -/
def statWords (p : Picture) (a : AccessUnit) (d : Decoded) (zmv alive us : Nat) (start : Word) (out : Bool)
    (openZero openMean : Word) : List Word :=
  let b := fun (x : Bool) (n : Nat) => if x then 2 ^ n else 0
  let inter := d.motion.length
  let zeros := (d.motion.filter fun m => decide (m ≤ zmv)).length
  let hist := motionHist zmv d.motion
  [w32 (p.no % 65536 * 65536 + b p.irap 15 + b (p.cause != 0) 14 + b p.allSkip 13 + b out 12 + p.cause), p.rtp, p.cap,
    start, w32 (alive * 65536 + min us 0xFFFF), w32 a.bytes,
    w32 ((if d.blocks = 0 then 0 else frac16 d.skips d.blocks) * 65536
      + if inter = 0 then wbits openZero 15 0 else frac16 zeros inter),
    if inter = 0 then openMean else w32 (d.motion.foldl (· + ·) 0 * 16 / inter)]
    ++ (List.range 8).map (fun k => w32 (hist.getD (2 * k) 0 + hist.getD (2 * k + 1) 0 * 65536))
    ++ (List.range 36).map (fun k => w32 (d.rowBits.getD k 0))

/-- A decoded sample (R245): a prediction from a reference picture that is missing takes the null reference. -/
def decSample (refs : Nat → Option Picture) (depth plane : Nat) : DecSample → Nat
  | .value v => v % 2 ^ depth
  | .pred r x y res =>
    let v := match refs r with
      | some p => p.img.at plane x y
      | none => 2 ^ (depth - 1)
    (clampI 0 ((2 ^ depth : Nat) - 1) ((v : Int) + res)).toNat

/-- The decoded image: every block that was not decoded takes the mid-level values (R245), and so does the chroma of a
4:0:0 picture (R237). -/
def decodedImage (refs : Nat → Option Picture) (d : Decoded) : Img :=
  let q := d.seq
  let fmt := seqFormat q
  let depth := q.depth
  let i : Img := { w := q.w, h := q.h, fmt := fmt }
  (List.range (Fmt.planes fmt)).foldl (fun i p =>
    (List.range (Fmt.planeH fmt p q.h)).foldl (fun i y =>
      (List.range (Fmt.planeW fmt p q.w)).foldl (fun i x =>
        let v := if q.mono && p != 0 then .value (2 ^ (depth - 1))
          else lookupD d.samples (Img.key p x y) (.value (2 ^ (depth - 1)))
        i.set p x y (decSample refs depth p v)) i) i) i

/-! ### Completion -/

/-- A decoded picture enters the DPB and the output process runs (R243). A picture that opens a coded video sequence
lets the earlier ones be output first, or drops them where the stream says so. -/
def State.enterDpb (s : State) (b : List Byte) (c : Nat) (d : Decoded) (opens : Bool) (p : Picture) : State :=
  let x := s.ctx c
  let s1 := if !opens then s
    else
      let y := { x with dpb := x.dpb.map fun q => { q with ref := false, shown := q.shown || d.noPrior } }
      (State.bump b c (fun _ => true) y.dpb.length (s.setCtx c y))
  let y := s1.ctx c
  let z : DecCtx := { y with dpb := (y.dpb ++ [p]).map fun (q : Picture) => if d.unref.contains q.no then { q with ref := false } else q }
  State.bump b c (seqOver d.seq) z.dpb.length (s1.setCtx c z.tidy)

/-- A core completes or abandons its picture (R241 to R249), and the context's picture boundary is there (R226). The
picture is judged and delivered by the record that stood as its decode began. However many accesses of a picture break
the window, MPU_VIOLATION sets once, and BMX.ERR_* records none of them (DESIGN CHOICE, assumption 72). An IRAP that opens
a coded video sequence has no RASL pictures decoded (R237, R246): every IDR and BLA, the first CRA of a run and a CRA that
ends RECOVERING. -/
def State.finishPicture (s : State) (k : Nat) (d : Decoded) (timeout : Bool) : State :=
  match (s.core k).job with
  | none => s
  | some (c, a0, start) =>
    let b := (s.core k).body
    let r := (((s.setCore k {}).setBit (Reg.DEC_CORE_STATUS k) 31 false).layContext b).coreAccesses (ctxRange b) d
    let s0 := r.1
    let x := s0.ctx c
    let a := if a0.untimed then (s0.auCapture (ctxTbase b) x a0).2 else a0
    let cause := pictureCause x b (s0.stream (leAt b 0 2)) a d r.2 timeout
    let no := (x.pics + 1) % 65536
    let opens := a.irap && (!a.cra || x.fresh || (x.st == 3 && cause == 0))
    let x1 := { x with pics := no, dropRasl := if a.irap then opens else x.dropRasl, fresh := x.fresh && !a.irap }
    let s1 := s0.setCtx c (if a.old && cause != 5 then x1.count 7 1 else x1)
    let s2 := if d.accesses.any (accessOutside (ctxRange b)) then s1.raise .mpuViolation else s1
    let s3 := s2.chainStep b c cause a
    let allSkip := decide (d.blocks - d.skips ≤ s3.fld Reg.DEC_SKIP_TOL 15 0)
    let pic : Picture :=
      { no := no, rtp := a.rtp, cap := a.cap, epoch := a.epoch, ptp := ctxTbase b != 0, old := a.old,
        untimed := a.untimed, irap := a.irap, cause := cause, chain := (s3.ctx c).chain, allSkip := allSkip, poc := d.poc,
        img := if cause = 5 then {} else decodedImage (x.refPicture (r.2 ++ strayRefs (ctxRange b) d)) d }
    let s4 := if cause = 5 then s3 else s3.enterDpb b c d opens pic
    let z := s4.ctx c
    let out := cause != 5 && cause != 6 && !pic.old && !pic.untimed
      && !(z.dpb.any fun p => p.no == no && !p.shown)
    let us := (s4.ts - start).toNat / 1000
    let stat := statWords pic a d (s4.fld Reg.DEC_ZERO_MV 7 0) z.alive us start out (Config.freeWord s4.free)
      (Config.freeWord (s4.free + 1))
    let s5 := s4.nextFree.nextFree.setCtx c { z with stat := stat, ctrl := [] }
    (z.ctrl.foldl (fun t act => t.ctxAct c act) s5).decEnd c false

/-- PICTURE_DECODED (R243): core `k` completes its picture. -/
def execPictureDecoded (k : Nat) (d : Decoded) (s : State) : Res := .next (s.finishPicture k d false)

/-- DEC_TIMEOUT (R241): the budget of core `k`'s picture expires. -/
def execDecTimeout (k : Nat) (d : Decoded) (s : State) : Res :=
  match (s.core k).job with
  | some _ => .next ((s.raise .decTimeout).finishPicture k d true)
  | none => .next s

/-! ### Registers that show a context -/

/-- The context that CTX_SEL selects. -/
def State.ctxSel (s : State) : DecCtx := s.ctx (s.fld Reg.DEC_CTX_SEL 7 0)

/-- DEC.CTX_STATE of the selected context. -/
def State.ctxStateWord (s : State) : Word :=
  let x := s.ctxSel
  w32 (x.st * 2 ^ 29 + (if x.ssrc.isSome then 2 ^ 28 else 0) + x.chain * 2 ^ 16 + x.alive)

/-- DEC.CTX_CNT[k] of the selected context. -/
def State.ctxCnt (s : State) (k : Nat) : Word :=
  let c := s.ctxSel.cnt
  if k < 7 then w32 (c.getD k 0) else w32 (c.getD 7 0 * 65536 + c.getD 8 0)

/-- DEC.RUN_MASK[k]. -/
def State.runMask (s : State) (k : Nat) : Word :=
  (List.range 32).foldl (fun a i => if (s.ctx (32 * k + i)).st ≠ 0 then a ||| w32 (2 ^ i) else a) 0

/-- DEC.CORE_STATUS[k]: DISABLED shows CORE_DISABLE and the health self-test (R239). -/
def State.coreStatus (s : State) (k : Nat) : Word :=
  let w := s.reg (Reg.DEC_CORE_STATUS k)
  if s.bit Reg.DEC_CORE_DISABLE k then w ||| w32 (2 ^ 30) else w

end Sys2Proof.Machine
end

