-- ==== Sys2Proof/Machine/Time.lean ====
section
/-!
DEFINITION. Machine/Time.lean: the PTP servo, time epochs, the Almanac, frame-clock edges, FRAME_REF and timed pulses
(R250 to R271).
-/
namespace Sys2Proof.Machine

/-! ### ADDEND (R250) -/

/-- Nominal ADDEND and the ±200 ppm limits. -/
abbrev addendNominal : Nat := 0x1AA_AAAA_AAAB
abbrev addendMin : Nat := addendNominal - addendNominal / 5000
abbrev addendMax : Nat := addendNominal + addendNominal / 5000

/-- An ADDEND clamped to ±200 ppm. -/
def clampAddend (v : Nat) : Nat := max addendMin (min addendMax v)

/-- Set ADDEND, clamped. -/
def State.setAddend (s : State) (v : Nat) : State :=
  (s.setReg Reg.TIM_ADDEND_LO (w32 (clampAddend v))).setReg Reg.TIM_ADDEND_HI (w32 (clampAddend v / 2 ^ 32))

/-! ### Frame clocks (R264, R267, R268) -/

/-- Frame clock `k` beside FCLK_NEXT. -/
def State.fclkOf (s : State) (k : Nat) : Fclk := Cells.get (fun _ => {}) s.tim.fclk k

/-- Replace frame clock `k`. -/
def State.setFclk (s : State) (k : Nat) (c : Fclk) : State :=
  { s with tim := { s.tim with fclk := Cells.put (fun _ => {}) s.tim.fclk k c } }

/-- Period of clock `k` in whole nanoseconds. -/
def State.periodNs (s : State) (k : Nat) : Nat := s.period k / 2 ^ 32

/-- TAI of edge `i` of a clock less its PHASE (R268): ceil(i × DEN × 10^9 / NUM). -/
def Fclk.gridAt (c : Fclk) (i : Int) : Int := -(-(i * (c.den * 1000000000 : Nat)) / (max c.num 1 : Nat))

/-- TAI of the pending edge of clock `k`, less PHASE. -/
def State.pendingTai (s : State) (k : Nat) : Int := s.extend (s.reg (Reg.TIM_FCLK_NEXT k)) - (s.fclkOf k).phase

/-- Offset in ns of the pending edge of clock `k` after the TAI grid edge nearest it (R264, R268): e with -P/2 < e ≤
P/2. -/
def State.gridError (s : State) (k : Nat) : Int :=
  let c := s.fclkOf k
  let q : Int := (c.den * 1000000000 : Nat)
  let x := s.pendingTai k
  x - c.gridAt (-((q - 2 * x * c.num) / (2 * q)))

/-- Nanoseconds from the pending edge of clock `k` to the first TAI grid edge not before it (R268). -/
def State.gridAhead (s : State) (k : Nat) : Int :=
  let c := s.fclkOf k
  let x := s.pendingTai k
  let i := x * c.num / (c.den * 1000000000 : Nat)
  (if x ≤ c.gridAt i then c.gridAt i else c.gridAt (i + 1)) - x

/-- FCLK_ALIGNED bit of clock `k`. -/
def State.setAligned (s : State) (k : Nat) (b : Bool) : State := s.setBit Reg.TIM_STATUS (16 + k) b

/-- An integer limited to ±`lim`. -/
def limitI (lim : Nat) (v : Int) : Int := clampI (-(lim : Int)) lim v

/-- Move the pending edge of clock `k` towards its grid by at most 100 ppm of the period (R264). -/
def State.nudge (s : State) (k : Nat) : State :=
  let c := s.fclkOf k
  let m := limitI (s.periodNs k / 10000) c.err
  let s1 := (s.setFclk k { c with err := c.err - m }).setReg (Reg.TIM_FCLK_NEXT k)
    (s.reg (Reg.TIM_FCLK_NEXT k) + BitVec.ofInt 32 m)
  if c.err = m ∧ c.align ∧ !c.ref ∧ s.tim.tracked ∧ s.sourcesFclk k then s1.setAligned k true else s1

/-- Bring an ALIGN clock towards its TAI grid (R264, R268); no effect where another device sources the clock. -/
def State.realign (s : State) (k : Nat) : State :=
  let c := s.fclkOf k
  if c.on && c.align && !c.ref && s.sourcesFclk k then
    let e := s.gridError k
    ((s.setFclk k { c with err := -e }).setAligned k (e == 0)).nudge k
  else s

/-- The eight frame clocks. -/
abbrev fclks : List Nat := [0, 1, 2, 3, 4, 5, 6, 7]

/-- The pending edge of a running clock is due (R251, R268); a clock that follows FRAME_REF waits for a stamped edge
(R269), unless another device sources it (R270). -/
def State.clockDue (s : State) (k : Nat) : Bool :=
  let c := s.fclkOf k
  decide (k < 8) && c.on && (!c.ref || c.runOn || c.armed || !s.sourcesFclk k) && tsReached s.ts (s.reg (Reg.TIM_FCLK_NEXT k))

/-- The edge of clock `k` falls (R268): it is recorded and counted, the next one is programmed one period on. -/
def State.clockEdge (s : State) (k : Nat) : State :=
  let c := s.fclkOf k
  let now := s.reg (Reg.TIM_FCLK_NEXT k)
  let x := now.toNat * 2 ^ 32 + s.period k
  let full := x - min x c.frac
  let next := cdiv full (2 ^ 32)
  let s1 := ((s.setReg (Reg.CMD_FCLK_LAST k) now).incWrap (Reg.CMD_FCLK_COUNT k) 31 0).setReg (Reg.TIM_FCLK_NEXT k) (w32 next)
  let s2 := s1.setFclk k { c with frac := next * 2 ^ 32 - full, armed := false }
  if c.err = 0 then s2 else s2.nudge k

/-- FCLK_REF_LOST bit of clock `k`. -/
def State.setRefLost (s : State) (k : Nat) (b : Bool) : State := s.setBit Reg.TIM_STATUS (8 + k) b

/-- The FRAME_CLOCK of clock `k` in a record list (R267): NUM, DEN, ALIGN, FRAME_REF, PHASE; none: stopped. FCLK0 runs
at 60 Hz, aligned, without a record. -/
def clockRec (l : List Rec) (k : Nat) : Option (Nat × Nat × Bool × Bool × Nat) :=
  match recBody l RT.FRAME_CLOCK k with
  | some b =>
    let f := leAt b 6 1
    if f.testBit 0 then some (leAt b 0 4, leAt b 4 2, f.testBit 1, f.testBit 2, leAt b 8 4) else none
  | none => if k = 0 then some (60, 1, true, false, 0) else none

/-- Clock `k` as a structure start sets it (R267, R268): one that runs by the same record goes on; any other starts
now, on the TAI grid at its first edge there, else PHASE after now. SOURCE has no effect where another device sources
the clock (R270). -/
def State.startClock (s : State) (l : List Rec) (k : Nat) : State :=
  match clockRec l k with
  | none => ((s.setFclk k {}).setAligned k false).setRefLost k false
  | some (num, den, align, ref, phase) =>
    let c := s.fclkOf k
    if c.on && c.num == num && c.den == den && c.align == align && c.ref == ref && c.phase == phase then
      if align && s.tim.tracked then s.realign k else s
    else
      let s1 := (s.setFclk k { on := true, num := num, den := den, align := align, ref := ref, phase := phase }).setRefLost k false
      let grid := align && !ref && s1.tim.tracked && s1.sourcesFclk k
      let first := if ref && s1.sourcesFclk k then s.ts else s.ts + w32 phase
      let s2 := (s1.setReg (Reg.TIM_FCLK_NEXT k) first).setAligned k grid
      if grid then s2.setReg (Reg.TIM_FCLK_NEXT k) (first + BitVec.ofInt 32 (s2.gridAhead k)) else s2

/-- Every clock as a structure start sets it (R267). -/
def State.startClocks (s : State) (l : List Rec) : State := fclks.foldl (fun t k => t.startClock l k) s

/-! ### The Almanac (R265) -/

/-- The Almanac pair changes. -/
def State.setAlmanac (s : State) (tai : DWord) (ts : Word) : State :=
  (s.setPair Reg.ETH_ALM_TAI_LO tai).setReg Reg.ETH_ALM_TS32 ts

/-- Full device time, its low 32 bits TS32: nanoseconds since reset before the first step, then TAI as far as TS32 shows
it; a ring member other than 0 has the upper bits from its Almanac, which is that of its upstream (R265, R266, R528). -/
def State.fullNow (s : State) : Int :=
  if s.ringFollower then
    let e := s.extend s.ts
    e + tsDiff (BitVec.ofInt 32 e) s.ts
  else s.fullNs

/-- The upstream's last direct packet. -/
def State.upstreamTime (s : State) : Option CasTime :=
  match s.cas.upstream with
  | some i => s.cas.direct.getD i none
  | none => none

/-- The packet whose Almanac pair a ring member publishes: its upstream's last one, once a sample of that upstream has
given the offset between the two devices (R528). -/
def State.upstreamPair (s : State) : Option CasTime := if s.cas.upEpoch.isSome then s.upstreamTime else none

/-- Publish the Almanac pair (R265): that of its upstream on a ring member with one (R528), else the device's own time
corrected by the offset last estimated. -/
def State.publish (s : State) : State :=
  match s.upstreamPair with
  | some t => s.setAlmanac t.almTai (t.almTs + s.cas.off)
  | none => s.setAlmanac (BitVec.ofInt 64 (s.fullNow - if s.tim.stepped || s.ringFollower then s.tim.lastOffset else 0)) s.ts

/-- The supervisor runs: it is neither restarting nor halted (R116, R117). -/
def State.svpUp (s : State) : Bool := !s.svp.restarting && !s.bit Reg.SVP_LOCKSTEP 31

/-- Correct the accumulated rounding of an aligned clock by at most 1 ns (R268). -/
def State.trimClock (s : State) (k : Nat) : State :=
  let c := s.fclkOf k
  if c.on && c.align && !c.ref && s.bit Reg.TIM_STATUS (16 + k) && s.sourcesFclk k then
    s.setReg (Reg.TIM_FCLK_NEXT k) (s.reg (Reg.TIM_FCLK_NEXT k) + BitVec.ofInt 32 (limitI 1 (-(s.gridError k))))
  else s

/-! ### Time epochs (R262 to R264) -/

/-- A timed pulse in the cycle of a step (R262): periodic edges move, an armed one-shot is disarmed and marked. -/
def State.stepPulse (s : State) (d : Word) (k : Nat) : State :=
  if !s.bit (Reg.TIM_TPO_CTRL k) 31 then s
  else if s.fld (Reg.TIM_TPO_CTRL k) 30 0 = 0 then (s.setBit (Reg.TIM_TPO_CTRL k) 31 false).setBit Reg.TIM_STATUS k true
  else s.setReg (Reg.TIM_TPO_TIME k) (s.reg (Reg.TIM_TPO_TIME k) + d)

/-- The TIME_EPOCH record of a step (R154). -/
def State.epochRecord (s : State) : EvRec :=
  { kind := 3, op := 0xFF, object := s.fld Reg.TIM_EPOCH 15 0, ts := s.ts, data0 := (s.reg Reg.TIM_STEP_OLD).toNat,
    data1 := (s.reg Reg.TIM_STEP_NEW).toNat }

/-- What measured before a step is no measurement after it: exchanges in progress and the last FRAME_REF edge move or go
(R253, R269). -/
def Tim.afterStep (x : Tim) (d : Word) : Tim :=
  { x with ports := x.ports.map fun e => (e.1, { e.2 with sync := [], last := none, req := none, resp := none }),
           fclk := x.fclk.map fun e => (e.1, { e.2 with lastRef := e.2.lastRef.map (· + d) }) }

/-- A step of TS32 by `delta` ns (R262 to R264, R440). -/
def State.stepTime (s : State) (delta : Int) : State :=
  let old := s.ts
  let full := s.fullNow + delta
  let fracBits := s.tim.acc &&& BitVec.ofNat 72 (2 ^ 40 - 1)
  let acc := BitVec.ofNat 72 (unsignedN 32 full * 2 ^ 40) ||| fracBits
  let d := BitVec.ofInt 32 full - old
  let ended : PastEpoch := { epoch := s.fld Reg.TIM_EPOCH 15 0, step := d, tai := s.pair Reg.ETH_ALM_TAI_LO, ts := s.reg Reg.ETH_ALM_TS32 }
  let s1 := { s with tim := { s.tim with acc := acc, hi := full / 4294967296, stepped := true, lastOffset := 0,
                                         past := (ended :: s.tim.past).take 255 } }
  let s2 := ((s1.incWrap Reg.TIM_EPOCH 31 0).setReg Reg.TIM_STEP_OLD old).setReg Reg.TIM_STEP_NEW s1.ts
  let moved := { s2 with tim := s2.tim.afterStep d, cas := { s2.cas with off := s2.cas.off + d } }
  let s3 := match moved.upstreamPair with
    | some _ => moved.publish
    | none => moved.setAlmanac (BitVec.ofInt 64 full) s1.ts
  let s4 := fclks.foldl (fun t k =>
    if (t.fclkOf k).on then t.setReg (Reg.TIM_FCLK_NEXT k) (t.reg (Reg.TIM_FCLK_NEXT k) + d) else t) s3
  let s5 := fclks.foldl (fun t k => t.stepPulse d k) s4
  let s6 := (s5.stepStreams d).raise .timeEpoch
  let s7 := (List.range 16).foldl (fun t q => t.evWrite q s6.epochRecord) s6
  if s7.tim.tracked then fclks.foldl State.realign s7 else s7

/-! ### Servo (R255 to R261) -/

/-- Servo state: 0 FREE, 1 ACQUIRE, 2 TRACK, 3 HOLDOVER. -/
def State.servo (s : State) : Nat := s.fld Reg.TIM_STATUS 31 30

/-- SERVO_HOLD. -/
def State.servoHeld (s : State) : Bool := s.bit Reg.TIM_CTRL 30

/-- A slew in progress stops: ADDEND returns to the rate estimate (R256). -/
def State.endSlew (s : State) : State := { s with tim := { s.tim with slewing := false } }.setAddend s.tim.rate

/-- The servo enters a state: TIME_JUMP holds only in HOLDOVER (R257), HOLDOVER stops a slew (R256), the first TRACK
aligns the clocks (R268). -/
def State.servoTo (s : State) (v : Nat) : State :=
  let was := s.servo
  let s1 := s.setFld Reg.TIM_STATUS 31 30 v
  let s2 := if was = 3 ∧ v ≠ 3 then s1.hold .timeJump false else s1
  let s3 := if v = 3 ∧ was ≠ 3 then (s2.setFld Reg.TIM_STATUS 27 24 0).endSlew else s2
  if v = 2 ∧ !s3.tim.tracked then
    fclks.foldl State.realign { s3 with tim := { s3.tim with tracked := true } }
  else s3

/-- STEP_MIN and JUMP_LIMIT in ns (TIM.LIMITS). -/
def State.stepMin (s : State) : Nat := max 1 (s.fld Reg.TIM_LIMITS 15 0) * 1000
def State.jumpLimit (s : State) : Nat := max 1 (s.fld Reg.TIM_LIMITS 31 16) * 1000

/-- TIM.OFFSET shows a sample; the Almanac's estimate follows it (R265). -/
def State.noteOffset (s : State) (o : Int) : State :=
  { s with tim := { s.tim with lastOffset := o } }.setReg Reg.TIM_OFFSET (satS32 o)

/-- ADDEND with a slew term against offset `o` on top of rate estimate `r` (R256): below `r` for a device that is ahead,
above it for one behind, the size free within the clamp of R250. -/
def slewAddend (r : Nat) (o : Int) (f : Nat) : Nat :=
  if 0 < o then r - (f % (r - addendMin) + 1) else r + (f % (addendMax - r) + 1)

/-- A rate correction by a sample `o` (R257). The servo's arithmetic is open: the estimate, whether a slew goes on,
and the size of its term are free (assumption 30). -/
def State.correctRate (s : State) (o : Int) : State :=
  let r := clampAddend (Config.freeNat s.free)
  let more := s.tim.slewing && o != 0 && Config.freeBool (s.free + 1)
  let a := if more then slewAddend r o (Config.freeNat (s.free + 2)) else r
  ({ s with tim := { s.tim with rate := r, slewing := more } }.nextFree.nextFree.nextFree).setAddend a

/-- A slew begins (R256). -/
def State.startSlew (s : State) (o : Int) : State :=
  if o = 0 then s
  else (({ s with tim := { s.tim with slewing := true } }).setAddend (slewAddend s.tim.rate o (Config.freeNat s.free))).nextFree

/-- A valid sample in the servo (R256 to R258, R261). -/
def State.sample (s : State) (o : Int) : State :=
  if s.servoHeld ∨ s.servo = 0 then s.noteOffset o
  else if s.servo = 1 then
    let s1 := s.noteOffset o
    let s2 := if s.stepMin < o.natAbs then s1.stepTime (-o) else s1.startSlew o
    (s2.setBit Reg.TIM_STATUS 29 false).servoTo 2
  else if s.servo = 2 then
    if o.natAbs ≤ s.jumpLimit then (s.noteOffset o).correctRate o
    else ((s.setReg Reg.TIM_JUMP_SIZE (satS32 (o.tdiv 1000))).servoTo 3).hold .timeJump true
  else if o.natAbs ≤ s.jumpLimit then
    let s1 := (s.noteOffset o).setFld Reg.TIM_STATUS 27 24 (s.fld Reg.TIM_STATUS 27 24 + 1)
    if 8 ≤ s1.fld Reg.TIM_STATUS 27 24 then (s1.servoTo 2).correctRate o else s1
  else (s.setFld Reg.TIM_STATUS 27 24 0).setReg Reg.TIM_JUMP_SIZE (satS32 (o.tdiv 1000))

/-- Arm the step of a new epoch (R260, R261, R528). -/
def State.armStep (s : State) : State :=
  if s.servoHeld then s.setBit Reg.TIM_STATUS 29 true
  else if s.servo = 2 ∨ s.servo = 3 then ((s.setBit Reg.TIM_STATUS 29 true).servoTo 1) else s

/-! ### Master selection (R252, R254, R259) -/

/-- Is data set `a` better than `b`, compared in order? -/
def betterSet : List Nat → List Nat → Bool
  | a :: s, b :: t => decide (a < b) || (a == b && betterSet s t)
  | _, _ => false

/-- The better of two masters heard (R252), the lower port, then the lower source port identity on a tie. -/
def Announced.better (e b : Announced) : Bool :=
  betterSet e.set b.set || (e.set == b.set && (decide (e.who.port < b.who.port)
    || (e.who.port == b.who.port && decide (e.who.src < b.who.src))))

/-- The best master heard. -/
def bestMaster (l : List Announced) : Option PtpMaster :=
  (l.foldl (fun a e => match a with
    | none => some e
    | some b => if e.better b then some e else some b) none).map Announced.who

/-- TIM.PTP_CFG.DELAY: peer to peer (R254). -/
def State.p2p (s : State) : Bool := s.bit Reg.TIM_PTP_CFG 22

/-- What has been measured against a master that is no longer selected (R253, R255): its last Sync, and end to end the
path delay to it. -/
def State.dropPath (s : State) : State :=
  { s with tim := { s.tim with ports := s.tim.ports.map fun e =>
      (e.1, if s.p2p then { e.2 with last := none } else { e.2 with last := none, req := none, delay := none }) } }

/-- The port and the sender of a master. -/
def PtpMaster.sender (m : PtpMaster) : Nat × Nat := (m.port, m.src)

/-- Select the best master heard (R252, R255, R258): another port, sender or grandmaster sets GOOD to 0; FREE leaves for
ACQUIRE. -/
def State.selectMaster (s : State) : State :=
  let best := bestMaster s.tim.announces
  let s0 := if best.map PtpMaster.sender = s.tim.master.map PtpMaster.sender then s else s.dropPath
  let s1 := { s0 with tim := { s0.tim with master := best } }.setBit Reg.TIM_STATUS 28 best.isSome
  let s2 := if best = s.tim.master then s1 else s1.setFld Reg.TIM_STATUS 27 24 0
  if best.isSome && s2.servo == 0 && !s2.servoHeld then s2.servoTo 1 else s2

/-- The selected master is lost (R259): TRACK leaves for HOLDOVER, HOLDOVER sets; ACQUIRE stays armed. -/
def State.loseMaster (s : State) : State :=
  let s1 := (s.setBit Reg.TIM_STATUS 28 false).setFld Reg.TIM_STATUS 27 24 0
  let s2 := { s1 with tim := { s1.tim with master := none } }.dropPath
  if s2.servo = 2 then (s2.servoTo 3).raise .holdover else s2

/-- PTP_FALLBACK of the CASCADE record (R523, R541). -/
def State.ptpFallback (s : State) : Bool :=
  match s.ringRec with
  | some b => (leAt b 2 1).testBit 0
  | none => false

/-- ETHn takes part in PTP in domain `d` (R216, R252, R254). -/
def State.ptpPort (s : State) (n d : Nat) : Bool :=
  decide (n < 8) && s.ethUp n && s.bit (Reg.ETH_PORT_CTRL n) 27 && d == s.fld Reg.TIM_PTP_CFG 31 24 && s.svpUp

/-- An Announce message (R252) of a master, with its data set in comparison order and its UTC offset. A ring member
other than 0 takes time from PTP only with PTP_FALLBACK, while it has no upstream (R527, R541). -/
def State.announceIn (s : State) (a : Announced) (utc : Int) : State :=
  if s.ringFollower && !s.ptpFallback then s
  else
    let l := a :: s.tim.announces.filter fun e => !(e.who.port == a.who.port && e.who.src == a.who.src)
    let s0 : State := { s with tim := { s.tim with announces := l } }
    let s1 := if s.cas.upstream.isSome then s0 else s0.selectMaster
    if s1.tim.master = some a.who then { s1 with tim := { s1.tim with utc := utc } } else s1

/-- PTP_ANNOUNCE (R252): an Announce message on ETHn in `domain`. -/
def execPtpAnnounce (n domain : Nat) (a : AnnounceSet) (utc : Int) (s : State) : Res :=
  .next (if s.ptpPort n domain then s.announceIn ⟨⟨n, a.src, a.gm⟩, a.set⟩ utc else s)

/-- PTP_SAMPLE (R256): a valid sample from the selected master, device time minus master time in ns. -/
def execPtpSample (offset : Int) (s : State) : Res :=
  if s.tim.master.isSome && s.svpUp then .next (s.sample offset) else .next s

/-- MASTER_LOST (R259): the selected master, or the upstream that gives ring time (R527), is lost; the best PTP master
still heard is selected next. Nothing of it happens while the supervisor restarts (R116). -/
def execMasterLost (s : State) : Res :=
  match s.tim.master with
  | some m =>
    if !s.svpUp then .next s
    else
      let l := s.tim.announces.filter fun e => !(e.who.port == m.port && e.who.src == m.src)
      .next (({ s with tim := { s.tim with announces := l } }.loseMaster).selectMaster)
  | none => if s.svpUp && s.cas.upstream.isSome && s.bit Reg.TIM_STATUS 28 then .next s.loseMaster else .next s

/-- Restart master selection (R254). -/
def State.restartSelection (s : State) : State :=
  let s1 := { s with tim := { s.tim with announces := [] } }
  if s1.tim.master.isSome then s1.loseMaster else s1

/-- Every measurement of the delay mechanism ends: DELAY has changed (R254). -/
def State.dropDelays (s : State) : State :=
  { s with tim := { s.tim with ports := s.tim.ports.map fun e =>
      (e.1, { e.2 with last := none, req := none, resp := none, delay := none }) } }

/-- A write of TIM.PTP_CFG (R254), kept in MRAM: master selection restarts at once, or as the supervisor runs again
(R116; DESIGN CHOICE, assumption 73). -/
def State.ptpCfgWrite (s : State) (v : Word) : State :=
  let w := v &&& 0xFFC0_0000
  let s0 := if wbit w 22 = s.p2p then s else s.dropDelays
  let s1 := { s0 with mram := { s0.mram with ptpCfg := w } }.setReg Reg.TIM_PTP_CFG w
  if s1.svpUp then s1.restartSelection else { s1 with svp := { s1.svp with reselect := true } }

/-- PTP_CFG_WRITE (R254). -/
def execPtpCfgWrite (p : Port) (v : Word) (s : State) : Res :=
  s.hostWrite p Reg.TIM_PTP_CFG v fun t => t.ptpCfgWrite v

/-- SERVO_HOLD set or cleared (R261). -/
def State.setServoHold (s : State) (on : Bool) : State :=
  if on = s.servoHeld then s
  else if on then ((s.setBit Reg.TIM_CTRL 30 true).endSlew).servoTo 3
  else
    let s1 := s.setBit Reg.TIM_CTRL 30 false
    s1.servoTo (if s1.bit Reg.TIM_STATUS 29 then 1 else 3)

/-- A write of TIM.CTRL (R563: mixed level): SERVO_HOLD with X access, REARM_STEP at level B; SERVO_HOLD first. -/
def State.timCtrlWrite (s : State) (x : Bool) (v : Word) : State :=
  let s1 := if x then (s.setServoHold (wbit v 30)).countX else s
  if wbit v 31 then s1.armStep else s1

/-- REARM_STEP (R260): a write of TIM.CTRL with REARM_STEP 1, SERVO_HOLD as it reads. -/
def execRearmStep (p : Port) (s : State) : Res :=
  let v := wput (s.reg Reg.TIM_CTRL) 31 31 1
  s.hostWrite p Reg.TIM_CTRL v fun t => t.timCtrlWrite t.xOpen v

/-- SERVO_HOLD (R261): a write of TIM.CTRL with SERVO_HOLD as given. -/
def execServoHold (p : Port) (on : Bool) (s : State) : Res :=
  let v : Word := if on then 0x4000_0000 else 0
  s.hostWrite p Reg.TIM_CTRL v fun t => t.timCtrlWrite t.xOpen v

/-- A write of the ADDEND pair (R88, R261): taken, clamped, while SERVO_HOLD is set. -/
def State.addendWrite (s : State) (v : Nat) : State :=
  if s.servoHeld then
    { s with tim := { s.tim with rate := clampAddend (v % 2 ^ 48) } }.setAddend (v % 2 ^ 48)
  else s

/-- ADDEND_WRITE (R261): ADDEND_LO then ADDEND_HI, two X writes, the second completing the pair (R88). -/
def execAddendWrite (p : Port) (lo hi : Word) (s : State) : Res :=
  s.hostWrite p Reg.TIM_ADDEND_LO lo fun t =>
    if t.xOpen then ((t.stagePair Reg.TIM_ADDEND_LO lo).addendWrite (hi.toNat % 65536 * 2 ^ 32 + lo.toNat)).countX.countX
    else (t.refuseX (portCode p) true Reg.TIM_ADDEND_LO).refuseX (portCode p) true Reg.TIM_ADDEND_HI

/-! ### FRAME_REF (R269) -/

/-- Period P of a clock's record in whole nanoseconds. -/
def Fclk.nominalNs (c : Fclk) : Nat := c.den * 1000000000 / max c.num 1

/-- Nanoseconds from the nearest place of the running clock `k` to a pending edge `target`, over whole periods `p`. -/
def State.refError (s : State) (k p : Nat) (target : Word) : Int :=
  let e := tsDiff (s.reg (Reg.TIM_FCLK_NEXT k)) target % (p : Int)
  if (p : Int) < 2 * e then e - p else e

/-- A rising edge of FRAME_REF at a clock that follows it (R269), accepted within ±1 % of P from its expected place: a
whole number of the last measured periods after the last accepted edge, or, once the reference has been lost, where the
clock that runs on would have it; with no edge accepted yet there is no such place (DESIGN CHOICE, assumption 58). A clock
that runs on moves to the edges by at most 100 ppm of P each. -/
def State.refEdge (s : State) (k : Nat) : State :=
  let c := s.fclkOf k
  if !(c.on && c.ref && s.sourcesFclk k) then s
  else
    let p := max 1 (s.periodNs k)
    let target := s.ts + w32 c.phase
    let e := s.refError k p target
    let lost := s.bit Reg.TIM_STATUS (8 + k)
    let d := match c.lastRef with
      | some l => (s.ts - l).toNat
      | none => 0
    let n := (2 * d + p) / (2 * p)
    let near := match c.lastRef with
      | none => true
      | some _ => if lost then decide (100 * e.natAbs ≤ c.nominalNs)
        else decide (n ≠ 0) && decide (100 * ((d : Int) - (n * p : Nat)).natAbs ≤ c.nominalNs)
    if !near then s
    else
      let c1 := { c with lastRef := some s.ts, measured := if c.lastRef.isNone || lost then c.measured else d / n }
      if c.runOn then (s.setFclk k { c1 with err := e, runOn := e != 0, armed := e == 0 }).setRefLost k false
      else ((s.setFclk k { c1 with armed := true, frac := 0 }).setReg (Reg.TIM_FCLK_NEXT k) target).setRefLost k false

/-- FRAME_REF_EDGE (R269): a rising edge of the FRAME_REF input now. -/
def execFrameRefEdge (s : State) : Res :=
  if s.tim.running then .next (fclks.foldl State.refEdge s) else .next s

/-- FCLK_REF_LOST (R269): 2 periods without an accepted edge; clock `k` runs on at its last measured period. -/
def execFclkRefLost (k : Nat) (s : State) : Res :=
  let c := s.fclkOf k
  if k < 8 ∧ c.on ∧ c.ref ∧ !s.bit Reg.TIM_STATUS (8 + k) ∧ s.sourcesFclk k then
    let p := max 1 (s.periodNs k)
    let late := tsDiff (s.reg (Reg.TIM_FCLK_NEXT k)) s.ts
    let n := if late < 0 then 0 else late.toNat / p + 1
    .next (((s.setFclk k { c with runOn := true, armed := false, err := 0 }).setReg (Reg.TIM_FCLK_NEXT k)
      (s.reg (Reg.TIM_FCLK_NEXT k) + w32 (n * p))).setRefLost k true)
  else .next s

/-! ### Timed pulses (R271) -/

/-- PERIOD in force: 1 to 1,999 act as 2,000. -/
def pulsePeriod (w : Word) : Nat :=
  let p := wbits w 30 0
  if 1 ≤ p ∧ p < 2000 then 2000 else p

/-- A pulse on TPOk; a standby holds the ball at high impedance. -/
def State.pulse (s : State) (k width : Nat) : State := if s.standby then s else s.emit (.pulse k width)

/-- A write of TPO_CTRL[k] (R271). -/
def State.tpoWrite (s : State) (k : Nat) (v : Word) : State :=
  let s1 := s.setReg (Reg.TIM_TPO_CTRL k) v
  if !wbit v 31 then s1
  else
    let s2 := s1.setBit Reg.TIM_STATUS k false
    let t := s2.reg (Reg.TIM_TPO_TIME k)
    if !tsReached s2.ts t then s2
    else
      let p := pulsePeriod v
      if p = 0 then (s2.setBit (Reg.TIM_TPO_CTRL k) 31 false).pulse k 1000
      else s2.setReg (Reg.TIM_TPO_TIME k) (t + w32 (((s2.ts - t).toNat / p + 1) * p))

/-- TPO_ARM (R271): a write of TPO_CTRL[k]. -/
def execTpoArm (p : Port) (k : Nat) (v : Word) (s : State) : Res :=
  if k < 8 then s.hostWrite p (Reg.TIM_TPO_CTRL k) v fun t => t.tpoWrite k v else .next s

/-- TPO_EDGE (R271): the armed pulse of TPOk is due; a one-shot is high for 1 µs and disarms, a periodic one for half
its period, and TPO_TIME shows the next edge. -/
def execTpoEdge (k : Nat) (s : State) : Res :=
  if k < 8 ∧ s.bit (Reg.TIM_TPO_CTRL k) 31 ∧ tsReached s.ts (s.reg (Reg.TIM_TPO_TIME k)) then
    let p := pulsePeriod (s.reg (Reg.TIM_TPO_CTRL k))
    if p = 0 then .next ((s.setBit (Reg.TIM_TPO_CTRL k) 31 false).pulse k 1000)
    else .next ((s.setReg (Reg.TIM_TPO_TIME k) (s.reg (Reg.TIM_TPO_TIME k) + w32 p)).pulse k (p / 2))
  else .next s

end Sys2Proof.Machine
end

