-- ==== Sys2Proof/Machine/Enc.lean ====
section
/-!
DEFINITION. Machine/Enc.lean: wall encoding (R450 to R465): binding, latches, rate control, RTP and ring output. What a
coder makes of a picture is open: its coded bytes are free values, and all that the spec computes from them follows.
-/
namespace Sys2Proof.Machine

/-- Encoder core `e` beside its registers. -/
def State.encSt (s : State) (e : Nat) : EncSt := Cells.get (fun _ => {}) s.enc e

/-- Replace encoder core `e`. -/
def State.setEnc (s : State) (e : Nat) (x : EncSt) : State := { s with enc := Cells.put (fun _ => {}) s.enc e x }

/-- STATE of encoder `e`: 0 STOPPED, 1 WAIT_SOURCE, 2 RUNNING, 3 STANDBY. -/
def State.encState (s : State) (e : Nat) : Nat := s.fld (Reg.ENC_STATUS e) 31 29

/-- Set STATE of encoder `e`. -/
def State.setEncState (s : State) (e v : Nat) : State := s.setFld (Reg.ENC_STATUS e) 31 29 v

/-! ### Binding (R450 to R453) -/

/-- PROFILE: 0 HEVC Main, 1 HEVC Main 10, 2 H.264 High; 3 acts as 0. -/
def State.encProfile (s : State) (e : Nat) : Nat := s.fld (Reg.ENC_CFG e) 31 30 % 3

/-- Pyramid level that encoder `e` reads. -/
def State.encLevel (s : State) (e : Nat) : Nat := s.fld (Reg.ENC_CFG e) 29 28

/-- Size of the level that encoder `e` reads. -/
def State.encSize (s : State) (e : Nat) : Nat × Nat :=
  let x := s.stream (s.encStream e)
  (cdiv x.width (2 ^ s.encLevel e), cdiv x.height (2 ^ s.encLevel e))

/-- The picture rate of encoder `e` as a fraction: the source clock's rate over DIVIDE + 1 (R451). -/
def State.encRate (s : State) (e : Nat) : Nat × Nat :=
  let c := s.fclkOf (s.encClock e)
  (c.num, c.den * (s.fld (Reg.ENC_CFG e) 19 16 + 1))

/-- Largest target rate of a profile in kb/s (R450). -/
def targetMax (profile : Nat) : Nat := if profile = 2 then 300000 else 40000

/-- DEST of encoder `e` as 16 bytes (R221). -/
def State.encDest (s : State) (e : Nat) : List Byte :=
  (List.range 4).flatMap fun k => leBytes 4 (s.reg (Reg.ENC_DEST e k)).toNat

/-- The destination group is a multicast address. -/
def State.encMulticast (s : State) (e : Nat) : Bool :=
  let d := s.encDest e
  if s.bit (Reg.ENC_PATH e) 30 then d.getD 0 0 == 0xFF else (d.getD 12 0).toNat / 16 == 14

/-- ETHn of encoder `e`, and whether it delivers to a host ring. -/
def State.encPort (s : State) (e : Nat) : Nat := s.fld (Reg.ENC_PATH e) 25 23
def State.encToRing (s : State) (e : Nat) : Bool := s.bit (Reg.ENC_PATH e) 31

/-- DRAM address and bytes of the ring of encoder `e`. -/
def State.encRing (s : State) (e : Nat) : Nat × Nat :=
  (s.fld (Reg.ENC_RING e) 25 0 * 4096, 2 ^ (min 7 (s.fld (Reg.ENC_RING e) 31 28) + 16))

/-- The size and rate of a level lie within R450. -/
def encFits (profile w h num den : Nat) : Bool :=
  w % 2 == 0 && h % 2 == 0 && decide (64 ≤ w) && decide (w ≤ 4096) && decide (64 ≤ h) && decide (h ≤ 2176)
    && (if profile = 2 then decide (cdiv w 16 * cdiv h 16 * num ≤ 983040 * den)
        else decide (w * h * num ≤ 534773760 * den))

/-- A start of encoder `e` at `target` kb/s passes R451: BAD_ARG, then HOST_RANGE, or 0 for none. The group and the
port of PATH are checked for a ring too, as R451 makes no exception. -/
def State.encStartCode (s : State) (e target badArg hostRange : Nat) : Nat :=
  let x := s.stream (s.encStream e)
  let pr := s.encProfile e
  let sz := s.encSize e
  let r := s.encRate e
  if !x.on ∨ x.mode = 0 ∨ (s.encLevel e ≠ 0 ∧ !x.pyramid) ∨ x.format ≠ (if pr = 1 then 0x0A else 0x09)
      ∨ !encFits pr sz.1 sz.2 r.1 r.2 ∨ target < 100 ∨ targetMax pr < target
      ∨ !s.encMulticast e ∨ !s.bit (Reg.ETH_PORT_CTRL (s.encPort e)) 31 then badArg
  else if s.encToRing e && !s.hostRange (s.encRing e).1 (s.encRing e).2 then hostRange
  else 0

/-! ### Control at a commit point (R454, R455) -/

/-- The source has a frame. -/
def State.encHasFrame (s : State) (e : Nat) : Bool := (s.stream (s.encStream e)).complete.isSome

/-- STATE of a started encoder. -/
def State.encRunState (s : State) (e : Nat) : Nat := if s.standby then 3 else if s.encHasFrame e then 2 else 1

/-- Encoder `e` stops with a cause: no further latch, the debt is cleared; the picture in progress completes. -/
def State.encStop (s : State) (e cause : Nat) : State :=
  if s.encState e = 0 then s
  else
    let x := s.encSt e
    ((s.setEncState e 0).setFld (Reg.ENC_STATUS e) 27 24 cause).setEnc e
      { x with due := false, wanted := false, debt := 0, inst := 0 }

/-- ENC_CTRL at its commit point (R454): A0, and A1 as the new TARGET where it is not 0; a start of an encoder that is
not STOPPED has no effect at all. -/
def State.encCtrl (s : State) (e act rate : Nat) : State :=
  let s1 := if rate = 0 ∨ (act = 1 ∧ s.encState e ≠ 0) then s else s.setFld (Reg.ENC_RC e) 19 0 rate
  match act with
  | 0 => s1.encStop e 1
  | 1 =>
    if s1.encState e ≠ 0 then s1
    else
      let x := s1.encSt e
      ((s1.setEncState e (s1.encRunState e)).setFld (Reg.ENC_STATUS e) 27 24 0).setEnc e
        { x with points := 0, due := false, wanted := true }
  | _ => if s1.encState e = 0 then s1 else s1.setEnc e { s1.encSt e with wanted := true }

/-- A commit point of clock `k`: every (DIVIDE + 1)-th one of its source clock is a latch (R455). An encoder of another
clock of this instant counts it too where it was STOPPED before this point's changes: its start stands at this commit
point (R454). -/
def State.encCommit (s old : State) (k : Nat) (also : List Nat) : State :=
  encoders.foldl (fun t e =>
    if t.encState e = 0 ∨ !(t.encClock e == k || (also.contains (t.encClock e) && old.encState e == 0)) then t
    else
      let x := t.encSt e
      t.setEnc e { x with due := x.due || x.points % (t.fld (Reg.ENC_CFG e) 19 16 + 1) == 0, points := x.points + 1 }) s

/-- A structure start stops every encoder (R452). -/
def State.encStopAll (s : State) : State :=
  encoders.foldl (fun t e => (t.encStop e 0).setEnc e { (t.encStop e 0).encSt e with pic := none, last := none }) s

/-- A delta has taken away the source or its surface (R455); a stream without a frame has none that was coded before. -/
def State.encSources (s : State) : State :=
  encoders.foldl (fun t e =>
    let x := t.stream (t.encStream e)
    let u := if x.held then t else t.setEnc e { t.encSt e with last := none }
    if x.on && x.mode != 0 && (t.encLevel e == 0 || x.pyramid) then u else u.encStop e 2) s

/-- The next picture of encoder `e` is forced to be an IRAP (R457). -/
def State.forceIrap (s : State) (e : Nat) : State :=
  if s.encIrap.contains e then s else { s with encIrap := e :: s.encIrap }

/-- Takeover (R464): a started encoder runs, its next picture is an IRAP, its sequence numbers jump by 1,024. -/
def State.encTakeover (s : State) : State :=
  encoders.foldl (fun t e =>
    if t.encState e ≠ 3 then t
    else
      let x := t.encSt e
      ((t.setEncState e (if t.encHasFrame e then 2 else 1)).setEnc e { x with seq := (x.seq + 1024) % 65536 }).forceIrap e) s

/-! ### Latch (R455 to R458) -/

/-- QP_MAX and QP_MIN in force (ENC.RC). -/
def State.encQp (s : State) (e : Nat) : Nat × Nat :=
  let hi := min 51 (s.fld (Reg.ENC_RC e) 31 26)
  (hi, min hi (s.fld (Reg.ENC_RC e) 25 20))

/-- Nominal budget in bits (R458). -/
def State.encNominal (s : State) (e : Nat) (irap : Bool) : Nat :=
  let t := max 100 (min (targetMax (s.encProfile e)) (s.fld (Reg.ENC_RC e) 19 0)) * 1000
  let p := s.fld (Reg.ENC_CFG e) 27 20
  let n := if p = 0 then 255 else p
  let r := s.encRate e
  (if irap then 4 else 1) * t * n * r.2 / (r.1 * (n + 3))

/-- The node whose surface a stream is. -/
def State.encNode (s : State) (strm : Nat) : Option Nat :=
  if (s.stream strm).kind = 2 then surfaceNode s.ld.recs strm else none

/-- The lanterns that the source node's output drew in the frame its surface shows (R456): a GLASS_MEMORY node's, none
of a MEMORY node. -/
def State.encGlyphs (s : State) (strm : Nat) : List Lantern :=
  match s.encNode strm with
  | some n => match s.node n with
    | some r => if r.dest = 2 then (s.nodeSt n).glyphs else []
    | none => []
  | none => []

/-- The windows of the counted layers of the source node and of INLINE nodes beneath it, mapped under R356, and the
glyphs of its output's frame, in lines of the base (R456): [y0, y1). -/
def State.guardedLines (s : State) (strm : Nat) : List (Nat × Nat) :=
  match s.encNode strm with
  | some n => (s.nodeSt n).guarded ++ (s.encGlyphs strm).map fun l => (l.gy, l.gy + 32)
  | none => []

/-- Rows of 64 luma lines of a picture at `level` that meet one of the base-line spans. -/
def guardedRows (rows level : Nat) (l : List (Nat × Nat)) : List Nat :=
  (List.range rows).filter fun r => l.any fun y =>
    decide (y.1 / 2 ^ level < 64 * r + 64) && decide (64 * r < cdiv y.2 (2 ^ level))

/-- A sample (p, x, y) of fault fill at a picture position, in the YCbCr codes of R394 (R457). -/
def fillSample (fmt p x y : Nat) : Nat :=
  let sx := if Fmt.chroma fmt p && Fmt.halfH fmt then 2 * x else x
  let sy := if Fmt.chroma fmt p && Fmt.halfV fmt then 2 * y else y
  2 ^ (Fmt.depth fmt - if p = 0 ∧ band sx sy = 1 then 2 else 1)

/-- A sample (p, x, y) of a level that a drawn lantern covers, converted as the output converts its glyph (R398,
R456). At a higher level a pixel shows the base pixel at its first corner, and a chroma sample takes the glyph where
its own pixel does: both are choices of the model (DESIGN CHOICE, assumption 64). -/
def glyphSample (conv : OutConv) (level : Nat) (l : List Lantern) (p x y : Nat) : Option Nat :=
  let sx := (if Fmt.chroma conv.fmt p && Fmt.halfH conv.fmt then 2 * x else x) * 2 ^ level
  let sy := (if Fmt.chroma conv.fmt p && Fmt.halfV conv.fmt then 2 * y else y) * 2 ^ level
  match (l.filter fun g => decide (g.gx ≤ sx) && decide (sx < g.gx + 32) && decide (g.gy ≤ sy) && decide (sy < g.gy + 32)).getLast? with
  | none => none
  | some g =>
    let at' := fun (o v : Nat) => min 31 (v * 2 ^ level - o)
    some (convSample conv (fun a b => glyphPix g.state g.phase g.secs (at' g.gx a) (at' g.gy b)) 16384 16384 p x y)

/-- The picture that encoder `e` codes: the level as FSC delivers it, pixels of damaged tiles as fault fill, the
lanterns of the source's output over it (R456, R457). -/
def State.encInput (s : State) (e : Nat) (bad : List Nat) : Img :=
  let i := s.encStream e
  let lv := s.encLevel e
  let img := ((s.stream i).deliveredAt lv).getD { w := 0, h := 0, fmt := 0 }
  let gl := s.encGlyphs i
  if bad = [] ∧ gl = [] then img
  else
    let conv := s.outConv ((s.encNode i).getD 0) img.fmt
    (List.range (Fmt.planes img.fmt)).foldl (fun a p => (List.range (Fmt.planeH img.fmt p img.h)).foldl (fun b y =>
      (List.range (Fmt.planeW img.fmt p img.w)).foldl (fun c x =>
        match glyphSample conv lv gl p x y with
        | some v => c.set p x y v
        | none => if bad.contains (img.sampleTile p x y) then c.set p x y (fillSample img.fmt p x y) else c) b) a) img

/-- The samples of row `r` of a picture: its 64 luma lines, plane after plane (R450). -/
def Img.encRow (i : Img) (r : Nat) : List Nat :=
  (List.range (Fmt.planes i.fmt)).flatMap fun p =>
    let n := if Fmt.chroma i.fmt p && Fmt.halfV i.fmt then 32 else 64
    (List.range (min n (Fmt.planeH i.fmt p i.h - n * r))).flatMap fun y =>
      (List.range (Fmt.planeW i.fmt p i.w)).map fun x => i.at p x (n * r + y)

/-- The encoder takes the most recent complete frame and starts a picture (R455, R458, R460). -/
def State.encTake (s : State) (e : Nat) : State :=
  let i := s.encStream e
  let x := s.stream i
  let c := s.encSt e
  let period := s.fld (Reg.ENC_CFG e) 27 20
  let forced := s.encIrap.contains e || (period != 0 && decide (period ≤ c.since))
  let irap := forced || c.wanted
  let pay := min c.inst c.debt
  let bad := s.damagedTiles i (s.encLevel e)
  let rows := cdiv (s.encSize e).2 64
  let qp := s.encQp e
  let seen : Option Word := match c.last with
    | some l => if l.strm = i ∧ l.frames = x.frames then some l.rtp else none
    | none => none
  let rtp := seen.getD (BitVec.ofInt 32 (s.extendCap x * 90000 / 1000000000))
  let p : EncPic :=
    { state := x.state, sub := x.sub, age := x.age, cap := x.cap, alive := x.alive, epoch := s.fld Reg.TIM_EPOCH 15 0,
      rtp := rtp, again := seen.isSome,
      damaged := bad != [], forced := forced, wanted := c.wanted,
      budget := (s.encNominal e irap : Int) - (pay : Int), hot := c.hot, rows := rows,
      guarded := guardedRows rows (s.encLevel e) (s.guardedLines i), qpMin := qp.2, qpMax := qp.1, standby := s.standby,
      input := s.encInput e bad }
  let s1 := { s with encIrap := s.encIrap.filter fun k => k != e }.takeFrame (.encoder e) i
  let s2 := s1.setEnc e { c with due := false, wanted := false, pic := some p, last := some { strm := i, frames := x.frames, rtp := rtp },
                                 debt := c.debt - pay, hot := false, since := if irap then 1 else c.since + 1 }
  (if s2.encState e = 1 then s2.setEncState e 2 else s2).poisonReads 4 i (s.encLevel e) bad

/-- ENC_LATCH (R455): a due latch; without a frame the encoder waits for its source. -/
def execEncLatch (e : Nat) (s : State) : Res :=
  let c := s.encSt e
  if 4 ≤ e ∨ !c.due ∨ c.pic.isSome ∨ s.encState e = 0 then .next s
  else if s.encHasFrame e then .next (s.encTake e)
  else .next ((if s.encState e = 2 then s.setEncState e 1 else s).setEnc e { c with due := false })

/-! ### Packets (R461, R462) -/

/-- Bytes cut into pieces of at most `n`. -/
def chunks (n : Nat) : Nat → List Byte → List (List Byte)
  | 0, _ => []
  | fuel + 1, l => if l.isEmpty then [] else l.take n :: chunks n fuel (l.drop n)

/-- One NAL unit as RTP payloads of at most `cap` bytes: itself, or fragmentation units (RFC 7798 4.4.3, RFC 6184
5.8). -/
def nalPackets (hevc : Bool) (cap : Nat) (nal : List Byte) : List (List Byte) :=
  if nal.length ≤ cap then [nal]
  else
    let b0 := nal.getD 0 0
    let head : List Byte := if hevc then [(b0 &&& 0x81) ||| 0x62, nal.getD 1 0] else [(b0 &&& 0xE0) ||| 0x1C]
    let kind : Byte := if hevc then (b0 >>> 1) &&& 0x3F else b0 &&& 0x1F
    let parts := chunks (cap - head.length - 1) nal.length (nal.drop head.length)
    (List.range parts.length).map fun k =>
      let se : Byte := (if k = 0 then 0x80 else 0) ||| (if k + 1 = parts.length then 0x40 else 0)
      head ++ [se ||| kind] ++ parts.getD k []

/-- PFLAGS of R463. -/
def encFlags (irap clamped overrun again damaged : Bool) : Nat :=
  (if irap then 1 else 0) + (if clamped then 2 else 0) + (if overrun then 4 else 0) + (if again then 8 else 0)
    + (if damaged then 16 else 0)

/-- The header extension of the first packet of a picture (R462). -/
def encExtension (id : Nat) (p : EncPic) (flags : Nat) : List Byte :=
  if id = 0 ∨ id = 15 then []
  else beBytes 2 0xBEDE ++ beBytes 2 2 ++ leBytes 1 (id * 16 + 7) ++ leBytes 1 p.state.code ++ leBytes 3 p.age
    ++ leBytes 2 p.alive ++ leBytes 1 flags ++ leBytes 1 0 ++ leBytes 3 0

/-- The RTP packets of a picture leave (R461, R462); fields: VLAN, IP version, source address, group, ports, marker,
payload type, sequence number, timestamp, SSRC, extension bytes, payload. -/
def State.encSend (s : State) (e : Nat) (p : EncPic) (flags seq : Nat) (l : List (List Byte)) : State :=
  (List.range l.length).foldl (fun t k =>
    let ext := if k = 0 then encExtension (t.fld (Reg.ENC_PATH e) 29 26) p flags else []
    t.sendEth (t.encPort e) 4 ([t.fld (Reg.ENC_PATH e) 11 0, if t.bit (Reg.ENC_PATH e) 30 then 6 else 4]
      ++ (t.sourceIp (t.encPort e) (t.bit (Reg.ENC_PATH e) 30) ++ t.encDest e).map (·.toNat)
      ++ [t.fld (Reg.ENC_UDP e) 31 16, t.fld (Reg.ENC_UDP e) 15 0, if k + 1 = l.length then 1 else 0,
          t.fld (Reg.ENC_PATH e) 22 16, (seq + k) % 65536, p.rtp.toNat, (t.reg (Reg.ENC_SSRC e)).toNat, ext.length]
      ++ ext.map (·.toNat) ++ (l.getD k []).map (·.toNat))) s

/-! ### Ring records (R463) -/

/-- 256-byte units that hold data in the ring of encoder `e`. -/
def State.encRingUsed (s : State) (e : Nat) : Nat :=
  (s.fld (Reg.ENC_RING_PTR e) 31 16 + 65536 - s.fld (Reg.ENC_RING_PTR e) 15 0) % 65536

/-- The 32-byte record header (R463). -/
def encRecord (p : EncPic) (len count flags : Nat) (done : Word) : List Byte :=
  leBytes 4 len ++ leBytes 2 count ++ leBytes 1 flags ++ leBytes 1 p.state.code ++ leBytes 3 p.age ++ leBytes 1 p.sub
    ++ leBytes 4 p.cap.toNat ++ leBytes 4 done.toNat ++ leBytes 2 p.alive ++ leBytes 2 p.epoch
    ++ leBytes 4 (unsignedN 32 p.budget) ++ leBytes 4 0

/-- Write 256-byte units of the ring from unit `u`, wrapping at its end. -/
def State.ringUnits (s : State) (base units : Nat) : Nat → Nat → List Byte → State
  | 0, _, _ => s
  | n + 1, u, b => (s.dramStore (base + u % units * 256) (b.take 256)).ringUnits base units n (u + 1) (b.drop 256)

/-- A picture enters the ring, or is dropped whole and followed by an IRAP (R463); whether it was dropped. -/
def State.encToRecord (s : State) (e : Nat) (hdr stream : List Byte) : State × Bool :=
  let units := (s.encRing e).2 / 256
  let body := hdr ++ stream
  let n := cdiv body.length 256
  let used := s.encRingUsed e
  if units < used + n then ((s.addSat (Reg.ENC_STATUS e) 15 0 1).forceIrap e, true)
  else
    let wr := s.fld (Reg.ENC_RING_PTR e) 31 16
    let padded := body ++ List.replicate (n * 256 - body.length) 0
    let s1 := (s.ringUnits (s.encRing e).1 units n wr padded).setFld (Reg.ENC_RING_PTR e) 31 16 (wr + n)
    (if used = 0 then s1.sendVector (51 + e) else s1, false)

/-! ### Completion (R459 to R465) -/

/-- Rows at QP_MAX (R459): every row that starts with `budget` bits or more spent; and the bits of the picture. -/
def clampRows (budget : Int) : Nat → List Nat → Nat × Nat
  | spent, [] => (0, spent)
  | spent, b :: t =>
    let r := clampRows budget (spent + b) t
    (if budget ≤ (spent : Int) then r.1 + 1 else r.1, r.2)

/-- Bits of coded units. -/
def bitsOf (l : List (List Byte)) : Nat := l.foldl (fun n b => n + 8 * b.length) 0

/-- What encoder `e` signals and codes (R450). -/
def State.encCoding (s : State) (e : Nat) (input : Img) : Coding :=
  { hevc := s.encProfile e != 2, ten := s.encProfile e == 1, w := input.w, h := input.h }

/-- NAL unit types of the parameter sets before an IRAP (R450): VPS, SPS, PPS, or SPS, PPS. -/
def paramSets (hevc irap : Bool) : List Nat := if irap then (if hevc then [32, 33, 34] else [7, 8]) else []

/-- NAL unit type of a picture's slices (R450): IDR_N_LP or TRAIL_R in HEVC; an IDR or another picture's in H.264. -/
def sliceNal (hevc irap : Bool) : Nat := if hevc then (if irap then 20 else 1) else (if irap then 5 else 1)

/-- A NAL unit of one layer without temporal layers, every one of them a reference: its header, then its payload. The
reference weight of H.264, 1 to 3, is open. The header's layout is H.264's and HEVC's own (PRESUMED, assumption 31). -/
def nalUnit (hevc : Bool) (type free : Nat) (payload : List Byte) : List Byte :=
  (if hevc then leBytes 1 (type * 2) ++ leBytes 1 1 else leBytes 1 ((1 + free % 3) * 32 + type)) ++ payload

/-- QP of row `r` after `spent` bits of picture `p` (R459, R460, R465): `free` picks it where the spec leaves it to the
coder. -/
def rowQp (p : EncPic) (r spent free : Nat) : Nat :=
  if p.budget ≤ (spent : Int) then p.qpMax
  else if r = 0 ∧ p.hot then max p.qpMin (p.qpMax - 6)
  else p.qpMin + free % (p.qpMax - p.qpMin + 1)

/-- The rows of a picture coded in order from row `r` on, after `spent` bits, free values from `f` on (R450, R459): each
one slice with its QP; no block of a guarded row is a skip. -/
def codeRows (c : Coding) (p : EncPic) (irap : Bool) (f : Nat) : Nat → Nat → Nat → List (Nat × List Byte)
  | 0, _, _ => []
  | n + 1, r, spent =>
    let qp := rowQp p r spent (Config.freeNat (f + r))
    let nal := nalUnit c.hevc (sliceNal c.hevc irap) (Config.freeNat (f + r))
      (Config.codedRow (f + r) c irap r qp (!p.guarded.contains r) (p.input.encRow r))
    (qp, nal) :: codeRows c p irap f n (r + 1) (spent + 8 * nal.length)

/-- The Annex B byte stream of NAL units (R463): a start code before each, its leading zero byte before a parameter set
and the first unit; before the others the coder may set it or not. -/
def annexB (f params : Nat) (l : List (List Byte)) : List Byte :=
  (List.range l.length).flatMap fun k =>
    (if k = 0 ∨ k < params ∨ Config.freeBool (f + k) = true then [0] else []) ++ [0, 0, 1] ++ l.getD k []

/-- The encoder completes picture `p` (R459 to R465). -/
def State.encFinish (s : State) (e : Nat) (p : EncPic) : State :=
  let c := s.encSt e
  let hevc := s.encProfile e != 2
  let irap := p.forced || p.wanted
  let cd := s.encCoding e p.input
  let types := paramSets hevc irap
  let np := types.length
  let sets := (List.range np).map fun k =>
    nalUnit hevc (types.getD k 0) (Config.freeNat (s.free + k)) (Config.paramSet (s.free + k) cd (types.getD k 0))
  let rows := codeRows cd p irap (s.free + np) p.rows 0 (bitsOf sets)
  let units := sets ++ rows.map (·.2)
  let f := s.free + np + p.rows
  let r := clampRows p.budget (bitsOf sets) (rows.map fun x => 8 * x.2.length)
  let excess : Int := (r.2 : Int) - p.budget
  let overrun := decide (0 < excess) && decide (p.budget < 4 * excess)
  let debt := if 0 < excess then c.debt + excess.toNat else c.debt
  let inst := if 0 < excess then cdiv debt 8 else c.inst
  let flags := encFlags irap (r.1 != 0) overrun p.again p.damaged
  let cap := if s.bit (Reg.ETH_PORT_CTRL (s.encPort e)) 28 then 8800 else 1400
  let packets := if s.encToRing e then [] else units.flatMap (nalPackets hevc cap)
  let sends := !p.standby && !s.standby
  let s1 := (s.takeFree (np + p.rows + 1)).releaseReader (.encoder e)
  let (s2, dropped) :=
    if !sends then (s1, false)
    else if s1.encToRing e then
      let stream := annexB s.free np units
      s1.encToRecord e (encRecord p stream.length (c.count % 65536) flags s1.ts) stream
    else (s1.encSend e p flags c.seq packets, false)
  let s3 := if p.damaged then s2.forceIrap e else s2
  let s4 := if overrun then s3.raise .rcOverrun else s3
  let old := fun k => c.stat.getD k 0
  let coded := (c.coded.filter fun x => decide (s.uptime < x.1 + holdCycles)) ++ [(s.uptime, r.2)]
  let stat : List Word :=
    [w32 (c.count % 65536 * 2 ^ 16 + (if irap then 2 ^ 15 else 0) + (if r.1 ≠ 0 then 2 ^ 14 else 0)
        + (if overrun then 2 ^ 13 else 0) + (if p.again then 2 ^ 12 else 0) + (if p.damaged then 2 ^ 11 else 0)
        + (if dropped then 2 ^ 10 else 0) + (rows.map (·.1)).headD 0),
     p.cap, w32 r.2, BitVec.ofInt 32 p.budget, w32 (if s4.encState e = 0 then 0 else debt),
     w32 (p.alive * 2 ^ 16 + satN 8 r.1 * 2 ^ 8 + satN 8 p.guarded.length),
     w32 (Config.freeNat f % 65536 * 2 ^ 16 + satN 16 packets.length), w32 ((coded.map (·.2)).sum / 1000),
     old 8 + (if overrun then 1 else 0), old 9 + (if p.again then 1 else 0),
     w32 (((wbits (old 10) 31 16) + (if p.forced then 1 else 0)) % 65536 * 2 ^ 16
        + (wbits (old 10) 15 0 + (if p.wanted then 1 else 0)) % 65536)]
  let run := s4.encState e != 0
  s4.setEnc e { s4.encSt e with pic := none, debt := if run then debt else 0, inst := if run then inst else 0,
                                hot := overrun, count := (c.count + 1) % 65536,
                                seq := (c.seq + packets.length) % 65536, stat := stat, coded := coded }

/-- ENC_PICTURE_DONE (R463): encoder `e` completes its picture. -/
def execEncPictureDone (e : Nat) (s : State) : Res :=
  match (s.encSt e).pic with
  | some p => if e < 4 then .next (s.encFinish e p) else .next s
  | none => .next s

/-- A write of RING_PTR (R463): RD, and the vector again while the ring holds records. On a standby, which writes none,
the ring stays empty: WR goes with RD (R464; DESIGN CHOICE, assumption 80). -/
def State.encRdWrite (s : State) (e : Nat) (v : Word) : State :=
  let s0 := s.setFld (Reg.ENC_RING_PTR e) 15 0 (wbits v 15 0)
  let s1 := if s.standby then s0.setFld (Reg.ENC_RING_PTR e) 31 16 (wbits v 15 0) else s0
  if s1.encRingUsed e = 0 then s1.dropVector (51 + e) else s1.sendVector (51 + e)

/-- ENC_RING_RD_WRITE (R463): a host write of ENC.RING_PTR of encoder `e`. -/
def execEncRingRdWrite (p : Port) (e : Nat) (v : Word) (s : State) : Res :=
  if e < 4 then s.hostWrite p (Reg.ENC_RING_PTR e) v fun t => t.encRdWrite e v else .next s

/-- STATUS of encoder `e` as the host reads it: IRAP_PENDING with the stored fields. -/
def State.encStatusWord (s : State) (e : Nat) : Word :=
  wput (s.reg (Reg.ENC_STATUS e)) 28 28
    (if s.encState e ≠ 0 ∧ (s.encIrap.contains e || (s.encSt e).wanted) then 1 else 0)

/-- STAT[k] of the selected core. -/
def State.encStatWord (s : State) (k : Nat) : Word := (s.encSt (s.fld Reg.ENC_STAT_SEL 1 0)).stat.getD k 0

end Sys2Proof.Machine
end

