-- ==== Sys2Proof/Machine/Digest.lean ====
section
/-!
DEFINITION. Machine/Digest.lean: SHA-256 and SHA-512 (FIPS 180-4), as R61 names them, on bytes. The words of SHA-256 are
the upper halves of those of SHA-512, which makes one table serve both.
-/
namespace Sys2Proof.Machine

/-- The largest number whose power `e` is at most `n`, found a bit at a time from bit `bits - 1` down. -/
def Sha.floorRoot (e n : Nat) : Nat → Nat → Nat
  | 0, found => found
  | bits + 1, found =>
    Sha.floorRoot e n bits (if (found + 2 ^ bits) ^ e ≤ n then found + 2 ^ bits else found)

/-- The primes below 410, which are the first 80: 20 is the largest divisor to be tried. -/
def Sha.primes : List Nat :=
  (List.range 410).filter fun p => 2 ≤ p && (List.range 19).all fun d => p == d + 2 || p % (d + 2) != 0

/-- The first 64 bits of the fractional part of a number's root of degree `e`: how FIPS 180-4 defines the round constants
(4.2.3, the cube roots of the first 80 primes) and the initial value (5.3.5, the square roots of the first 8). -/
def Sha.fraction (e p : Nat) : Nat := Sha.floorRoot e (p * 2 ^ (64 * e)) 69 0 % 2 ^ 64

/-- One member of the family: word width, rounds, constants, and the six rotation and shift amounts of its four
functions. -/
structure Sha.Kind where
  w     : Nat
  ks    : List Nat
  init  : List Nat
  big0  : Nat × Nat × Nat
  big1  : Nat × Nat × Nat
  small0 : Nat × Nat × Nat
  small1 : Nat × Nat × Nat

/-- SHA-512. -/
def Sha.k512 : Sha.Kind :=
  { w := 64, ks := Sha.primes.map (Sha.fraction 3), init := (Sha.primes.take 8).map (Sha.fraction 2), big0 := (28, 34, 39), big1 := (14, 18, 41),
    small0 := (1, 8, 7), small1 := (19, 61, 6) }

/-- SHA-256. -/
def Sha.k256 : Sha.Kind :=
  { w := 32, ks := (Sha.primes.take 64).map fun p => Sha.fraction 3 p >>> 32,
    init := (Sha.primes.take 8).map fun p => Sha.fraction 2 p >>> 32,
    big0 := (2, 13, 22), big1 := (6, 11, 25), small0 := (7, 18, 3), small1 := (17, 19, 10) }

/-- Rotate a word of width `w` right. -/
def Sha.rotr (w x n : Nat) : Nat := (x >>> n) ||| (x <<< (w - n)) % 2 ^ w

/-- Three rotations combined: the upper-case sigmas. -/
def Sha.big (w : Nat) (r : Nat × Nat × Nat) (x : Nat) : Nat := Sha.rotr w x r.1 ^^^ Sha.rotr w x r.2.1 ^^^ Sha.rotr w x r.2.2

/-- Two rotations and a shift combined: the lower-case sigmas. -/
def Sha.small (w : Nat) (r : Nat × Nat × Nat) (x : Nat) : Nat := Sha.rotr w x r.1 ^^^ Sha.rotr w x r.2.1 ^^^ (x >>> r.2.2)

/-- Bytes as a big-endian number. -/
def Sha.number (b : List Byte) : Nat := b.foldl (fun n x => 256 * n + x.toNat) 0

/-- A word as big-endian bytes. -/
def Sha.bytes (n w : Nat) : List Byte := (List.range n).map fun i => BitVec.ofNat 8 (w >>> (8 * (n - 1 - i)))

/-- The message with its padding (FIPS 180-4, 5.1): 1 bit, zeros, the length in bits in two words. -/
def Sha.padded (k : Sha.Kind) (b : List Byte) : List Byte :=
  let block := 2 * k.w
  let z := (block - (b.length + 1 + k.w / 4) % block) % block
  b ++ 0x80 :: List.replicate z 0 ++ Sha.bytes (k.w / 4) (8 * b.length)

/-- Further words of the schedule, from the last 16, the oldest first. -/
def Sha.extend (k : Sha.Kind) : Nat → List Nat → List Nat
  | 0, _ => []
  | n + 1, l =>
    let x := (Sha.small k.w k.small1 (l.getD 14 0) + l.getD 9 0 + Sha.small k.w k.small0 (l.getD 1 0) + l.getD 0 0) % 2 ^ k.w
    x :: Sha.extend k n (l.drop 1 ++ [x])

/-- The eight working variables as two sequences, the newest first: what FIPS 180-4 calls a, b, c, d are the last four
values of one, e, f, g, h the last four of the other. -/
structure Sha.Work where
  up   : List Nat
  down : List Nat

/-- One round appends a value to each sequence: `add` is the round's constant and schedule word. -/
def Sha.Work.push (k : Sha.Kind) (v : Sha.Work) (add : Nat × Nat) : Sha.Work :=
  let u := fun i => v.up.getD i 0
  let d := fun i => v.down.getD i 0
  let choice := d 2 ^^^ (d 0 &&& (d 1 ^^^ d 2))
  let majority := (u 0 &&& u 1) ||| (u 2 &&& (u 0 ||| u 1))
  let into := d 3 + Sha.big k.w k.big1 (d 0) + choice + add.1 + add.2
  { up := (into + Sha.big k.w k.big0 (u 0) + majority) % 2 ^ k.w :: v.up.take 3,
    down := (u 3 + into) % 2 ^ k.w :: v.down.take 3 }

/-- One block of the message (FIPS 180-4, 6.2.2, 6.4.2). -/
def Sha.block (k : Sha.Kind) (h : List Nat) (b : List Byte) : List Nat :=
  let n := k.w / 8
  let ws := (List.range 16).map fun i => Sha.number ((b.drop (n * i)).take n)
  let sched := ws ++ Sha.extend k (k.ks.length - 16) ws
  let v := (k.ks.zip sched).foldl (Sha.Work.push k) { up := h.take 4, down := h.drop 4 }
  (v.up ++ v.down).zipWith (fun x y => (x + y) % 2 ^ k.w) h

/-- The blocks one after another; `fuel` bounds their number. -/
def Sha.blocks (k : Sha.Kind) : Nat → List Nat → List Byte → List Nat
  | 0, h, _ => h
  | fuel + 1, h, b => if b.isEmpty then h else Sha.blocks k fuel (Sha.block k h (b.take (2 * k.w))) (b.drop (2 * k.w))

/-- A digest of bytes. -/
def Sha.digest (k : Sha.Kind) (b : List Byte) : List Byte :=
  let p := Sha.padded k b
  (Sha.blocks k (p.length / (2 * k.w)) k.init p).flatMap (Sha.bytes (k.w / 8))

/-- SHA-256 (R61). -/
def sha256 (b : List Byte) : List Byte := Sha.digest Sha.k256 b

/-- SHA-512, which Ed25519 rests on (RFC 8032). -/
def sha512 (b : List Byte) : List Byte := Sha.digest Sha.k512 b

end Sys2Proof.Machine
end

