-- ==== Sys2Proof/Machine/Ed25519.lean ====
section
/-!
DEFINITION. Machine/Ed25519.lean: verification of an Ed25519 signature, pure variant (R60, R61, RFC 8032).
-/
namespace Sys2Proof.Machine

/-- The field prime 2^255 - 19 (RFC 8032, 5.1). -/
abbrev Ed.p : Nat := 2 ^ 255 - 19

/-- The order of the base point. -/
abbrev Ed.order : Nat := 2 ^ 252 + 27742317777372353535851937790883648493

/-- The curve constant d = -121665 / 121666. -/
abbrev Ed.d : Nat := 37095705934669439343138083508754565189542113879843219016388785533085940283555

/-- A square root of -1. -/
abbrev Ed.sqrtM1 : Nat := 19681161376707505956807079304988542015446066515923890162744021073123829784752

/-- A power in the field, by the binary digits of the exponent, the lowest first; `fuel` bounds their number. -/
def Ed.pow : Nat → Nat → Nat → Nat → Nat
  | 0, _, _, acc => acc
  | fuel + 1, x, n, acc =>
    if n = 0 then acc else Ed.pow fuel (x * x % Ed.p) (n / 2) (if n % 2 = 1 then acc * x % Ed.p else acc)

/-- A point in extended coordinates (RFC 8032, 5.1.4): x = X / Z, y = Y / Z, T = XY / Z. -/
structure Ed.Point where
  x : Nat
  y : Nat
  z : Nat
  t : Nat
  deriving DecidableEq, Repr

/-- The neutral point. -/
def Ed.zero : Ed.Point := { x := 0, y := 1, z := 1, t := 0 }

/-- The base point. -/
def Ed.base : Ed.Point :=
  { x := 15112221349535400772501151409588531511454012693041857206046113283949847762202,
    y := 46316835694926478169428394003475163141307993866256225615783033603165251855960, z := 1,
    t := 46827403850823179245072216630277197565144205554125654976674165829533817101731 }

/-- The sum of two points (RFC 8032, 5.1.4). -/
def Ed.add (u v : Ed.Point) : Ed.Point :=
  let a := (u.y + (Ed.p - u.x)) * (v.y + (Ed.p - v.x)) % Ed.p
  let b := (u.y + u.x) * (v.y + v.x) % Ed.p
  let c := u.t * 2 * Ed.d * v.t % Ed.p
  let d := u.z * 2 * v.z % Ed.p
  let e := b + (Ed.p - a)
  let f := d + (Ed.p - c)
  let g := d + c
  let h := b + a
  { x := e * f % Ed.p, y := g * h % Ed.p, z := f * g % Ed.p, t := e * h % Ed.p }

/-- A multiple of a point, by the binary digits of the factor, the lowest first. -/
def Ed.mul : Nat → Nat → Ed.Point → Ed.Point → Ed.Point
  | 0, _, _, acc => acc
  | fuel + 1, n, u, acc =>
    if n = 0 then acc else Ed.mul fuel (n / 2) (Ed.add u u) (if n % 2 = 1 then Ed.add acc u else acc)

/-- Bytes as a little-endian number. -/
def Ed.number (b : List Byte) : Nat := b.foldr (fun x n => x.toNat + 256 * n) 0

/-- A root x of x² (dy² + 1) = y² - 1, none where there is none (RFC 8032, 5.1.3). -/
def Ed.rootX (y : Nat) : Option Nat :=
  let u := (y * y + Ed.p - 1) % Ed.p
  let v := (Ed.d * (y * y % Ed.p) + 1) % Ed.p
  let v3 := v * v % Ed.p * v % Ed.p
  let v7 := v3 * v3 % Ed.p * v % Ed.p
  let x := u * v3 % Ed.p * Ed.pow 253 (u * v7 % Ed.p) ((Ed.p - 5) / 8) 1 % Ed.p
  let w := v * (x * x % Ed.p) % Ed.p
  if w = u then some x else if w = (Ed.p - u) % Ed.p then some (x * Ed.sqrtM1 % Ed.p) else none

/-- A point from its 32 bytes (RFC 8032, 5.1.3): y, and in the last bit the lowest bit of x. -/
def Ed.decode (b : List Byte) : Option Ed.Point :=
  let n := Ed.number b
  let y := n % 2 ^ 255
  let sign := n / 2 ^ 255
  if b.length ≠ 32 ∨ Ed.p ≤ y then none
  else match Ed.rootX y with
    | none => none
    | some r =>
      if r = 0 ∧ sign = 1 then none
      else
        let x := if r % 2 = sign then r else Ed.p - r
        some { x := x, y := y, z := 1, t := x * y % Ed.p }

/-- Two points are one: the same quotients. -/
def Ed.same (u v : Ed.Point) : Bool :=
  u.x * v.z % Ed.p == v.x * u.z % Ed.p && u.y * v.z % Ed.p == v.y * u.z % Ed.p

/-- SIG verifies under PUBKEY (R61; RFC 8032, 5.1.7): the group equation times the cofactor 8, which the RFC names first
(DESIGN CHOICE, assumption 25). -/
def ed25519 (pub sig msg : List Byte) : Bool :=
  let s := Ed.number (sig.drop 32)
  match Ed.decode pub, Ed.decode (sig.take 32) with
  | some a, some r =>
    let k := Ed.number (sha512 (sig.take 32 ++ pub ++ msg)) % Ed.order
    sig.length == 64 && decide (s < Ed.order)
      && Ed.same (Ed.mul 4 8 (Ed.mul 256 s Ed.base Ed.zero) Ed.zero)
        (Ed.mul 4 8 (Ed.add r (Ed.mul 256 k a Ed.zero)) Ed.zero)
  | _, _ => false

end Sys2Proof.Machine
end

