-- ==== Sys2Proof/Machine/Image.lean ====
section
/-!
DEFINITION. Machine/Image.lean: a Rhanum image as bytes (R51 to R60) and the integrity checks of R63.
-/
namespace Sys2Proof.Machine

/-! ### Verdicts -/

/-- What a check of an image answers: the code of R63 with the failing record's catalogue index and ID, 0xFFFF for
none (LOAD_DETAIL). -/
structure Verdict where
  code   : Nat := 0
  record : Nat := 0xFFFF
  object : Nat := 0xFFFF
  deriving DecidableEq, Repr

/-- The first of two verdicts that is not OK. -/
def Verdict.orElse (a b : Verdict) : Verdict := if a.code = 0 then b else a

/-- The first failing verdict of a list, OK if none fails. -/
def firstFail : List Verdict → Verdict
  | [] => {}
  | v :: t => if v.code = 0 then firstFail t else v

/-- A verdict of `code` where the condition fails. -/
def Verdict.need (ok : Bool) (code : Nat) : Verdict := if ok then {} else { code := code }

/-! ### The image's parts -/

/-- A catalogue entry (R53). -/
structure CatEntry where
  type : Nat
  id   : Nat
  off  : Nat
  len  : Nat
  deriving DecidableEq, Repr

/-- Rounded up to a multiple of 8. -/
def pad8 (n : Nat) : Nat := cdiv n 8 * 8

/-- REC_COUNT, TOTAL_LEN and the end of the padded catalogue of an image. -/
def imgCount (b : List Byte) : Nat := leAt b 24 4
def imgLen (b : List Byte) : Nat := leAt b 20 4
def imgCatEnd (b : List Byte) : Nat := pad8 (64 + 12 * imgCount b + 4)

/-- FLAGS.DELTA, GEN, BASE_GEN and DELTA_FCLK of an image (R52). -/
def imgDelta (b : List Byte) : Bool := (leAt b 8 4).testBit 0
def imgGen (b : List Byte) : Nat := leAt b 12 4
def imgBase (b : List Byte) : Nat := leAt b 16 4
def imgFclk (b : List Byte) : Nat := leAt b 37 1

/-- The catalogue of an image (R53). -/
def imgCat (b : List Byte) : List CatEntry :=
  (List.range (imgCount b)).map fun i =>
    let o := 64 + 12 * i
    { type := leAt b o 2, id := leAt b (o + 2) 2, off := leAt b (o + 4) 4, len := leAt b (o + 8) 4 }

/-- Entries with their catalogue index. -/
def indexed {α : Type} (l : List α) : List (Nat × α) := (List.range l.length).zip l

/-- CRC-32C over `n` bytes of an image from an offset equals the 4 bytes that follow them. -/
def crcAt (b : List Byte) (off n : Nat) : Bool := Crc.value Crc.crc32c (slice b off n) == leAt b (off + n) 4

/-- The records of an image, in catalogue order, informational types included. -/
def imgRecs (b : List Byte) : List Rec :=
  (imgCat b).map fun e => { type := e.type, id := e.id, body := slice b (e.off + 8) e.len }

/-! ### Body lengths (R55) -/

/-- The counts of taps a set may have (R372). -/
def setCounts : List Nat := [8, 6, 4, 3, 2]

/-- The body has the length that R55 gives its type. A TAPS that R372 does not list gives no length; it is a field out
of range (DEDUCED, assumption 39). -/
def bodyLenOk (type : Nat) (b : List Byte) : Bool :=
  let n := b.length
  if type = RT.DRAM_MAP ∨ type = RT.LAYER ∨ type = RT.TOUCH_HEAD then n == 64
  else if type = RT.PORT ∨ type = RT.FRAME_CLOCK ∨ type = RT.CHECK_ASSIGN ∨ type = RT.GUARD_POLICY then n == 16
  else if type = RT.STREAM then n == 80
  else if type = RT.NODE ∨ type = RT.TWIN ∨ type = RT.CASCADE then n == 32
  else if type = RT.OUTPUT_TIMING ∨ type = RT.DECODER_CONTEXT then n == 48
  else if type = RT.REMOVE then n == 4
  else if type = RT.ENSEMBLE then decide (5 ≤ n) && n == 8 + 2 * leAt b 1 1 + 4 * leAt b 4 1
  else if type = RT.SELECT then decide (2 ≤ n) && n == 4 + 2 * leAt b 0 2
  else if type = RT.SCALER_SET then
    decide (1 ≤ n) && (!setCounts.contains (leAt b 0 1)
      || n == 4 + 128 * (setCounts.filter fun c => decide (c ≤ leAt b 0 1)).foldl (· + ·) 0)
  else if type = RT.REEL then decide (2 ≤ n) && n == 4 + 4 * leAt b 0 2
  else true

/-- The record types R55 lists. -/
def listedTypes : List Nat :=
  [RT.DRAM_MAP, RT.PORT, RT.FRAME_CLOCK, RT.STREAM, RT.NODE, RT.LAYER, RT.ENSEMBLE, RT.SELECT, RT.OUTPUT_TIMING,
   RT.CHECK_ASSIGN, RT.GUARD_POLICY, RT.SCALER_SET, RT.TOUCH_HEAD, RT.TWIN, RT.CASCADE, RT.REEL, RT.DECODER_CONTEXT,
   RT.REMOVE]

/-- An informational type (R55). -/
def informational (type : Nat) : Bool := type.testBit 15

/-! ### Layout (R51, R53, R54, R60) -/

/-- All bytes of [a, c) are zero. -/
def zeroRange (b : List Byte) (a c : Nat) : Bool := (slice b a (c - a)).all (· == 0)

/-- The order of the catalogue: ascending by TYPE, then by ID, none twice. -/
def entryBelow (a b : CatEntry) : Bool := decide (a.type < b.type) || (a.type == b.type && decide (a.id < b.id))

/-- The records from catalogue index `i` lie as R54 says, the first at `pos`, `prev` before it; the verdict and the end
of the last. -/
def layoutRecs (b : List Byte) (sig : Nat) : List (Nat × CatEntry) → Option CatEntry → Nat → Verdict × Nat
  | [], _, pos => ({}, pos)
  | (i, e) :: t, prev, pos =>
    let last := e.off + 12 + e.len
    let ordered := match prev with
      | some p => entryBelow p e
      | none => true
    if ordered && e.off == pos && decide (pad8 last ≤ sig) && leAt b e.off 2 == e.type && leAt b (e.off + 2) 2 == e.id
        && leAt b (e.off + 4) 4 == e.len && zeroRange b last (pad8 last)
        && (informational e.type || bodyLenOk e.type (slice b (e.off + 8) e.len)) then
      layoutRecs b sig t (some e) (pad8 last)
    else ({ code := 7, record := i, object := e.id }, pos)

/-- REC_LAYOUT (R54, R55, R60): catalogue padding, every record, the signature block at once after the last. -/
def layoutCheck (b : List Byte) : Verdict :=
  let sig := imgLen b - 128
  let r := layoutRecs b sig (indexed (imgCat b)) none (imgCatEnd b)
  if !zeroRange b (64 + 12 * imgCount b + 4) (imgCatEnd b) then { code := 7 }
  else if r.1.code ≠ 0 then r.1
  else Verdict.need (r.2 == sig && slice b sig 4 == [0x52, 0x53, 0x49, 0x47] && zeroRange b (sig + 6) (sig + 8)
    && zeroRange b (sig + 104) (sig + 128)) 7

/-! ### Keys (R61) -/

/-- All key slots are EMPTY. -/
def State.unprovisioned (s : State) : Bool := s.mram.keys.all fun k => k.state == .empty

/-- The digest check of R61 for a slot. -/
def State.keySlotOk (s : State) (slot : Nat) (pub : List Byte) : Bool :=
  match s.mram.keys[slot]? with
  | some k => s.unprovisioned || (k.state == .active && k.digest == sha256 pub)
  | none => false

/-! ### The integrity checks (R63) -/

/-- The record CRCs (0x06): the first record whose CRC is wrong, wherever in the image it lies; a record that does not
lie inside the image is left to REC_LAYOUT. -/
def recCrcCheck (b : List Byte) : Verdict :=
  firstFail ((indexed (imgCat b)).map fun (i, e) =>
    if imgLen b < e.off + 12 + e.len then {}
    else if crcAt b e.off (8 + e.len) then {} else { code := 6, record := i, object := e.id })

/-- REC_TYPE (0x08). -/
def recTypeCheck (b : List Byte) : Verdict :=
  firstFail ((indexed (imgCat b)).map fun (i, e) =>
    if informational e.type || listedTypes.contains e.type then {} else { code := 8, record := i, object := e.id })

/-- IMG_KIND (0x0D): a delta offered as a boot copy (`boot`), or a full image that carries a REMOVE record (R70): that
record, the first in the catalogue, is the failing one (R72). -/
def imgKindCheck (b : List Byte) (boot : Bool) : Verdict :=
  if imgDelta b then Verdict.need (!boot) 0xD
  else firstFail ((indexed (imgCat b)).map fun (i, e) =>
    if e.type = RT.REMOVE then { code := 0xD, record := i, object := e.id } else {})

/-- The first failing integrity check of an image (R63); `boot`: it is offered as a boot copy. -/
def State.integrity (s : State) (src : List Byte) (boot : Bool) : Verdict :=
  if src.length < 64 then { code := 4 }
  else if slice src 0 4 ≠ [0x52, 0x48, 0x4E, 0x4D] then { code := 1 }
  else if leAt src 4 2 ≠ 1 ∨ leAt src 6 2 ≠ 64 then { code := 2 }
  else if !crcAt src 0 60 then { code := 3 }
  else if 4194304 < imgLen src ∨ src.length < imgLen src then { code := 4 }
  else
    let b := src.take (imgLen src)
    let sig := imgLen b - 128
    if leAt b 28 4 ≠ 64 ∨ imgCount b = 0 ∨ 16384 < imgCount b ∨ imgLen b < imgCatEnd b + 128 then { code := 5 }
    else if !crcAt b 64 (12 * imgCount b) then { code := 5 }
    else
      let kslot := leAt b (sig + 4) 1
      let pub := slice b (sig + 8) 32
      firstFail
        [recCrcCheck b, layoutCheck b, recTypeCheck b,
         Verdict.need (leAt b 32 2 == 0x4024 && leAt b 34 1 == 0xB1 && (leAt b 35 1).testBit s.cascadeId
           && (leAt b 36 1).testBit s.sideStrap) 9,
         Verdict.need (decide (s.mram.genFloor.toNat ≤ imgGen b)) 0xA,
         Verdict.need (decide (kslot ≤ 3) && s.keySlotOk kslot pub) 0xB,
         Verdict.need (leAt b (sig + 5) 1 == 1 && ed25519 pub (slice b (sig + 40) 64) (slice b 0 sig)) 0xC,
         imgKindCheck b boot]

/-- The bytes of an image over TOTAL_LEN (R65). -/
def imgTrim (b : List Byte) : List Byte := b.take (imgLen b)

end Sys2Proof.Machine
end

