-- ==== Sys2Proof/Machine/Mem.lean ====
section
/-!
DEFINITION. Machine/Mem.lean: the memory controller: scheduling (R279 to R282), refresh and temperature (R283 to R288),
training and operating points (R289 to R292), error correction (R293 to R295), retirement (R296 to R300).
-/
namespace Sys2Proof.Machine

/-! ### Rank words -/

/-- REFRESH_CTRL.POSTPONE_MAX: 0 acts as 1, 5 to 7 act as 4. -/
def State.postponeMax (s : State) : Nat := max 1 (min 4 (s.fld Reg.MEM_REFRESH_CTRL 2 0))

/-! ### Alarms (R304, R550) -/

/-- TEMP_ALARM: a sensor's condition, or a rank that reports OVERTEMP (R284, R550). -/
def State.tempAlarm (s : State) : State :=
  let ot := ranks.any fun i => s.bit (Reg.MEM_RANK_STATUS i) 24
  (s.setBit Reg.THM_STATUS 30 ot).hold .tempAlarm (s.bit Reg.THM_STATUS 31 || ot)

/-! ### Retirement (R296 to R300) -/

/-- The spare of a channel that is SPARE_READY and serves no rank. -/
def State.readySpare (s : State) (c : Nat) : Option Nat :=
  (chRanks c).find? fun i => s.rankRole i == 3 && s.rankState i == 8 && !s.bit (Reg.MEM_RANK_STATUS i) 22

/-- The rank whose addresses rank `i` serves: FOR_RANK of a substitute, itself otherwise. -/
def State.servedRank (s : State) (i : Nat) : Nat :=
  if s.bit (Reg.MEM_RANK_STATUS i) 22 then s.fld (Reg.MEM_RANK_STATUS i) 21 18 else i

/-- Every stream whose held frame has a tile that reads poison is FAILED with sub-cause POISON (R297, R433). -/
def State.poisonStreams (s : State) : State :=
  s.streamIds.foldl (fun t i =>
    if t.heldPoisoned i then t.evalStream i { t.stream i with poison := true } else t) s

/-- Every running decoder context is discarded as by DEC_CTRL 2, its stream FAILED with MISSING_REF until a clean IRAP
or IDR decodes (R297). -/
def State.poisonContexts (s : State) : State :=
  (List.range 256).foldl (fun t c =>
    let x := t.ctx c
    if x.st = 0 then t
    else
      let t1 := t.setCtx c { x.waitIrap with cpb := [], dpb := [], au := none, ref := none, chain := 2 }
      match t1.ctxBody c with
      | some b =>
        let v := t1.stream (leAt b 0 2)
        if v.on && v.kind == 1 then t1.evalStream (leAt b 0 2) { v with chain := 2 } else t1
      | none => t1) s

/-- What the loss of HOT contents does (R297): streams, decoder contexts, and an IRAP from every encoder. -/
def State.contentsLost (s : State) : State :=
  let s1 := s.poisonStreams.poisonContexts
  { s1 with encIrap := [0, 1, 2, 3].filter fun e => s1.encIrap.contains e || s1.fld (Reg.ENC_STATUS e) 31 29 != 0 }

/-- A rank is marked retired, with its cause, in MRAM and its history (R296, R519). -/
def State.markRetired (s : State) (i cause : Nat) : State :=
  let s1 := { s with mram := { s.mram with retired := s.mram.retired ++ [(i, cause)] } }
  ((s1.history 0x09 (i * 256 + cause) []).setRankState i 6).setDebt i 0

/-- Rank `i` is retired and leaves service at once (R299, R300): the addresses it serves read as poison. -/
def State.outOfService (s : State) (i cause : Nat) : State :=
  let t := s.markRetired i cause
  { t with mem := { t.mem with dead := i :: t.mem.dead } }.contentsLost

/-- The next waiting copy begins once none runs (R298). -/
def State.nextCopy (s : State) : State :=
  if s.bit Reg.MEM_MIGRATE 31 then s
  else match s.mem.copies with
    | [] => s
    | e :: l => { s with mem := { s.mem with copies := l } }.setReg Reg.MEM_MIGRATE (w32 (2 ^ 31 + e.1 * 2 ^ 24 + e.2 * 2 ^ 20))

/-- A hold ends once no training gathers data (R292). -/
def State.endHold (s : State) : State :=
  if ranks.any fun i => s.rankState i == 4 then s else s.setBit Reg.MEM_OP_STATUS 29 false

/-- Retirement of rank `i` (R296 to R300): cause 0 uncorrectable read, 1 uncorrectable write, 2 training, 3 host. -/
def State.retire (s : State) (i cause : Nat) : State :=
  if s.mram.retired.any fun e => e.1 == i then s
  else
    let home := s.servedRank i
    let role := s.rankRole home
    let migrating := s.migrating i
    let spare := s.readySpare (i / 4)
    let out : State :=
      if s.rankState i = 0 ∨ role = 0 ∨ (role = 3 ∧ home = i) then (s.markRetired i cause)
      else match spare with
        | some j =>
          if home ≠ i then s.outOfService i cause
          else if role = 1 then
            let t := s.markRetired i cause
            let w := wput (wput (t.reg (Reg.MEM_RANK_STATUS j)) 22 18 (16 + i)) 31 28 1
            let t' := { t with mem := { t.mem with lost := (i, []) :: t.mem.lost, mr4 := j :: t.mem.mr4 } }
            (t'.setReg (Reg.MEM_RANK_STATUS j) (wput w 3 0 0)).contentsLost
          else if (chRanks (i / 4)).any s.migrating then s.outOfService i cause
          else
            let t := { s with mram := { s.mram with retired := s.mram.retired ++ [(i, cause)] } }.history 0x09 (i * 256 + cause) []
            let w := wput (wput (t.reg (Reg.MEM_RANK_STATUS j)) 22 18 (16 + i)) 3 0 0
            let u := { t with mem := { t.mem with copies := t.mem.copies ++ [(i, j)], mr4 := j :: t.mem.mr4 } }
            ((u.setRankState i 5).setReg (Reg.MEM_RANK_STATUS j) w).nextCopy
        | none => s.outOfService i cause
    if migrating then s else out.memAlarms.endHold

/-- A rank fails training (R289, R290, R292). -/
def State.trainFailed (s : State) (i : Nat) : State :=
  ((s.setBit (Reg.MEM_RANK_STATUS i) 23 true).memError 2 i 15 7 0).memAlarms.retire i 2

/-- RETIRE (R296): a write of MEM.RETIRE with the key, naming rank `i`. -/
def State.memRetireWrite (s : State) (v : Word) : State :=
  let i := wbits v 3 0
  if wbits v 31 16 ≠ 0x3C5A then s
  else if wbit v 15 then
    { s with mram := { s.mram with retireClear := i :: s.mram.retireClear } }
  else if s.mram.retired.any fun e => e.1 == i then s
  else ((s.memError 3 i 15 7 0).retire i 3)

/-- RETIRE (R296): a keyed write of MEM.RETIRE, an X register. -/
def execRetire (p : Port) (i : Nat) (s : State) : Res :=
  let v := w32 (0x3C5A * 2 ^ 16 + i % 16)
  s.hostWriteX p Reg.MEM_RETIRE v fun t => t.memRetireWrite v

/-- RETIRE_CLEAR (R296): a keyed write of MEM.RETIRE with CLEAR; it takes effect at the next device reset. -/
def execRetireClear (p : Port) (i : Nat) (s : State) : Res :=
  let v := w32 (0x3C5A * 2 ^ 16 + 2 ^ 15 + i % 16)
  s.hostWriteX p Reg.MEM_RETIRE v fun t => t.memRetireWrite v

/-- MiB of a rank of the map in force (R273). -/
def State.rankMib (s : State) : Nat := if s.bit Reg.MEM_CONFIG 27 then 32768 else 16384

/-- Lines of DRAM the copy could not correct: poison in the spare, and uncorrectable reads of the retiring rank `i`
(R294, R298). -/
def State.copyPoison (s : State) (i : Nat) (bad : List Nat) : State :=
  (bad.foldl (fun (t : State) l =>
    let u := (t.addSat (Reg.MEM_RANK_ECC i) 15 8 1).memError 0 i 15 7 (128 * l)
    { u with mem := { u.mem with poison := l :: u.mem.poison } }) s).memAlarms

/-- The device line of 128-byte line `n` of COLD rank `i` (R276): its place in the rank set, whose four-access stripes
it has one access of. -/
def State.coldLine (s : State) (i n : Nat) : Nat :=
  let k := ((chRanks (i / 4)).filter fun j => s.rankRole j == 2).idxOf i
  let a := k * 2 ^ (20 + s.rowBits) + 512 * n
  (s.hotBytes + a) / 128 + (i / 4 ^^^ bitsN a 21 20)

/-- The lines that a copy of rank `i` from MiB `a` to MiB `b` cannot correct: any of them, a free choice (assumption
60). -/
def State.copyBad (s : State) (i a b : Nat) : List Nat :=
  let n := 8192 * (b - a)
  ((List.range (Config.freeNat s.free % (n + 1))).map fun k =>
    s.coldLine i (8192 * a + Config.freeNat (s.free + 1 + k) % n)).eraseDups

/-- The copy of the running migration goes on to MiB `mib` of the rank (R298). -/
def State.copyTo (s : State) (mib : Nat) : State :=
  let i := s.fld Reg.MEM_MIGRATE 27 24
  let at' := s.fld Reg.MEM_MIGRATE 17 0
  if mib ≤ at' then s
  else
    ((s.copyPoison i (s.copyBad i at' mib)).takeFree (1 + Config.freeNat s.free % (8192 * (mib - at') + 1))).setFld
      Reg.MEM_MIGRATE 17 0 mib

/-- A CLK_F cycle of a running migration (R298): whether the copy passes the next MiB in it is a free choice, the time a
copy takes being open (assumption 60). Its end is MIGRATION_DONE. -/
def State.copyStep (s : State) : State :=
  if !s.bit Reg.MEM_MIGRATE 31 then s
  else if Config.freeBool s.free ∧ s.fld Reg.MEM_MIGRATE 17 0 + 1 < s.rankMib then
    s.nextFree.copyTo (s.fld Reg.MEM_MIGRATE 17 0 + 1)
  else s.nextFree

/-- MIGRATION_DONE (R298): the copy of the running migration reaches the end of the rank: the retiring rank leaves
service, and the spare, unless it has been retired itself (R300), serves in its place. -/
def execMigrationDone (s : State) : Res :=
  if !s.bit Reg.MEM_MIGRATE 31 then .next s
  else
    let i := s.fld Reg.MEM_MIGRATE 27 24
    let j := s.fld Reg.MEM_MIGRATE 23 20
    let s1 := s.copyTo s.rankMib
    let s2 := ((s1.setRankState i 6).setDebt i 0).setBit Reg.MEM_MIGRATE 31 false
    .next (if s2.rankState j = 6 then s2 else s2.setRankState j 1).nextCopy

/-! ### Requests (R279 to R282) -/

/-- Requests held by channel `c`. -/
def State.pool (s : State) (c : Nat) : List MemReq := Cells.get (fun _ => []) s.mem.pool c

/-- Set the pool of channel `c`: POOL_USED follows, and write mode (R282). LOW above HIGH acts as HIGH. -/
def State.setPool (s : State) (c : Nat) (l : List MemReq) : State :=
  let s1 := { s with mem := { s.mem with pool := Cells.put (fun _ => []) s.mem.pool c l } }
  let w := (l.filter (·.write)).length
  let hasRead := l.any fun r => !r.write
  let high := s.fld Reg.MEM_WRITE_DRAIN 15 8
  let low := min high (s.fld Reg.MEM_WRITE_DRAIN 7 0)
  let mode := s.bit (Reg.MEM_CH_STATUS c) 31
  let mode1 := if mode then !(decide (w ≤ low) && hasRead) else decide (high ≤ w) || !hasRead
  (s1.setFld (Reg.MEM_CH_STATUS c) 24 16 l.length).setBit (Reg.MEM_CH_STATUS c) 31 mode1

/-- The write modes of the channels under the thresholds in force (R282, R304). -/
def State.drainModes (s : State) : State := [0, 1, 2, 3].foldl (fun t c => t.setPool c (t.pool c)) s

/-- Bank number of an address's place on the rank that serves it. -/
def bankOf (p : DramPlace) (rank : Nat) : Nat := rank * 32 + p.group * 4 + p.bank

/-- Bank and row of a request. -/
def State.reqBank (s : State) (r : MemReq) : Nat × Nat :=
  match s.dramHome r.addr with
  | some (p, i) => (bankOf p (s.servingRank r.addr i), p.row)
  | none => (0, 0)

/-- Requests that wait at the ports of channel `c`. -/
def State.waiting (s : State) (c : Nat) : List MemReq := Cells.get (fun _ => []) s.mem.waiting c

/-- Set them. -/
def State.setWaiting (s : State) (c : Nat) (l : List MemReq) : State :=
  { s with mem := { s.mem with waiting := Cells.put (fun _ => []) s.mem.waiting c l } }

/-- Two requests to the same line. -/
def MemReq.sameLine (a b : MemReq) : Bool := a.addr / 128 == b.addr / 128

/-- The pool of channel `c` has an entry for port `p` (R279): at most 256 in all, 96 of one port. -/
def State.poolTakes (s : State) (c p : Nat) : Bool :=
  let l := s.pool c
  decide (l.length < 256) && decide ((l.filter fun x => x.port == p).length < 96)

/-- A request enters the pool of its channel, or waits at its port (R279), behind an earlier one of its line that waits
there. A read that matches a queued write returns that write's data. -/
def State.memEnter (s : State) (r : MemReq) : State :=
  match s.dramHome r.addr with
  | none => s.busError 0 0 (s.qosOf 0) r.write true r.addr 0xFF
  | some (p, i) =>
    let s1 := s.wakeRank (s.servingRank r.addr i)
    let l := s1.pool p.chan
    let q := s1.waiting p.chan
    if q.any r.sameLine then s1.setWaiting p.chan (q ++ [r])
    else match (if r.write then none else l.reverse.find? fun x => x.write && x.sameLine r && !x.settled) with
      | some w => s1.emit (.memData r.port r.addr w.data false)
      | none => if s1.poolTakes p.chan r.port then s1.setPool p.chan (l ++ [r]) else s1.setWaiting p.chan (q ++ [r])

/-- MEM_REQUEST (R279): a request of 128 bytes through memory port `port`. -/
def execMemRequest (port : Nat) (write : Bool) (addr : Nat) (data : List Byte) (s : State) : Res :=
  if s.ready && decide (port < 8) then
    .next (s.memEnter { port := port, write := write, addr := addr / 128 * 128, data := data.take 128, arr := s.uptime })
  else .next s

/-- Urgency of a request (R280): min(3, BASE + 2 × age // TARGET), age in ns. -/
def State.urgency (s : State) (r : MemReq) : Nat :=
  let w := s.reg (Reg.MEM_PORT_QOS r.port)
  let target := wbits w 15 0
  let age := (s.uptime - r.arr) * 5 / 3
  min 3 (wbits w 31 30 + if target = 0 then 0 else 2 * age / target)

/-- What a bank offers (R281): its oldest request, or, with an open row, the oldest of the first 8 that hits the row
with the oldest request's urgency; never one that would overtake an older request of its line (R279). -/
def State.bankOffer (s : State) (c bank : Nat) : Option MemReq :=
  let q := (s.pool c).filter fun r => (s.reqBank r).1 == bank
  match q with
  | [] => none
  | o :: _ =>
    let row := Cells.get (fun _ => 0) s.mem.rows bank
    match (q.take 8).zipIdx.find? fun e => (s.reqBank e.1).2 + 1 == row && s.urgency e.1 == s.urgency o
        && !((q.take e.2).any e.1.sameLine) with
    | some h => some h.1
    | none => some o

/-- The first bank after `last` in rotating order (R281). -/
def firstAfter (l : List (Nat × MemReq)) (last : Nat) : Option (Nat × MemReq) :=
  l.foldl (fun a e => match a with
    | none => some e
    | some b => if (e.1 + 512 - last - 1) % 512 < (b.1 + 512 - last - 1) % 512 then some e else some b) none

/-- The pick of channel `c` among the banks whose timing is met (R281). -/
def State.memPick (s : State) (c : Nat) (banks : List Nat) : Option (Nat × MemReq) :=
  let offers := banks.filterMap fun b => (s.bankOffer c b).map fun r => (b, r)
  let u := offers.foldl (fun m e => max m (s.urgency e.2)) 0
  let l := offers.filter fun e => s.urgency e.2 == u
  let oldest := l.foldl (fun m e => min m e.2.arr) (l.foldl (fun m e => max m e.2.arr) 0)
  let l1 :=
    if u = 3 then l.filter fun e => e.2.arr == oldest
    else
      let mode := s.bit (Reg.MEM_CH_STATUS c) 31
      let a := l.filter fun e => e.2.write == mode
      let b := if a.isEmpty then l else a
      let h := b.filter fun e => (s.reqBank e.2).2 + 1 == Cells.get (fun _ => 0) s.mem.rows e.1
      if h.isEmpty then b else h
  firstAfter l1 (Cells.get (fun _ => 0) s.mem.lastBank c)

/-- Rank `i` is in active mode: ACTIVE, MIGRATING, or a spare being filled, copied to or scrubbed (R283, R288, R298). -/
def State.activeMode (s : State) (i : Nat) : Bool :=
  [1, 5, 7].contains (s.rankState i)
    || (s.rankState i == 8 && (s.bit (Reg.MEM_RANK_STATUS i) 22 || s.mem.scrubbed == some i))

/-- Requests to rank `i` are held back for its next REF (R283, R285). -/
def State.refreshHolds (s : State) (i : Nat) : Bool :=
  s.rankState i == 3 || (s.activeMode i && decide (s.postponeMax ≤ s.debt i))

/-- No request reaches rank `i`: refresh holds it, it is being trained (R290), it is in self-refresh, or its MR4 has not
been read since (R284, R287). -/
def State.rankHeld (s : State) (i : Nat) : Bool :=
  s.refreshHolds i || s.rankState i == 4 || s.rankState i == 2 || s.mem.mr4.contains i

/-- Rank `i` leaves its mode for CATCH_UP or TRAINING, and returns from it. -/
def State.leaveMode (s : State) (i v : Nat) : State :=
  { s with mem := { s.mem with back := Cells.put (fun _ => 0) s.mem.back i (s.rankState i) } }.setRankState i v
def State.returnMode (s : State) (i : Nat) : State :=
  let v := Cells.get (fun _ => 0) s.mem.back i
  { s with mem := { s.mem with back := Cells.put (fun _ => 0) s.mem.back i 0 } }.setRankState i (if v = 0 then 1 else v)

/-- Rank `i` issues a REF now: in catch-up, at POSTPONE_MAX, or with empty bank queues and a debt (R283, R285). -/
def State.refreshDue (s : State) (i : Nat) : Bool :=
  decide (1 ≤ s.debt i) && (s.refreshHolds i
    || (s.activeMode i && !((s.pool (i / 4)).any fun r => (s.reqBank r).1 / 32 == i)))

/-- A REF of rank `i` (R283, R285): the debt falls by 1, catch-up ends at POSTPONE_MAX, its banks are closed. -/
def State.issueRef (s : State) (i : Nat) : State :=
  let s1 := s.setDebt i (s.debt i - 1)
  let s2 := { s1 with mem := { s1.mem with rows := s1.mem.rows.filter fun e => e.1 / 32 != i } }
  if s2.rankState i = 3 ∧ s2.debt i ≤ s2.postponeMax then s2.returnMode i else s2

/-- Errors a device access meets: none, one device corrected, or more than can be corrected (R293, R294). -/
def State.eccCorrected (s : State) (i dev : Nat) : State :=
  ((s.addSat (Reg.MEM_RANK_ECC i) 31 16 1).setFld (Reg.MEM_RANK_ECC i) 7 4 dev).raise .eccCorr

/-- An uncorrectable read of a line (R294, R296): the line reads as poison from now on, the rank is retired. -/
def State.eccUncorrected (s : State) (i port addr : Nat) : State :=
  let s1 := s.countUncorr 0 i port addr
  { s1 with mem := { s1.mem with poison := addr / 128 :: s1.mem.poison } }.retire i 0

/-- What the syndromes of an access's codewords find (R293), one entry a codeword: 0 no error, d + 1 names device d,
11 names none. The access is corrected only where every codeword that needs it names the same device. The answer: 0 no
error, d + 1 device d corrected, 11 uncorrectable. -/
def eccOutcome (l : List Nat) : Nat :=
  match (l.filter (0 < ·)).eraseDups with
  | [] => 0
  | [d] => if d ≤ 10 then d else 11
  | _ => 11

/-- One device read: its data or poison, with what the codewords of the access find. A line that holds the poison
pattern is uncorrectable again at each read; it retires no rank, the pattern being the controller's own (DESIGN
CHOICE, assumption 59). A rank out of service is not read. -/
def State.eccRead (s : State) (i port addr : Nat) (codewords : List Nat) : State × Option (List Byte) :=
  let ecc := eccOutcome codewords
  match s.fetchNow addr 128 with
  | none => (if s.dramTakes addr then s.countUncorr 0 i port addr else s, none)
  | some l =>
    if ecc = 0 then (s, some l)
    else if ecc ≤ 10 then (s.eccCorrected i (ecc - 1), some l)
    else (s.eccUncorrected i port addr, none)

/-- Requests that had waited enter again, in their order. -/
def State.readmit (s : State) (l : List MemReq) : State := l.foldl State.memEnter s

/-- A request is served (R279, R294); the oldest request waiting at a port that now fits enters the pool. -/
def State.memServe (s : State) (c bank : Nat) (r : MemReq) (ecc : List Nat) : State :=
  let l := s.pool c
  let row := (s.reqBank r).2
  let s1 := s.setPool c (l.erase r)
  let s2 := { s1 with mem := { s1.mem with rows := Cells.put (fun _ => 0) s1.mem.rows bank (row + 1),
                                           lastBank := Cells.put (fun _ => 0) s1.mem.lastBank c bank } }
  let s3 :=
    if r.write then (if r.settled then s2 else s2.storeNow r.addr r.data).rawSurfaces r.addr (r.addr + 128)
    else
      let x := s2.eccRead (bank / 32) r.port r.addr ecc
      let got := if r.settled then x.2.bind (fun _ => if r.data.isEmpty then none else some r.data) else x.2
      x.1.emit (.memData r.port r.addr (got.getD []) got.isNone)
  let q := s3.waiting c
  match q.zipIdx.find? fun w => s3.poolTakes c w.1.port && !((q.take w.2).any w.1.sameLine) with
  | some w => (s3.setWaiting c ((q.eraseIdx w.2).filter fun x => !x.sameLine w.1)).readmit
      (w.1 :: (q.eraseIdx w.2).filter fun x => x.sameLine w.1)
  | none => s3

/-- DRAM_COMMAND_ISSUE (R281): channel `c` issues the next refresh, or the next request, whose timing is met. `refs` and
`banks`: ranks and banks whose timing constraints of R303 are met now; `ecc`: what the codewords of a read find. -/
def execDramCommandIssue (c : Nat) (refs banks ecc : List Nat) (s : State) : Res :=
  if !s.ready || decide (4 ≤ c) then .next s
  else match refs.find? fun i => i / 4 == c && s.refreshDue i with
    | some i => .next (s.issueRef i)
    | none => match s.memPick c (banks.filter fun b => b / 128 == c && !s.rankHeld (b / 32)) with
      | some (b, r) => .next (s.memServe c b r ecc)
      | none => .next s

/-! ### Refresh and temperature (R283 to R288) -/

/-- REFRESH_TICK (R283): the refresh interval of rank `i` elapses, in active mode, catch-up or training. -/
def execRefreshTick (i : Nat) (s : State) : Res :=
  if i < 16 ∧ (s.activeMode i || s.rankState i == 3 || s.rankState i == 4) then .next (s.setDebt i (s.debt i + 1)) else .next s

/-- The debt recounted at a rate change (R284). -/
def recount (to2x : Bool) (debt : Nat) : Nat := if to2x then 2 * debt else cdiv debt 2

/-- MR4_READ (R284 to R286): rank `i` reports the need of its worst device: 0 for 1×, 1 for 2×, 2 above 2×. -/
def execMr4Read (i need : Nat) (s : State) : Res :=
  if i < 16 ∧ (s.activeMode i || s.rankState i == 3) then
    let to2x := decide (1 ≤ need)
    let s0 : State := { s with mem := { s.mem with mr4 := s.mem.mr4.filter fun k => k != i } }
    let s1 := s0.setBit (Reg.MEM_RANK_STATUS i) 24 (decide (2 ≤ need))
    if to2x = s.bit (Reg.MEM_RANK_STATUS i) 25 then .next s1.tempAlarm
    else
      let d := s.debt i
      let d1 := min 15 (recount to2x d)
      let s2 := (s1.setBit (Reg.MEM_RANK_STATUS i) 25 to2x).setDebt i d1
      let s3 := (s2.setReg Reg.MEM_TEMP_LOG (w32 ((if to2x then 2 ^ 31 else 0) + i * 2 ^ 24 + d * 2 ^ 8 + d1))).setReg
        Reg.MEM_TEMP_TS s.ts
      let s4 := if s3.postponeMax < d1 ∧ s3.activeMode i then s3.leaveMode i 3 else s3
      let s5 := if s4.rankState i = 3 ∧ d1 ≤ s4.postponeMax then s4.returnMode i else s4
      .next (s5.raise .tempStep).tempAlarm
  else .next s

/-- SELF_REFRESH_ENTRY (R287): a COLD rank without a request for SR_IDLE, under SR_COLD, pays its debt and enters
self-refresh. -/
def execSelfRefreshEntry (i : Nat) (s : State) : Res :=
  if i < 16 ∧ s.rankRole i = 2 ∧ s.rankState i = 1 ∧ s.bit Reg.MEM_CONFIG 26
      ∧ !((s.pool (i / 4)).any fun r => (s.reqBank r).1 / 32 == i) then
    .next ((s.setDebt i 0).setRankState i 2)
  else .next s

/-- SPARE_FILL_DONE (R288): the poison fill of spare `i` ends. -/
def execSpareFillDone (i : Nat) (s : State) : Res :=
  if i < 16 ∧ s.rankState i = 7 then .next (s.setRankState i 8) else .next s

/-! ### Training and operating points (R289 to R292) -/

/-- Both operating points of rank `i` are trained. -/
def State.trained (s : State) (i : Nat) : Bool := s.fld (Reg.MEM_RANK_TRAIN i) 1 0 == 3

/-- The eye widths of rank `i` at the point in force, from its stored values (R289, R291). -/
def State.showMargins (s : State) (i : Nat) : State :=
  let v := Cells.get (fun _ => 0) s.mram.trained (2 * i + if s.bit Reg.MEM_OP_STATUS 31 then 1 else 0)
  if v = 0 then s
  else (s.setFld (Reg.MEM_RANK_TRAIN i) 31 24 ((v - 1) / 256)).setFld (Reg.MEM_RANK_TRAIN i) 23 16 ((v - 1) % 256)

/-- TRAINING_PASS_DONE (R289): a pass of rank `i` at point `pt` completes with its eye widths; its values are stored. -/
def execTrainingPassDone (i pt rd wr : Nat) (s : State) : Res :=
  if i < 16 ∧ pt < 2 ∧ s.rankState i = 4 then
    let s1 := { s with mram := { s.mram with trained := Cells.put (fun _ => 0) s.mram.trained (2 * i + pt) (rd * 256 + wr + 1) } }
    let s2 := s1.setBit (Reg.MEM_RANK_TRAIN i) pt true
    let s3 := s2.showMargins i
    .next (if s3.trained i then (s3.returnMode i).endHold else s3)
  else .next s

/-- TRAINING_PASS_TIMEOUT (R289): a pass of rank `i` has not completed within 150 ms. -/
def execTrainingPassTimeout (i : Nat) (s : State) : Res :=
  if i < 16 ∧ s.rankState i = 4 then .next (s.trainFailed i).endHold else .next s

/-- RETRAIN (R290): the periodic retraining of rank `i` begins (`result` none), or ends: 0 its margins hold, 1 they hold
on the repetition, 2 they fail twice. It waits during catch-up (R285); the rank receives no traffic meanwhile. -/
def execRetrain (i : Nat) (result : Option Nat) (s : State) : Res :=
  match result with
  | none => if i < 16 ∧ s.activeMode i then .next (s.leaveMode i 4) else .next s
  | some r =>
    if i < 16 ∧ s.rankState i = 4 ∧ s.trained i then
      let s1 := (s.returnMode i).endHold
      let s2 := if 1 ≤ r then s1.addSat (Reg.MEM_RANK_TRAIN i) 15 8 1 else s1
      .next (if 2 ≤ r then s2.trainFailed i else s2)
    else .next s

/-- A write of MEM.OP_CTRL (R291, R292): TARGET is kept; REQ requests a switch, which replaces a pending one and does
nothing for the point already in force. A training that gathers data holds the switch. -/
def State.opCtrlWrite (s : State) (v : Word) : State :=
  let s1 := s.setBit Reg.MEM_OP_CTRL 0 (wbit v 0)
  if !wbit v 31 then s1
  else if wbit v 0 = s1.bit Reg.MEM_OP_STATUS 31 then s1
  else
    let s2 : State := { s1 with mem := { s1.mem with switchAt := s1.fld (Reg.CMD_FCLK_COUNT 0) 31 0, switchTo := wbit v 0,
                                                     abandoned := false } }
    (s2.setBit Reg.MEM_OP_STATUS 30 true).setBit Reg.MEM_OP_STATUS 29 (ranks.any fun i => s2.rankState i == 4)

/-- OP_SWITCH_REQUEST (R291): a write of MEM.OP_CTRL with REQ, an X register. -/
def execOpSwitchRequest (p : Port) (target : Bool) (s : State) : Res :=
  let v := w32 (2 ^ 31 + if target then 1 else 0)
  s.hostWriteX p Reg.MEM_OP_CTRL v fun t => t.opCtrlWrite v

/-- The switch itself (R291): ranks through self-refresh, the requested point's values in force. -/
def State.opSwitch (s : State) (pause : Nat) : State :=
  let s1 := ranks.foldl (fun (t : State) i =>
    if t.activeMode i then { t with mem := { t.mem with mr4 := i :: t.mem.mr4 } }.setDebt i 0 else t) s
  let w := s1.reg Reg.MEM_OP_STATUS
  let n := min 0xFFFF (wbits w 15 0 + 1)
  let v := (if s1.mem.switchTo then 2 ^ 31 else 0) + (if s1.mem.abandoned then 2 ^ 28 else 0) + min pause 255 * 2 ^ 16 + n
  let s2 := s1.setReg Reg.MEM_OP_STATUS (w32 v)
  ranks.foldl State.showMargins { s2 with mem := { s2.mem with rows := [], abandoned := false } }

/-- A pending switch whose time has come (R291, R292): an FCLK0 commit point has passed since the request. It is held while
training gathers data, and waits while a rank catches up (R285). -/
def State.switchNow (s : State) (pause : Nat) : State :=
  if s.bit Reg.MEM_OP_STATUS 30 ∧ s.fld (Reg.CMD_FCLK_COUNT 0) 31 0 ≠ s.mem.switchAt then
    if ranks.any fun i => s.rankState i == 4 then s.setBit Reg.MEM_OP_STATUS 29 true
    else if ranks.any fun i => s.rankState i == 3 then s
    else s.opSwitch pause
  else s

/-- OP_SWITCH (R291, R292): at an FCLK0 commit point after the request. `pause`: its length in µs. -/
def execOpSwitch (pause : Nat) (s : State) : Res := .next (s.switchNow pause)

/-- SWITCH_HOLD_EXPIRE (R292): the hold limit passes; the training is abandoned, its ranks retired, and the switch made
without them, once a commit point has passed and no rank catches up (R285, R291). -/
def execSwitchHoldExpire (pause : Nat) (s : State) : Res :=
  if s.bit Reg.MEM_OP_STATUS 29 then
    let s1 := (ranks.filter fun i => s.rankState i == 4).foldl State.trainFailed s
    .next ({ s1.endHold with mem := { s1.mem with abandoned := true } }.switchNow pause)
  else .next s

/-! ### Write CRC and scrub (R294, R295) -/

/-- WRITE_CRC_ALERT (R295): a write to `addr` through memory port `port` raises an alert; `ninth`: it fails after 8
replays. -/
def execWriteCrcAlert (addr port : Nat) (ninth : Bool) (s : State) : Res :=
  match s.dramHome addr with
  | some (p, h) =>
    let i := s.servingRank addr h
    let s1 := (s.addSat (Reg.MEM_CH_STATUS p.chan) 15 0 1).raise .wcrcAlert
    .next (if ninth then (s1.countUncorr 1 i port addr).retire i 1 else s1)
  | none => .next s

/-- Spares of the map, in ascending order: patrol scrub reads them after the addressed space (R294). -/
def State.spares (s : State) : List Nat := ranks.filter fun i => s.rankRole i == 3 && s.rankState i != 6

/-- The rank that patrol scrub reads at place `pos`: a serving rank of the addressed space, or a spare. -/
def State.scrubRank (s : State) (pos : Nat) : Option Nat :=
  match s.dramHome pos with
  | some (_, h) => some (s.servingRank pos h)
  | none => s.spares[(pos - s.dramSize) / (s.rankMib * 2 ^ 20)]?

/-- Patrol scrub makes its request to rank `i`: it leaves self-refresh for it, a spare too (R287, R288, R294). -/
def State.scrubWake (s : State) (i : Nat) : State :=
  if s.rankState i = 8 && !s.activeMode i then
    { s with mem := { s.mem with scrubbed := some i, mr4 := i :: s.mem.mr4 } }.setDebt i 0
  else s.wakeRank i

/-- Patrol scrub reads the line at place `pos` of rank `i` (R294). A spare that serves in place of a rank is read under
that rank's addresses. One that serves no rank holds the poison pattern: only a correction counts there (DESIGN CHOICE,
assumption 59). -/
def State.scrubRead (s : State) (i pos : Nat) (ecc : List Nat) : State :=
  if pos < s.dramSize then ((s.settleReqs pos (pos + 128)).eccRead i 7 pos ecc).1
  else
    let e := eccOutcome ecc
    if 1 ≤ e ∧ e ≤ 10 ∧ !s.bit (Reg.MEM_RANK_STATUS i) 22 then s.eccCorrected i (e - 1) else s

/-- Patrol scrub goes on to place `n`; a spare it has left returns to self-refresh (R288). SCRUB_POS shows the low 38 bits
(R304; of a place beyond the addressed space a DESIGN CHOICE, assumption 59). -/
def State.scrubTo (s : State) (n : Nat) : State :=
  let keep := s.mem.scrubbed.filter fun i => s.scrubRank n == some i
  { s with mem := { s.mem with scrubPos := n, scrubbed := keep } }.setPair Reg.MEM_SCRUB_POS_LO (BitVec.ofNat 64 (n % 2 ^ 38))

/-- A write of MEM.SCRUB_CTRL (R304): a spare that patrol scrub no longer reads returns to self-refresh (R288). -/
def State.scrubCtrlWrite (s : State) (w : Word) : State :=
  { s with mem := { s.mem with scrubbed := if wbit w 31 then s.mem.scrubbed else none } }.setReg Reg.MEM_SCRUB_CTRL w

/-- SCRUB_STEP (R294): patrol scrub reads the next line of installed space, HOT, COLD, then each spare; `ecc` as for a
read. A request that its rank cannot take now waits (R283 to R290). -/
def execScrubStep (ecc : List Nat) (s : State) : Res :=
  if !s.ready || !s.bit Reg.MEM_SCRUB_CTRL 31 then .next s
  else
    let pos := s.mem.scrubPos
    let n := if pos + 128 < s.dramSize + s.spares.length * s.rankMib * 2 ^ 20 then pos + 128 else 0
    match s.scrubRank pos with
    | none => .next (s.scrubTo n)
    | some i =>
      let t := s.scrubWake i
      .next (if t.rankHeld i then t else (t.scrubRead i pos ecc).scrubTo n)

/-! ### The map of a structure (R274, R276, R288, R303) -/

/-- DRAM clock in units of 0.1 GHz by rate code (R273, R274). -/
def rateClock (code : Nat) : Nat := match code with | 0 => 32 | 1 => 28 | _ => 24

/-- Parameter `k` of R303 in tCK at a rate and density. -/
def timingParam (k code density : Nat) : Nat :=
  let f := rateClock code
  let ns100 := fun v => cdiv (v * f) 1000
  match k with
  | 0 => 52 | 1 => 50 | 2 => ns100 1625 | 3 => ns100 1625 | 4 => ns100 3200 | 5 => 8 | 6 => ns100 500 | 7 => 32 | 8 => 8
  | 9 => ns100 500 | 10 => ns100 3000 | 11 => ns100 250 | 12 => ns100 1000 | 13 => ns100 750
  | 14 => ns100 (if density = 1 then 41000 else 29500)
  | _ => ns100 390000

/-- The DRAM_MAP of a structure takes effect (R274 to R276, R288): contents are not carried over. -/
def State.memLoad (s : State) (b : List Byte) : State :=
  let role := fun i => leAt b 0 4 / 4 ^ i % 4
  let dens := leAt b 6 1
  let sets := fun r => ((chRanks 0).filter fun i => role i == r).length
  let gib := if dens = 1 then 128 else 64
  let s1 := ((s.setReg Reg.MEM_CONFIG (w32 (leAt b 4 1 % 4 * 2 ^ 30 + leAt b 5 1 % 4 * 2 ^ 28 + dens % 2 * 2 ^ 27
      + leAt b 7 1 % 2 * 2 ^ 26 + leAt b 8 2))).setReg Reg.MEM_SPACE (w32 (sets 1 * gib * 2 ^ 16 + sets 2 * gib)))
  let s2 := ranks.foldl (fun t i =>
    let gone := t.mram.retired.any fun e => e.1 == i
    let st := if role i = 0 then 0 else if gone then 6 else if role i = 3 then 7 else 1
    let w := t.reg (Reg.MEM_RANK_STATUS i)
    t.setReg (Reg.MEM_RANK_STATUS i) (wput (wput (wput (wput w 31 28 st) 27 26 (role i)) 22 18 0) 3 0 0)) s1
  let s3 := (List.range 16).foldl (fun t k =>
    t.setReg (Reg.MEM_TIMING k) (w32 (timingParam k (leAt b 5 1) dens * 2 ^ 16 + timingParam k (leAt b 4 1) dens))) s2
  let dead := ranks.filter fun i => (role i == 1 || role i == 2) && s3.mram.retired.any fun e => e.1 == i
  let s4 := (List.range 4).foldl (fun t c => t.setPool c []) (s3.setReg Reg.MEM_MIGRATE 0)
  { s4 with dram := [], mem := { s4.mem with poison := [], dead := dead, lost := [], pool := [], waiting := [], rows := [],
                                             back := [], mr4 := [], copies := [], scrubbed := none } }

/-- The boot map (R277): the lowest-numbered trained rank of each channel is the only HOT rank. `gib`: its capacity over
the four channels. -/
def State.bootMap (s : State) (density : Nat) : State :=
  let first := fun c => (chRanks c).find? fun i => s.trained i && s.rankState i != 6
  let hot := [0, 1, 2, 3].filterMap first
  let ok := hot.length == 4
  let s1 := ranks.foldl (fun t i => t.setFld (Reg.MEM_RANK_STATUS i) 27 26 (if hot.contains i then 1 else 0)) s
  (s1.setBit Reg.MEM_CONFIG 27 (density == 1)).setReg Reg.MEM_SPACE
    (w32 (if ok then (if density = 1 then 128 else 64) * 2 ^ 16 else 0))

end Sys2Proof.Machine
end

