-- ==== Sys2Proof/Machine/Touch.lean ====
section
/-!
DEFINITION. Machine/Touch.lean: the touch engine (chapter 18): scans, baselines, touches, water, hops and scan rates,
zones, reference maps.
-/
namespace Sys2Proof.Machine

/-! ### The grid of a scan (R466, R474) -/

/-- Node `n` is in use: its column bit and its row bit are set (R466). -/
def HeadRec.inUse (r : HeadRec) (n : Nat) : Bool := r.colMask.testBit (n % r.cols) && r.rowMask.testBit (n / r.cols)

/-- The nodes in use. -/
def HeadRec.nodes (r : HeadRec) : List Nat := (List.range (r.cols * r.rows)).filter r.inUse

/-- Coordinates within `k` of `v` below `lim`. -/
def within (k v lim : Nat) : List Nat :=
  (List.range (2 * k + 1)).filterMap fun i => if k ≤ v + i ∧ v + i - k < lim then some (v + i - k) else none

/-- The nodes within `k` of node `n`, itself among them: a square of 2k + 1, cut at the panel's edge. -/
def HeadRec.near (r : HeadRec) (k n : Nat) : List Nat :=
  (within k (n / r.cols) r.rows).flatMap fun y => (within k (n % r.cols) r.cols).map fun x => y * r.cols + x

/-- The four direct neighbours of node `n`. -/
def HeadRec.beside (r : HeadRec) (n : Nat) : List Nat :=
  (r.near 1 n).filter fun m => m != n && (m % r.cols == n % r.cols || m / r.cols == n / r.cols)

/-- Deltas of a scan by node, 0 for nodes not in use. -/
abbrev Deltas := Array Int

/-- The delta of node `n`. -/
def Deltas.of (d : Deltas) (n : Nat) : Int := d.getD n 0

/-- `is_peak` of R474. -/
def HeadRec.isPeak (r : HeadRec) (d : Deltas) (wet : List Nat) (n : Nat) : Bool :=
  let thr : Int := if r.glove && !wet.contains n then r.tGlove else r.tTouch
  decide (thr ≤ d.of n)
    && ((r.near 1 n).all fun m => m == n || !(decide (d.of n < d.of m) || (d.of m == d.of n && decide (m < n))))
    && (decide ((r.tTouch : Int) ≤ d.of n)
      || decide (4 ≤ ((r.near 1 n).filter fun m => decide (((r.tGlove / 2 : Nat) : Int) ≤ d.of m)).length))

/-- `position` of R474, in panel pixels. -/
def HeadRec.position (r : HeadRec) (d : Deltas) (n : Nat) : Nat × Nat :=
  let l := (r.near 1 n).filter fun m => decide (0 < d.of m)
  let w := l.foldl (fun a m => a + (d.of m).toNat) 0
  let sx := l.foldl (fun a m => a + (d.of m).toNat * (2 * (m % r.cols) + 1)) 0
  let sy := l.foldl (fun a m => a + (d.of m).toNat * (2 * (m / r.cols) + 1)) 0
  (min (sx * r.panelW / (2 * r.cols * w)) (r.panelW - 1), min (sy * r.panelH / (2 * r.rows * w)) (r.panelH - 1))

/-- The wet nodes of a scan (R477). -/
def HeadRec.wetNodes (r : HeadRec) (d : Deltas) : List Nat :=
  if !r.water then []
  else
    let damp := fun n => decide ((r.tWater : Int) ≤ d.of n) && decide (d.of n < (r.thr : Int))
    r.nodes.filter fun n => damp n && decide (2 ≤ ((r.beside n).filter damp).length)
      && (r.near 1 n).all fun m => decide (d.of m < (r.tTouch : Int))

/-! ### Sorting -/

/-- Insert before the first element that `lt` puts after it. -/
def insertBy {α : Type} (lt : α → α → Bool) (a : α) : List α → List α
  | [] => [a]
  | b :: t => if lt a b then a :: b :: t else b :: insertBy lt a t

/-- Sort ascending by `lt`, stably. -/
def sortBy {α : Type} (lt : α → α → Bool) (l : List α) : List α := l.foldl (fun acc a => insertBy lt a acc) []

/-- A peak of a scan: its node, delta and position. -/
structure Peak where
  node : Nat
  d    : Nat
  x    : Nat
  y    : Nat
  deriving DecidableEq, Repr

/-- The peaks of a scan, largest delta first, the lower index winning ties (R475). -/
def HeadRec.peaks (r : HeadRec) (d : Deltas) (wet : List Nat) : List Peak :=
  let l := (r.nodes.filter (r.isPeak d wet)).map fun n =>
    let p := r.position d n
    Peak.mk n (d.of n).toNat p.1 p.2
  sortBy (fun a b => decide (b.d < a.d)) l

/-- Squared distance of a touch and a peak. -/
def sqDist (t : TouchPt) (p : Peak) : Nat :=
  (((t.x : Int) - p.x) * ((t.x : Int) - p.x) + ((t.y : Int) - p.y) * ((t.y : Int) - p.y)).toNat

/-- Pairs of touch and peak within reach, in ascending squared distance (R475); equal distances in the order of touch
ID and node, which the spec leaves open (DESIGN CHOICE, assumption 65). -/
def HeadRec.pairs (r : HeadRec) (ts : List TouchPt) (ps : List Peak) : List (TouchPt × Peak) :=
  let lim := 4 * r.panelW / r.cols
  let all := ts.flatMap fun t => (ps.filter fun p => decide (sqDist t p ≤ lim * lim)).map fun p => (t, p)
  sortBy (fun a b =>
    let da := sqDist a.1 a.2
    let db := sqDist b.1 b.2
    decide (da < db) || (da == db && (decide (a.1.id < b.1.id) || (a.1.id == b.1.id && decide (a.2.node < b.2.node))))) all

/-- Pairs taken in order, each touch and each peak once. -/
def matchPairs : List (TouchPt × Peak) → List (TouchPt × Peak)
  | [] => []
  | a :: t =>
    let rest := matchPairsFrom [a] t
    a :: rest
where
  /-- The pairs of the rest that meet none already taken. -/
  matchPairsFrom (taken : List (TouchPt × Peak)) : List (TouchPt × Peak) → List (TouchPt × Peak)
    | [] => []
    | b :: t =>
      if taken.any fun k => k.1.id == b.1.id || k.2.node == b.2.node then matchPairsFrom taken t
      else b :: matchPairsFrom (b :: taken) t

/-- The ID after the last one issued, mod 256, that is not in use (R475). -/
def nextId (used : List Nat) : Nat → Nat → Nat
  | 0, last => (last + 1) % 256
  | fuel + 1, last => if used.contains ((last + 1) % 256) then nextId used fuel ((last + 1) % 256) else (last + 1) % 256

/-! ### Zones (R482 to R485) -/

/-- Zone `z` of a head. -/
def TouchHead.zone (x : TouchHead) (z : Nat) : TouchZone := Cells.get (fun _ => {}) x.zones z

/-- Replace zone `z` of a head. -/
def TouchHead.setZone (x : TouchHead) (z : Nat) (v : TouchZone) : TouchHead :=
  { x with zones := Cells.put (fun _ => {}) x.zones z v }

/-- A position lies in a zone. -/
def TouchZone.holds (v : TouchZone) (x y : Nat) : Bool :=
  v.kind != 0 && decide (v.x0 ≤ x) && decide (x < v.x1) && decide (v.y0 ≤ y) && decide (y < v.y1)

/-- The zone of a touch that goes down at a position: the lowest-numbered one that holds it (R482). -/
def TouchHead.zoneAt (x : TouchHead) (px py : Nat) : Option Nat :=
  (List.range 64).find? fun z => (x.zone z).holds px py

/-- Nanoseconds of device time in a millisecond. -/
abbrev nsPerMs : Nat := 1000000

/-- Time from one SCAN_TS32 to a later one that is less than 4.29 s away, in ns (R251). -/
def scanSpan (a b : Word) : Nat := (b - a).toNat

/-- A touch grows older with the next scan: by the time between the two, by nothing where a step of time went back. -/
def TouchPt.aged (t : TouchPt) (a b : Word) : TouchPt := { t with held := t.held + (tsDiff a b).toNat }

/-- A zone at a valid scan with the touches that ended, those that are down and those of them that are new: its state
and the states it takes in turn, each with the touch concerned (R484, R485). `free`: the head lets a hold-to-run zone
become PRESSED. -/
def TouchZone.scan (v : TouchZone) (z : Nat) (free : Bool) (ups cur downs : List TouchPt) :
    TouchZone × List (Nat × Option TouchPt) :=
  let inside := cur.any fun t => v.holds t.x t.y
  let clean := if v.clean = 2 then 2 else if inside then 0 else v.clean + 1
  if v.kind = 0 then (v, [])
  else if v.kind = 1 then
    let taps := ups.filter fun t => t.zone == some z && v.holds t.x t.y && decide (t.held ≤ 500 * nsPerMs)
    ({ v with clean := clean }, taps.flatMap fun t => [(2, some t), (0, some t)])
  else
    let own := fun (l : List TouchPt) => l.find? fun t => v.owner == some t.id
    let (v1, l1) : TouchZone × List (Nat × Option TouchPt) :=
      match own ups, own cur with
      | some t, _ => ({ v with state := 0, owner := none }, if v.state = 0 then [] else [(0, some t)])
      | none, some t =>
        if v.state = 1 ∧ !v.holds t.x t.y then ({ v with state := 0, owner := none }, [(0, some t)]) else (v, [])
      | none, none => (v, [])
    match downs.find? fun t => t.zone == some z with
    | some t =>
      let may := v.kind == 2 || (free && !t.atStart && v.clean == 2)
      if v1.state = 0 ∧ v1.owner.isNone ∧ may then
        ({ v1 with state := 1, owner := some t.id, clean := clean }, l1 ++ [(1, some t)])
      else ({ v1 with clean := clean }, l1)
    | none => ({ v1 with clean := clean }, l1)

/-- A valid scan that gives no zone record, a settle scan or one of a FLOODED head, still counts to a clean release
where no touch lies in the zone (R478, R485). -/
def TouchHead.cleanScan (x : TouchHead) : TouchHead :=
  (List.range 64).foldl (fun y z =>
    let v := y.zone z
    if v.kind = 0 ∨ v.clean = 2 then y
    else y.setZone z { v with clean := if x.touches.any (fun t => v.holds t.x t.y) then 0 else v.clean + 1 }) x

/-- Every zone RELEASED (R469, R477): the zones that change. -/
def TouchHead.releaseZones (x : TouchHead) : TouchHead × List Nat :=
  let l := (List.range 64).filter fun z => (x.zone z).state != 0
  (l.foldl (fun y z => y.setZone z { y.zone z with state := 0, owner := none }) x, l)

/-! ### Records of touches and zones -/

/-- TFLAGS of a touch in a record (R487). -/
def TouchPt.flags (t : TouchPt) (tooMany cancelled : Bool) : Nat :=
  (if t.glove then 1 else 0) + (if t.atStart then 2 else 0) + (if tooMany then 4 else 0) + (if cancelled then 8 else 0)

/-- A record of touch `t`: DOWN 0, MOVE 1, UP 2, LONG_HOLD 5. -/
def TouchHead.touchRecord (x : TouchHead) (kind : Nat) (t : TouchPt) (tooMany cancelled : Bool) : TouchRec :=
  { kind := kind, id := t.id, flags := t.flags tooMany cancelled, x := t.x, y := t.y, strength := t.strength,
    zone := t.zone.getD 0xFF, zstate := match t.zone with
      | some z => (x.zone z).state
      | none => 0,
    held := t.held / nsPerMs }

/-- A ZONE record. -/
def zoneRecord (z state : Nat) (t : Option TouchPt) (tooMany : Bool) : TouchRec :=
  match t with
  | some t => { kind := 3, id := t.id, flags := t.flags tooMany false, x := t.x, y := t.y, strength := t.strength,
                zone := z, zstate := state, held := t.held / nsPerMs }
  | none => { kind := 3, zone := z, zstate := state }

/-- Records in order. -/
def State.touchReports (s : State) (h : Nat) (l : List TouchRec) : State := l.foldl (fun t r => t.touchReport h r) s

/-- Touches sorted by ID. -/
def byId (l : List TouchPt) : List TouchPt := sortBy (fun a b => decide (a.id < b.id)) l

/-- Every touch of head `h` ends CANCELLED and every zone is RELEASED (R469, R477); `tooMany` as in `reportHead`. -/
def State.cancelTouches (s : State) (h : Nat) (tooMany : Bool) : State :=
  let x := s.head h
  let r := x.releaseZones
  let y := { r.1 with touches := [] }
  let owner := fun z => x.touches.find? fun t => (x.zone z).owner == some t.id
  (s.setHead h y).touchReports h
    ((byId x.touches).map (fun t => y.touchRecord 2 t tooMany true) ++ r.2.map fun z => zoneRecord z 0 (owner z) tooMany)

/-- FLOODED holds while any head is FLOODED (R477). -/
def State.floodAlarm (s : State) : State := s.hold .flooded (s.touch.any fun e => e.2.flooded)

/-! ### Frequencies and rates (R478 to R481) -/

/-- A TOUCH_FREQ or TOUCH_RATE entry for the next frame, the hop before the step (R480, R490). -/
def TouchHead.entry (x : TouchHead) (hop : Bool) (e : Nat × Nat × Nat) : TouchHead :=
  match x.later with
  | [] => { x with later := [[e]] }
  | g :: t =>
    { x with later := (if hop then (g.filter fun k => k.1 != 3) ++ [e] ++ g.filter (fun k => k.1 == 3) else g ++ [e]) :: t }

/-- A decision for head `h` (R481): kind 0 a rate step, kind 1 a frequency index. One for a step above RATE_TOP, below
it while a touch is down, or for an unused frequency is ignored: a proposal goes on waiting. -/
def State.touchDecide (s : State) (h kind value : Nat) : State :=
  match s.headRec h with
  | none => s
  | some r =>
    let x := s.head h
    let y := { x with proposals := x.proposals.filter fun p => p.1 != kind }
    if kind = 0 then
      if value < r.rateTop ∨ 3 < value ∨ (!x.touches.isEmpty ∧ r.rateTop < value) then s
      else if value = x.rateNext then s.setHead h y
      else s.setHead h ({ y with rateNext := value }.entry false (3, 0, stepRate value))
    else if kind = 1 then
      if !r.used value then s
      else if value = x.freqNext then s.setHead h y
      else s.setHead h ({ y with freqNext := value, settle := some value, hopAt := some s.uptime, noisy := 0 }.entry true
        (r.freqEntry value))
    else s

/-- The touch reel runs the schedule: the image gives machine 64 a REEL record (R481). -/
def State.touchReel (s : State) : Bool := s.has RT.REEL 64

/-- A proposal for head `h` (R481): to the reel at P1 with event E1, or applied where the structure has none. -/
def State.touchPropose (s : State) (h kind value : Nat) : State :=
  let x := s.head h
  if x.proposals.any fun p => p.1 == kind then s
  else if !s.touchReel then s.touchDecide h kind value
  else
    let w := w32 (h + kind * 32 + value * 256 + min 65535 x.noise * 2 ^ 16)
    let m := s.machine 64
    ((s.setHead h { x with proposals := x.proposals ++ [(kind, value)] }).setMachine 64
      { m with proposals := m.proposals ++ [w] }).stmEvent 64 1

/-- The next used frequency index after `f`, ascending and wrapping (R478). -/
def HeadRec.nextFreq (r : HeadRec) (f : Nat) : Nat :=
  match ([1, 2, 3].map fun k => (f + k) % 4).find? r.used with
  | some g => g
  | none => f

/-- A scan noisier than T_NOISE, or saturated: the fourth in a row proposes a hop, not within 250 ms after one (R478).
-/
def State.touchNoise (s : State) (h : Nat) (r : HeadRec) (noisy : Bool) : State :=
  let x := s.head h
  let n := if noisy then x.noisy + 1 else 0
  let s1 := s.setHead h { x with noisy := n }
  let early := match x.hopAt with
    | some t => decide (s.uptime < t + holdCycles / 4)
    | none => false
  let f := r.nextFreq x.freqNext
  if 4 ≤ n ∧ !early ∧ f ≠ x.freqNext then
    (s1.setHead h { s1.head h with noisy := 0 }).touchPropose h 1 f
  else s1

/-! ### A valid scan (R468 to R478) -/

/-- A scan as it arrives (R210). -/
structure Scan where
  seq  : Nat
  ts   : Word
  freq : Nat
  raw  : Array Nat
  deriving DecidableEq, Repr

/-- The raw count of node `n`. -/
def Scan.at (c : Scan) (n : Nat) : Nat := c.raw.getD n 0

/-- Baseline value B of node `n` at frequency `f`. -/
def TouchHead.baseOf (x : TouchHead) (f n : Nat) : Nat := Cells.get (fun _ => 0) x.base (nodeKey f n)

/-- Set baselines of frequency `f`: nodes with their values. -/
def TouchHead.setBase (x : TouchHead) (f : Nat) (l : List (Nat × Nat)) : TouchHead :=
  { x with base := l.foldl (fun b e => Cells.put (fun _ => 0) b (nodeKey f e.1) e.2) x.base }

/-- The first valid scan at a frequency seeds its baselines (R472): the map's value on a suspect node, the raw count on
every other. -/
def TouchHead.seed (x : TouchHead) (r : HeadRec) (m : TouchMap) (c : Scan) : TouchHead :=
  if x.seeded.contains c.freq then x
  else
    let mapAt := fun n => Cells.get (fun _ => 0) m.vals (nodeKey c.freq n)
    let sus := if x.noMap then [] else r.nodes.filter fun n => decide (c.at n + r.thr ≤ mapAt n)
    let y := x.setBase c.freq (r.nodes.map fun n => (n, if sus.contains n then mapAt n * 256 else c.at n * 256))
    { y with seeded := c.freq :: x.seeded, suspect := (x.suspect.filter fun n => !sus.contains n) ++ sus }

/-- Deltas of a scan (R470). -/
def TouchHead.deltas (x : TouchHead) (r : HeadRec) (c : Scan) : Deltas :=
  ((List.range (r.cols * r.rows)).map fun n =>
    if r.inUse n then ((x.baseOf c.freq n / 256 : Nat) : Int) - (c.at n : Int) else 0).toArray

/-- Suspect nodes whose delta has fallen below thr / 2 track again (R472). -/
def TouchHead.unsuspect (x : TouchHead) (r : HeadRec) (c : Scan) (d : Deltas) : TouchHead :=
  let gone := x.suspect.filter fun n => decide (2 * d.of n < (r.thr : Int))
  { x.setBase c.freq (gone.map fun n => (n, c.at n * 256)) with suspect := x.suspect.filter fun n => !gone.contains n }

/-- Anti-touch (R473): nodes at or below -T_ANTI; after 0.5 s a node is rebaselined. -/
def TouchHead.antiTouch (x : TouchHead) (r : HeadRec) (c : Scan) (d : Deltas) : TouchHead :=
  let now := (r.nodes.filter fun n => !x.suspect.contains n && decide (d.of n ≤ -(r.tAnti : Int))).map fun n =>
    (n, lookupD x.anti n c.ts)
  let due := now.filter fun e => decide (500 * nsPerMs ≤ scanSpan e.2 c.ts)
  { x.setBase c.freq (due.map fun e => (e.1, c.at e.1 * 256)) with
    anti := now.filter fun e => !(due.any fun k => k.1 == e.1) }

/-- FLOODED after a scan with `wet` wet nodes (R477). -/
def TouchHead.flood (x : TouchHead) (r : HeadRec) (c : Scan) (wet : Nat) : TouchHead :=
  let used := r.nodes.length
  if 3 * used < 10 * wet then { x with flooded := true, dry := none }
  else if !x.flooded then x
  else if 5 * wet < used then
    let since := x.dry.getD c.ts
    if 2000 * nsPerMs ≤ scanSpan since c.ts then { x with flooded := false, dry := none } else { x with dry := some since }
  else { x with dry := none }

/-- Baselines track after the scan's touches are found, but for excluded nodes (R470). -/
def TouchHead.track (x : TouchHead) (r : HeadRec) (c : Scan) (wet peaks : List Nat) : TouchHead :=
  if x.flooded then x
  else
    let held := peaks.flatMap (r.near 2)
    x.setBase c.freq ((r.nodes.filter fun n => !x.suspect.contains n && !wet.contains n && !held.contains n).map fun n =>
      let b := x.baseOf c.freq n
      (n, b + c.at n - b / 256))

/-- A settle scan sets the baselines of nodes that are neither suspect nor near a touch held from before (R478). -/
def TouchHead.settleBase (x : TouchHead) (r : HeadRec) (c : Scan) : TouchHead :=
  let held := x.touches.flatMap fun t => r.near 2 t.node
  x.setBase c.freq ((r.nodes.filter fun n => !x.suspect.contains n && !held.contains n).map fun n => (n, c.at n * 256))

/-- The noise figure N of a scan (R478). -/
def HeadRec.noise (r : HeadRec) (d : Deltas) (out : List Nat) : Nat :=
  let l := r.nodes.filter fun n => !out.contains n
  if l.isEmpty then 0 else l.foldl (fun a n => a + (d.of n).natAbs) 0 / l.length

/-- A matched touch at its new peak; `start`: the peak is one of a seeding scan on a suspect node (R472). -/
def TouchPt.moved (t : TouchPt) (r : HeadRec) (start : Bool) (p : Peak) : TouchPt :=
  { t with atStart := t.atStart || start, x := p.x, y := p.y, strength := p.d, glove := decide (p.d < r.tTouch), node := p.node }

/-- The touches of a scan (R475): those that ended, all that are down, and those of them that are new, with the last ID
issued. New touches take their IDs in the order of their nodes (DESIGN CHOICE, assumption 65). -/
def TouchHead.track10 (x : TouchHead) (r : HeadRec) (seeding : Bool) (ps : List Peak) :
    List TouchPt × List TouchPt × List TouchPt × Nat :=
  let pairs := matchPairs (r.pairs x.touches ps)
  let kept := pairs.map fun e => e.1.moved r (seeding && x.suspect.contains e.2.node) e.2
  let ups := x.touches.filter fun t => !(pairs.any fun e => e.1.id == t.id)
  let fresh := ps.filter fun p => !(pairs.any fun e => e.2.node == p.node)
  let start : List TouchPt × Nat := ([], x.lastId)
  let new := (sortBy (fun a b => decide (a.node < b.node)) fresh).foldl (fun acc p =>
    let id := nextId ((kept ++ acc.1).map (·.id)) 256 acc.2
    let t : TouchPt :=
      { id := id, x := p.x, y := p.y, strength := p.d, glove := decide (p.d < r.tTouch),
        atStart := seeding && x.suspect.contains p.node, node := p.node, held := 0, downX := p.x, downY := p.y,
        zone := x.zoneAt p.x p.y, long := false }
    (acc.1 ++ [t], id)) start
  (ups, kept ++ new.1, new.1, new.2)

/-- Touches, zones and their records of an ordinary scan (R475, R484, R487). -/
def State.touchScan (s : State) (h : Nat) (r : HeadRec) (seeding : Bool) (peaks : List Peak) : State :=
  let x := s.head h
  let tooMany := decide (10 < peaks.length)
  let (ups, cur, downs, last) := x.track10 r seeding (peaks.take 10)
  let free := x.present && !x.noMap && !x.flooded
  let zs := (List.range 64).map fun z => (z, (x.zone z).scan z free ups cur downs)
  let y := zs.foldl (fun a e => a.setZone e.1 e.2.1) { x with touches := cur, lastId := last }
  let moves := cur.filter fun t => !(downs.any fun o => o.id == t.id) && x.touches.any fun o => o.id == t.id && (o.x != t.x || o.y != t.y)
  (s.setHead h y).touchReports h
    ((byId ups).map (fun t => y.touchRecord 2 t tooMany false)
      ++ (byId downs).map (fun t => y.touchRecord 0 t tooMany false)
      ++ (byId moves).map (fun t => y.touchRecord 1 t tooMany false)
      ++ zs.flatMap fun e => e.2.2.map fun k => zoneRecord e.1 k.1 k.2 tooMany)

/-- REFUSED, with no capture in progress (TCH.MAP_CTRL). -/
def State.captureRefused (s : State) (h : Nat) : State :=
  ((s.setHead h { s.head h with capture := none }).setBit Reg.TCH_MAP_CTRL 30 false).setBit Reg.TCH_MAP_CTRL 29 true

/-- A scan in a map capture (R471): the baselines of its frequency are taken, or the capture is refused. -/
def State.captureScan (s : State) (h : Nat) (r : HeadRec) (c : Scan) : State :=
  let x := s.head h
  match x.capture with
  | none => s
  | some k =>
    if x.busy ∨ x.flooded then s.captureRefused h
    else if k.waits then s
    else if k.left.head? ≠ some c.freq then s
    else
      let v := r.nodes.foldl (fun m n => Cells.put (fun _ => 0) m (nodeKey c.freq n) (x.baseOf c.freq n / 256)) k.vals
      s.setHead h { x with capture := some { left := k.left.tail, vals := v } }

/-- The CONTROL entries of a map capture (R471): one scan at each used frequency, then the frequency in force again. -/
def HeadRec.captureGroups (r : HeadRec) (f : Nat) : List (List (Nat × Nat × Nat)) :=
  (r.usedFreqs.map fun g => [r.freqEntry g]) ++ [[r.freqEntry f]]

/-- A settle scan has come: a capture that waited for it goes on with its own scans (R490). -/
def TouchHead.captureGoes (x : TouchHead) (r : HeadRec) : TouchHead :=
  match x.capture with
  | some k =>
    if k.waits then { x with capture := some { k with waits := false }, later := x.later ++ r.captureGroups x.freqNext } else x
  | none => x

/-- The head becomes present (R469, R480): the entries of a structure start, unless they are still to be sent, from
frequency index 0 and RATE_TOP on; a head that comes back settles with this scan. -/
def TouchHead.arrives (x : TouchHead) (r : HeadRec) : TouchHead :=
  if x.present then x
  else { x with present := true, freqNext := 0, rateNext := r.rateTop,
                later := if x.later.head? = some r.entries then x.later else x.later ++ r.schedule,
                settle := if x.wasLost then some 4 else x.settle }

/-- A valid scan of head `h` (R468 to R479). A settle scan writes no touch or zone records, so it neither begins nor
ends FLOODED (R478; DESIGN CHOICE, assumption 65). -/
def State.touchValid (s : State) (h : Nat) (r : HeadRec) (c : Scan) : State :=
  let x0 := s.head h
  let older := x0.touches.map fun (t : TouchPt) => t.aged x0.ts c.ts
  let x1 : TouchHead := { x0.arrives r with seq := c.seq, ts := c.ts, touches := older }
  let settles := x1.settle == some 4 || x1.settle == some c.freq
  let seeding := !x1.seeded.contains c.freq
  let x2 := x1.seed r (Cells.get (fun _ => {}) s.mram.touchMaps h) c
  let d := x2.deltas r c
  let x3 := (x2.unsuspect r c d).antiTouch r c d
  let wet := r.wetNodes d
  let peaks := r.peaks d wet
  let tooMany := decide (10 < peaks.length)
  let x4 := { (if settles then x3 else x3.flood r c wet.length) with wet := wet }
  let out := x4.suspect ++ wet ++ peaks.flatMap fun p => r.near 2 p.node
  let n := r.noise d out
  let touched := !peaks.isEmpty || !x4.touches.isEmpty
  let busy := touched || !x4.suspect.isEmpty || !wet.isEmpty || !x4.anti.isEmpty
  let s1 := (s.setHead h { x4 with noise := n, busy := busy, settle := if settles then none else x4.settle }).floodAlarm
  let s2 := if settles then s1.setHead h (((s1.head h).settleBase r c).captureGoes r).cleanScan
    else if x4.flooded then
      let t := s1.cancelTouches h tooMany
      t.setHead h (t.head h).cleanScan
    else
      let t := s1.touchScan h r seeding peaks
      t.setHead h ((t.head h).track r c wet (peaks.map (·.node)))
  let hot := !(s2.head h).touches.isEmpty || r.nodes.any fun k => decide ((r.thr : Int) ≤ d.of k)
  let y := s2.head h
  let s3 := if hot ∧ r.rateTop < y.rateNext then
      s2.setHead h ({ y with rateNext := r.rateTop, proposals := y.proposals.filter fun p => p.1 != 0 }.entry false
        (3, 0, stepRate r.rateTop))
    else s2
  let s4 := if settles then s3 else s3.captureScan h r c
  ((s4.touchNoise h r (decide (r.tNoise < n))).reportHead h tooMany).stmEvent 64 2

/-- A TOUCH_RAW payload as a scan of head `h`, none where it is discarded (R468). -/
def scanOf (r : HeadRec) (b : List Byte) : Option Scan :=
  if leAt b 2 1 = r.cols ∧ leAt b 3 1 = r.rows ∧ b.length = 12 + 2 * (r.cols * r.rows) ∧ leAt b 8 1 < 4
      ∧ r.used (leAt b 8 1) ∧ leAt b 9 1 % 2 = 0 then
    some { seq := leAt b 0 2, ts := w32 (leAt b 4 4), freq := leAt b 8 1,
           raw := ((List.range (r.cols * r.rows)).map fun n => leAt b (12 + 2 * n) 2).toArray }
  else none

/-- An accepted TOUCH_RAW of the head on OUTn (R468). -/
def State.touchRaw (s : State) (n : Nat) (b : List Byte) : State :=
  match s.headOf n with
  | none => s
  | some h => match s.headRec h with
    | none => s
    | some r => match scanOf r b with
      | some c => s.touchValid h r c
      | none => if leAt b 9 1 % 2 = 1 then s.touchNoise h r true else s

/-- A TOUCH_RAW packet on the port of OUTn. -/
def State.touchRawIn (s : State) (port : Nat) (p : RxPacket) : State := s.touchRaw (port - 64) p.payload

/-- TOUCH_RAW_RX (R468). -/
def execTouchRawRx (n : Nat) (b : List Byte) (s : State) : Res :=
  s.packetRow (decide (n < 24)) (64 + n) 0x12 b fun t p => t.touchRawIn (64 + n) p

/-! ### Events of a head -/

/-- TOUCH_HEAD_LOST (R469). -/
def execTouchHeadLost (h : Nat) (s : State) : Res :=
  let x := s.head h
  if (s.headRec h).isSome ∧ x.present then
    let s1 := (s.setHead h { x with present := false, wasLost := true }).cancelTouches h false
    let s2 := if x.capture.isSome then s1.captureRefused h else s1
    .next (s2.reportHead h false)
  else .next s

/-- A write of TCH.MAP_CTRL with X access (R471): HEAD, and CAPTURE while no capture is in progress. -/
def State.mapCtrlWrite (s : State) (v : Word) : State :=
  let h := wbits v 4 0
  let s1 := s.setFld Reg.TCH_MAP_CTRL 4 0 h
  if !wbit v 31 ∨ s.bit Reg.TCH_MAP_CTRL 30 then s1
  else
    match s1.headRec h with
    | none => s1.captureRefused h
    | some r =>
      let x := s1.head h
      if !x.present ∨ x.flooded ∨ x.busy then s1.captureRefused h
      else
        let waits := x.settle.isSome
        ((s1.setHead h { x with capture := some { left := r.usedFreqs, vals := [], waits := waits },
                                later := if waits then x.later else x.later ++ r.captureGroups x.freqNext }).setBit
          Reg.TCH_MAP_CTRL 30 true).setBit Reg.TCH_MAP_CTRL 29 false

/-- MAP_CAPTURE (R471): a write of TCH.MAP_CTRL with CAPTURE, whose written fields are X; without X access they are
ignored (R563). -/
def execMapCapture (p : Port) (h : Nat) (s : State) : Res :=
  let v := w32 (2 ^ 31 + h % 32)
  s.hostWrite p Reg.TCH_MAP_CTRL v fun t => if t.xOpen then (t.mapCtrlWrite v).countX else t

/-- MAP_WRITTEN (R471): the captured map of head `h` stands in MRAM. -/
def execMapWritten (h : Nat) (s : State) : Res :=
  let x := s.head h
  match x.capture, s.headRec h with
  | some k, some r =>
    if k.left ≠ [] then .next s
    else
      let m : TouchMap := { cols := r.cols, rows := r.rows, freqs := r.freqs, vals := k.vals : TouchMap }.sealed
      let s1 := { s with mram := { s.mram with touchMaps := Cells.put (fun _ => {}) s.mram.touchMaps h m } }
      .next (((s1.setHead h { x with capture := none, noMap := false }).setBit Reg.TCH_MAP_CTRL 30 false).reportHead h false)
  | _, _ => .next s

/-- RATE_STEP_DOWN (R479): the time since the last touch has passed the limit of the step in force. -/
def execRateStepDown (h : Nat) (s : State) : Res :=
  let x := s.head h
  if (s.headRec h).isSome ∧ x.touches.isEmpty ∧ x.rateNext < 3 then .next (s.touchPropose h 0 (x.rateNext + 1)) else .next s

/-- PROPOSAL_TIMEOUT (R481): the proposal of a kind for head `h` has had no decision within 10 ms: it applies. -/
def execProposalTimeout (h kind : Nat) (s : State) : Res :=
  match (s.head h).proposals.find? fun p => p.1 == kind with
  | some p =>
    .next ((s.setHead h { s.head h with proposals := (s.head h).proposals.filter fun q => q.1 != kind }).touchDecide h kind p.2)
  | none => .next s

/-- OUT to P2 DECIDE of the touch machine (R481). -/
def execOutDecide (m : Nat) (s : State) : Res :=
  match stmKind m, s.stmOutWord m 2 with
  | .touch, some w =>
    .next ((s.touchDecide (wbits w 4 0) (wbits w 6 5) (wbits w 9 8)).stmNext m
      ((s.touchDecide (wbits w 4 0) (wbits w 6 5) (wbits w 9 8)).machine m))
  | _, _ => .next s

/-- ZONE_TIMEOUT (R484): the touch of hold zone `z` has rested A3 ms. -/
def execZoneTimeout (h z : Nat) (s : State) : Res :=
  let x := s.head h
  let v := x.zone z
  if (s.headRec h).isSome ∧ v.kind = 2 ∧ v.state = 1 ∧ v.hold ≠ 0 then
    let y := x.setZone z { v with state := 3 }
    let t := x.touches.find? fun t => v.owner == some t.id
    .next ((s.setHead h y).touchReport h (zoneRecord z 3 t false))
  else .next s

/-- LONG_HOLD (R486): touch `id` has rested LONG_HOLD seconds. -/
def execLongHold (h id : Nat) (s : State) : Res :=
  let x := s.head h
  match x.touches.find? fun t => t.id == id with
  | some t =>
    if t.long then .next s
    else
      let y := { x with touches := x.touches.map fun k => if k.id = id then { k with long := true } else k }
      .next (((s.setHead h y).touchReport h (y.touchRecord 5 t false false)).raise .longHold)
  | none => .next s

/-- A touch zone takes effect (R482, R483, R485): a zone that was PRESSED becomes RELEASED, touches that are down belong
to no zone of its new definition. -/
def State.zoneApply (s : State) (h z kind x0 y0 x1 y1 hold : Nat) : State :=
  if (s.headRec h).isNone then s
  else
    let x := s.head h
    let v := x.zone z
    let def' : TouchZone := if kind = 0 then {} else { kind := kind, x0 := x0, y0 := y0, x1 := x1, y1 := y1, hold := hold }
    let y := { x.setZone z def' with
      touches := x.touches.map fun t => if t.zone = some z then { t with zone := none } else t }
    let s1 := s.setHead h y
    if v.state = 0 then s1 else s1.touchReport h (zoneRecord z 0 (x.touches.find? fun t => v.owner == some t.id) false)

/-! ### Registers -/

/-- A write of TCH.RING[h] empties the ring and clears LOST. -/
def State.touchRingWrite (s : State) (h : Nat) (v : Word) : State :=
  let s1 := s.setReg (Reg.TCH_RING h) (v &&& 0xF3FF_FFFF)
  (s1.setFld (Reg.TCH_RING_PTR h) 15 0 (s1.fld (Reg.TCH_RING_PTR h) 31 16)).setHead h { s1.head h with lost := 0 }

/-- TOUCH_RING_WRITE (R488): a write of TCH.RING[h]. -/
def execTouchRingWrite (p : Port) (h : Nat) (v : Word) (s : State) : Res :=
  if h < 24 then s.hostWrite p (Reg.TCH_RING h) v fun t => t.touchRingWrite h v else .next s

/-- A write of RD of ring `h`: the vector again while records are left (R488). On a standby, which writes no records,
the ring stays empty: WR goes with RD (R489; DESIGN CHOICE, assumption 80). -/
def State.touchRdWrite (s : State) (h : Nat) (v : Word) : State :=
  let s0 := s.setFld (Reg.TCH_RING_PTR h) 15 0 (wbits v 15 0)
  let s1 := if s.standby then s0.setFld (Reg.TCH_RING_PTR h) 31 16 (wbits v 15 0) else s0
  if s1.fld (Reg.TCH_RING_PTR h) 15 0 = s1.fld (Reg.TCH_RING_PTR h) 31 16 then s1.dropVector (27 + h)
  else s1.sendVector (27 + h)

/-- TOUCH_RING_RD_WRITE (R488): a write of TCH.RING_PTR[h]. -/
def execTouchRingRdWrite (p : Port) (h : Nat) (v : Word) (s : State) : Res :=
  if h < 24 then s.hostWrite p (Reg.TCH_RING_PTR h) v fun t => t.touchRdWrite h v else .next s

/-- Word LO or HI of TCH.ZONE_ACTIVE for the selected head. -/
def State.zoneActive (s : State) (hi : Bool) : Word :=
  let x := s.head (s.fld Reg.TCH_ZONE_SEL 4 0)
  w32 ((List.range 32).foldl (fun n k => if (x.zone (if hi then 32 + k else k)).state = 1 then n + 2 ^ k else n) 0)

/-! ### Structure start and takeover (R476, R480, R483, R489) -/

/-- The touch heads of a structure as it starts: every zone off, IDs from 0, the entry set in the first frame. -/
def State.touchStart (s : State) : State :=
  let old := s.touch
  let s0 := { (s.setBit Reg.TCH_MAP_CTRL 30 false) with touch := [] }
  (s0.headIds.foldl (fun t h =>
    match t.headRec h with
    | none => t
    | some r =>
      let o : TouchHead := Cells.get (fun _ => {}) old h
      let x : TouchHead := { rate := r.rateTop, rateNext := r.rateTop, later := r.schedule, noMap := !t.mapValid h r,
                             lost := o.lost, resync := o.resync, seq := o.seq, ts := o.ts, hstate := o.hstate }
      (t.setHead h x).reportHead h false) s0).floodAlarm

/-- Takeover (R476, R489): a RESYNC record, a DOWN record for every touch down, and the full entry set. -/
def State.touchTakeover (s : State) : State :=
  s.headIds.foldl (fun t h =>
    match t.headRec h with
    | none => t
    | some r =>
      let x := t.head h
      let y := { x with later := r.entries :: x.later, rateNext := r.rateTop, freqNext := 0, resync := false }
      (t.setHead h y).touchReports h ({ kind := 6 } :: (byId x.touches).map fun k => y.touchRecord 0 k false false)) s

end Sys2Proof.Machine
end

