-- ==== Sys2Proof/Machine/TwinBase.lean ====
section
/-!
DEFINITION. Machine/TwinBase.lean: the twin's roles, paths, mirror packets and what changes with a role (R491 to R507,
R511, R514, R153).
-/
namespace Sys2Proof.Machine

/-! ### Configuration in force (TWN.CFG, TWN.EPOCH_CFG) -/

/-- HB_PERIOD in µs, HB_MISS, MP_SILENT in 100 µs and SIG_N as they act. -/
def State.hbPeriod (s : State) : Nat := max 100 (s.fld Reg.TWN_CFG 31 22)
def State.hbMiss (s : State) : Nat := max 4 (s.fld Reg.TWN_CFG 21 16)
def State.mpLimit (s : State) : Nat := max 5 (s.fld Reg.TWN_CFG 15 8)
def State.sigN (s : State) : Nat := min 16 (max 1 (s.fld Reg.TWN_CFG 7 3))

/-- SEAL_LEAD in µs, SLIP_MAX and QUAL_N as they act. -/
def State.sealLead (s : State) : Nat := min 8000 (max 1500 (s.fld Reg.TWN_EPOCH_CFG 31 16))
def State.slipMax (s : State) : Nat := max 1 (s.fld Reg.TWN_EPOCH_CFG 15 12)
def State.qualN (s : State) : Nat := max 1 (s.fld Reg.TWN_EPOCH_CFG 7 0)

/-- TFLAGS.AUTO_HANDOVER of the running TWIN record (R492). -/
def State.autoHandover (s : State) : Bool :=
  match s.body RT.TWIN 0 with
  | some b => (leAt b 9 1).testBit 0
  | none => false

/-! ### Role, SYNC, paths (R491, R497, R498, R503) -/

/-- ROLE: 0 NONE, 1 STANDBY, 2 ACTIVE, 3 HALTED. -/
def State.role (s : State) : Nat := s.fld Reg.TWN_STATUS 31 30

/-- Set ROLE. -/
def State.setRole (s : State) (v : Nat) : State := s.setFld Reg.TWN_STATUS 31 30 v

/-- SYNC: 0 QUALIFIED, 1 QUALIFYING, 2 RESYNCING, 3 UNSYNCED, 4 FAULTED, 5 ABSENT. -/
def State.sync (s : State) : Nat := s.fld Reg.TWN_STATUS 29 27

/-- Set SYNC; a QUALIFIED standby ends SHADOW_FAULT (R521). -/
def State.setSync (s : State) (v : Nat) : State :=
  let s1 := s.setFld Reg.TWN_STATUS 29 27 v
  if v = 0 then s1.hold .shadowFault false else s1

/-- The side in effect under R502: 0 A, 1 B. -/
def State.sideNow (s : State) : Nat := s.fld Reg.TWN_STATUS 26 26

/-- The device is a running member of a twin pair: role STANDBY or ACTIVE. -/
def State.paired (s : State) : Bool := s.standby || s.active

/-- Hornpipe is received on TWNi. -/
def State.hornpipe (s : State) (i : Nat) : Bool := s.bit Reg.TWN_PATHS (31 - i)

/-- Hornpipe is received on at least one port. -/
def State.hornpipeAny (s : State) : Bool := s.hornpipe 0 || s.hornpipe 1

/-- Code of a MAYPOLE pattern in TWN.PATHS. -/
def Maypole.code : Maypole → Nat
  | .silent => 0
  | .active => 1
  | .standby => 2
  | .undefined => 3

/-- The MAYPOLE pattern in force: TWN.PATHS.MAYPOLE. -/
def State.maypole (s : State) : Nat := s.fld Reg.TWN_PATHS 29 28

/-- The peer is absent: Hornpipe lost on both ports and MAYPOLE silent (R500, last row). -/
def State.peerAbsent (s : State) : Bool := !s.hornpipeAny && s.maypole == 0

/-- TWIN_LINK_DOWN (R503): a path is lost while the peer is alive by another. -/
def State.twinLinkAlarm (s : State) : State :=
  s.hold .twinLinkDown (s.paired && (!s.hornpipe 0 || !s.hornpipe 1 || s.maypole == 0) && !s.peerAbsent)

/-- The beat in use: that of TWN0, or of TWN1 while TWN0 is lost (R496). -/
def State.beat (s : State) : Option Beat :=
  if s.hornpipe 0 then s.twin.beats.getD 0 none else if s.hornpipe 1 then s.twin.beats.getD 1 none else none

/-- The port whose beats count: TWN0, or TWN1 while TWN0 is lost (R496). -/
def State.beatPort (s : State) : Nat := if s.hornpipe 0 then 0 else 1

/-- The mean of the last 8 offsets, 0 before the first. -/
def State.peerOffset (s : State) : Int :=
  let l := s.twin.offsets.getD s.beatPort []
  if l.isEmpty then 0 else l.foldl (· + ·) 0 / (l.length : Int)

/-- The FCLK0 count that a 32-bit count of the peer names: the one nearest to the own. -/
def State.countOf (s : State) (w : Nat) : Nat :=
  let d := tsDiff (w32 s.twin.fclk0) (w32 w)
  ((s.twin.fclk0 : Int) + (if (s.twin.fclk0 : Int) + d < 0 then d + 2 ^ 32 else d)).toNat

/-- The peer is QUALIFIED, as its beat says. -/
def State.peerQualified (s : State) : Bool :=
  match s.beat with
  | some b => b.role == 0 && s.sync == 0
  | none => false

/-- HEALTH_FAIL (R518). -/
def State.healthAlarm (s : State) : State :=
  s.hold .healthFail (s.twin.failed != 0 || s.bit Reg.TWN_STATUS 25)

/-! ### Command records (R136) -/

/-- A command record read from its 32 bytes. -/
def CmdRec.ofBytes (b : List Byte) : CmdRec :=
  { op := leAt b 0 1, flags := leAt b 1 1, tag := leAt b 2 2, obj := leAt b 4 2, clock := leAt b 6 1, seq := leAt b 7 1,
    a := (List.range 6).map fun i => leAt b (8 + 4 * i) 4 }

/-- The 32 bytes of a command record. -/
def CmdRec.bytes (r : CmdRec) : List Byte :=
  leBytes 1 r.op ++ leBytes 1 r.flags ++ leBytes 2 r.tag ++ leBytes 2 r.obj ++ leBytes 1 r.clock ++ leBytes 1 r.seq
    ++ (List.range 6).flatMap fun i => leBytes 4 (r.a.getD i 0)

/-- Argument word `i`. -/
def CmdRec.arg (r : CmdRec) (i : Nat) : Nat := r.a.getD i 0

/-! ### Mirror packets (R504 to R506) -/

/-- The bytes of a mirrored item (R505). -/
def Item.bytes : Item → List Byte
  | .command q r => [1, 0, 36, 0] ++ leBytes 4 q ++ r.bytes
  | .write off m v => [2, 0, 12, 0] ++ leBytes 4 off ++ leBytes 4 m.toNat ++ leBytes 4 v.toNat
  | .image g d => [3, 0, 8, 0] ++ leBytes 4 g ++ leBytes 4 (if d then 1 else 0)
  | .handover => [4, 0, 0, 0]

/-- The items of a DATA or SNAPSHOT body, none where it is malformed (R505); `fuel` bounds them. -/
def itemsOf : Nat → List Byte → Option (List Item)
  | 0, _ => none
  | fuel + 1, b =>
    if b.isEmpty then some []
    else
      let len := leAt b 2 2
      let c := slice b 4 len
      if b.length < 4 + len then none
      else
        let item : Option Item :=
          if leAt b 0 1 = 1 ∧ len = 36 then some (.command (leAt c 0 1) (CmdRec.ofBytes (c.drop 4)))
          else if leAt b 0 1 = 2 ∧ len = 12 then some (.write (leAt c 0 4) (w32 (leAt c 4 4)) (w32 (leAt c 8 4)))
          else if leAt b 0 1 = 3 ∧ len = 8 then some (.image (leAt c 0 4) ((leAt c 4 4).testBit 0))
          else if leAt b 0 1 = 4 ∧ len = 0 then some .handover else none
        match item, itemsOf fuel (b.drop (4 + len)) with
        | some i, some t => some (i :: t)
        | _, _ => none

/-- The bytes of a trailer (R506). -/
def Trailer.bytes (t : Trailer) : List Byte :=
  leBytes 4 t.target ++ leBytes 4 t.crc.toNat ++ (List.range 16).flatMap (fun q => leBytes 2 (t.heads.getD q 0))
    ++ (List.range 64).flatMap fun f => leBytes 8 (t.fences.getD f 0).toNat

/-- A trailer read from its bytes. -/
def Trailer.ofBytes (b : List Byte) : Trailer :=
  { target := leAt b 0 4, crc := w32 (leAt b 4 4), heads := (List.range 16).map fun q => leAt b (8 + 2 * q) 2,
    fences := (List.range 64).map fun f => BitVec.ofNat 64 (leAt b (40 + 8 * f) 8) }

/-- The value of fence `f`. -/
def State.fence (s : State) (f : Nat) : DWord := s.pair (Reg.CMD_FENCE_LO f)

/-- A trailer of the device as it stands: FCLK0 count `target`, CRC over the given bodies (R506). -/
def State.trailer (s : State) (target : Nat) (bodies : List Byte) : Trailer :=
  { target := target % 2 ^ 32, crc := w32 (Crc.value Crc.crc32c bodies),
    heads := (List.range 16).map fun q => s.fld (Reg.CMD_Q_STATUS q) 15 0, fences := (List.range 64).map s.fence }

/-- Send a TWIN_MIRROR packet on both twin ports (R504). -/
def State.sendMirror (s : State) (kind epoch index aux : Nat) (body : List Byte) : State :=
  let p := leBytes 1 kind ++ [0, 0, 0] ++ leBytes 4 epoch ++ leBytes 4 index ++ leBytes 4 aux ++ body
  (s.sendPacket 120 0x20 0 0 p).sendPacket 121 0x20 0 0 p

/-- Image bytes of one IMAGE packet: with its header it fills a packet of 16,384 bytes (R190, R504). -/
abbrev imageChunk : Nat := 16368

/-- Send an image as IMAGE packets (R504, R510) with EPOCH `e`: the epoch being filled where the image awaits a VERDICT,
0 where it belongs to a resync (R515; the 0 and the size of a part: DESIGN CHOICE, assumption 66). -/
def State.sendImage (s : State) (e : Nat) (b : List Byte) : State :=
  (List.range (cdiv b.length imageChunk)).foldl (fun t i =>
    t.sendMirror 10 e (i * imageChunk) b.length (slice b (i * imageChunk) imageChunk)) s

/-- Items of one DATA or SNAPSHOT packet. -/
abbrev itemsPerPacket : Nat := 256

/-- Send items as packets of a kind from packet number `first`. -/
def State.sendItems (s : State) (kind epoch first : Nat) (items : List Item) : State :=
  (List.range (cdiv items.length itemsPerPacket)).foldl (fun t i =>
    t.sendMirror kind epoch (first + i) 0 ((slice' items (i * itemsPerPacket) itemsPerPacket).flatMap Item.bytes)) s
where
  /-- `n` items from an index. -/
  slice' (l : List Item) (off n : Nat) : List Item := (l.drop off).take n

/-- The items of the epoch being filled that have not left yet go out as DATA (R505). -/
def State.sendData (s : State) : State :=
  let left := s.twin.items.reverse.drop s.twin.sentItems
  if !s.active || left.isEmpty then s
  else
    let s1 := s.sendItems 0 s.twin.filling s.twin.dataNo left
    { s1 with twin := { s1.twin with sentItems := s.twin.items.length,
                                     dataNo := s.twin.dataNo + cdiv left.length itemsPerPacket } }

/-! ### What a role change does -/

/-- Every host queue becomes HELD (R153, R501). -/
def State.holdQueues (s : State) : State :=
  (List.range 16).foldl (fun t q =>
    ((t.setQState q 4).setBit (Reg.CMD_Q_CTRL q) 31 false).setQueue q { t.queue q with wait := .none, ringFull := false }) s

/-- Every host queue becomes STOPPED, at the positions of the last trailer applied here (R153). -/
def State.releaseQueues (s : State) : State :=
  (List.range 16).foldl (fun t q =>
    let t1 := (t.setQState q 0).setBit (Reg.CMD_Q_CTRL q) 31 false
    match t.twin.applied with
    | some a => (t1.setFld (Reg.CMD_Q_STATUS q) 15 0 (a.heads.getD q 0)).setFld (Reg.CMD_Q_TAIL q) 15 0 (a.heads.getD q 0)
    | none => t1) s

/-- Epochs that have not taken effect here are discarded with what they hold; numbering goes on from the last one
(R511, R515). A received epoch whose COMMIT has come stays, to be applied at its target (R520). -/
def State.dropEpochs (s : State) : State :=
  let last := s.fld Reg.TWN_LAST_EPOCH 31 0
  let kept := s.twin.rxSealed.filter (·.committed)
  let keep := fun (e : Option Nat) => match e with
    | some n => decide (n ≤ last)
    | none => true
  { s with
    cmd := { s.cmd with held := s.cmd.held.filter fun h => keep h.epoch
                        fences := s.cmd.fences.filter fun f => keep f.epoch }
    ld := { s.ld with deltas := s.ld.deltas.filter (fun d => keep d.epoch), deltaVerdict := none
                      nextVerdict := none, next := s.ld.next.filter fun n => keep n.epoch }
    twin := { s.twin with filling := (kept.map (·.num)).foldl max last + 1, items := [], sentItems := 0, dataNo := 0,
                             sealed := none, rxData := [], rxSealed := kept, handover := none, wantSnap := false } }

/-- Frame clocks keep their cadence from their last edges (R511): they follow no other device, and one of FRAME_REF runs
on until it has followed FRAME_REF again (R269). -/
def State.keepCadence (s : State) : State :=
  fclks.foldl (fun t k =>
    let c := t.fclkOf k
    t.setFclk k { c with err := 0, locked := false, runOn := c.ref, armed := false }) (s.setBit Reg.TWN_STATUS 24 false)

/-- The device becomes ACTIVE (R511, R514, R174): GPIO balls take their shadow values, timed pulses drive, encoders run
and code an IRAP next, touch rings receive RESYNC, host queues stop, clocks keep their cadence. -/
def State.becomeActive (s : State) : State :=
  ((((s.setRole 2).releaseGpio.encTakeover).touchTakeover).releaseQueues.dropEpochs).keepCadence.twinLinkAlarm

/-- Takeover (R511). -/
def State.takeover (s : State) : State :=
  let s1 := (s.setReg Reg.TWN_TAKEOVER_TS s.ts).history 0x03 0 [s.reg Reg.TWN_LAST_EPOCH]
  let s2 := s1.becomeActive.setFld Reg.TWN_STATUS 29 27 (if s.hornpipeAny then s.sync else 5)
  ({ s2 with twin := { s2.twin with promote := false } }).hold .takeover true

/-- The device becomes STANDBY (R501, R514): host queues HELD, reel GPIO balls at high impedance with their levels
kept in the shadow, started encoders in STANDBY. -/
def State.becomeStandby (s : State) : State :=
  let s1 := (s.setRole 1).holdQueues
  let b := s1.boot
  let sh := (b.gpioShadow.1 ||| b.gpioDriven, (b.gpioShadow.2 &&& ~~~ b.gpioDriven) ||| (b.gpio &&& b.gpioDriven))
  let s2 := { s1 with boot := { b with gpioShadow := sh, gpioDriven := 0 } }
  encoders.foldl (fun t e => if t.encState e = 1 ∨ t.encState e = 2 then t.setEncState e 3 else t) s2

/-- Request a resync (R515): causes 0 start, 1 SIG, 2 NACK, 3 STALL, 4 link return, 5 demotion, 6 host, 7 LOST_COMMIT;
AUX of the RESYNC_REQ packet carries the cause (DESIGN CHOICE, assumption 66). -/
def State.requestResync (s : State) (cause : Nat) : State :=
  let s1 := (s.setReg Reg.TWN_RESYNC (w32 (2 ^ 28 + cause * 2 ^ 24))).setSync 2
  let s2 := { s1 with twin := { s1.twin with snap := [], snapTrailer := none, fetched := [], image := [], imageLen := 0,
                                              snapCard := false, xfer := 0 } }
  s2.sendMirror 7 (s2.fld Reg.TWN_LAST_EPOCH 31 0) 0 cause []

/-- The standby is FAULTED and resyncs (R509, R513). -/
def State.standbyFault (s : State) (cause : Nat) : State :=
  (((s.setSync 4).hold .shadowFault true).history 0x06 cause []).requestResync cause

/-- The active finds its standby at fault (R508, R513). -/
def State.shadowFault (s : State) (cause : Nat) : State :=
  let s1 := ((s.setSync 4).hold .shadowFault true).history 0x06 cause []
  { s1 with twin := { s1.twin with qual := [] } }

/-- Demotion of a SIDE B device (R501). -/
def State.demote (s : State) : State :=
  (((s.becomeStandby.dropEpochs).setSync 3).setReg Reg.TWN_RESYNC 0x0500_0000 |>.history 0x04 0 []).twinLinkAlarm

/-- The standby is the target of a handover: it holds a HANDOVER item whose epoch has not been applied (R514). -/
def State.handTarget (s : State) : Bool :=
  (s.twin.rxSealed.any fun e => e.items.any fun x => x.item == .handover)
    || s.twin.rxData.any fun d => d.items.any fun x => x.item == .handover

/-- A HANDOVER that has not taken effect is dropped (R514): the active exchanges no roles with its epoch and sends no
item that has not left yet; a standby forgets the item, while the bodies that the SEAL's CRC covers stand as sent. -/
def State.dropHandover (s : State) : State :=
  let w := s.twin
  let gone := fun (l : List RxItem) => l.filter fun x => x.item != .handover
  let left := w.items.take (w.items.length - w.sentItems)
  let gone' := w.items.drop (w.items.length - w.sentItems)
  { s with twin := { w with handover := none, items := left.filter (· != .handover) ++ gone',
                            rxSealed := w.rxSealed.map fun e => { e with items := gone e.items },
                            rxData := w.rxData.map fun d => { d with items := gone d.items } } }

/-- A device learns of dual activity, an active one or the target of a handover (R501, R520): a handover is dropped,
SIDE B demotes (R514). -/
def State.learnDual (s : State) : State :=
  if !(s.active || s.handTarget) then s
  else
    let s1 := (s.setBit Reg.TWN_STATUS 23 true).dropHandover
    if s1.sideNow = 1 then s1.demote else s1

/-! ### Structure start (R174, R491, R492) -/

/-- TWN.CFG and TWN.EPOCH_CFG from a TWIN record; a field of 0 takes its default (R492). -/
def twinConfig (b : List Byte) : Word × Word :=
  let d := fun (off n dflt : Nat) => if leAt b off n = 0 then dflt else leAt b off n
  (w32 (d 0 2 250 * 2 ^ 22 + d 2 1 8 * 2 ^ 16 + d 3 1 10 * 2 ^ 8 + d 7 1 3 * 2 ^ 3),
   w32 (d 4 2 4000 * 2 ^ 16 + d 6 1 4 * 2 ^ 12 + d 8 1 8))

/-- What a structure start keeps of the twin: what has been heard on its paths, the health results and what its
MAYPOLE ball drives. -/
def Twin.carried (t : Twin) (last : Nat) : Twin :=
  { filling := last + 1, beats := t.beats, offsets := t.offsets, beatNo := t.beatNo, health := t.health, mpLast := t.mpLast,
    mpRise := t.mpRise, mpHigh := t.mpHigh, mpAlive := t.mpAlive, failed := t.failed, degraded := t.degraded,
    untested := t.untested, passed := t.passed, margins := t.margins, accBad := t.accBad, seen := t.seen }

/-- The device is no standby any more without having taken over: its host queues are STOPPED, its reels drive their
balls (R151, R125). -/
def State.leaveStandby (s : State) : State :=
  (List.range 16).foldl (fun (t : State) q => if t.qState q = 4 then t.setQState q 0 else t) s.releaseGpio

/-- The twin as a structure starts it: STANDBY with a TWIN record, which listens first; NONE without (R491, R174). A
supervisor that has halted keeps the role HALTED (R117). TAKEOVER holds until the host acknowledges it, SHADOW_FAULT
until the standby is QUALIFIED (R521), or until no twin is configured (DESIGN CHOICE, assumption 66). -/
def State.twinStart (s : State) : State :=
  let s0 := { s with twin := s.twin.carried (s.fld Reg.TWN_LAST_EPOCH 31 0) }
  let s1 := s0.setFld Reg.TWN_STATUS 31 16 (s.sideStrap * 2 ^ 10)
  match s1.body RT.TWIN 0 with
  | some b =>
    let c := twinConfig b
    let s2 := (s1.setReg Reg.TWN_CFG c.1).setReg Reg.TWN_EPOCH_CFG c.2
    let s3 := (s2.setReg Reg.TWN_SLIPS 0).setReg Reg.TWN_RESYNC 0
    if s.role = 3 then s3.setRole 3
    else ((s3.setSync 3).becomeStandby).twinLinkAlarm.healthAlarm
  | none =>
    let s2 := if s.standby then s1.leaveStandby else s1
    (s2.hold .shadowFault false).twinLinkAlarm.healthAlarm

end Sys2Proof.Machine
end

