-- ==== Sys2Proof/Machine/CasBase.lean ====
section
/-!
DEFINITION. Machine/CasBase.lean: the cascade's configuration, ring control messages (R526) and own subscriptions
(R530).
-/
namespace Sys2Proof.Machine

/-- LINK_SHARE in percent as it acts. -/
def State.linkShare (s : State) : Nat := max 1 (s.fld Reg.CAS_CFG 7 0)

/-- RELAY_TIMEOUT and COMMIT_WAIT in ms (R523). -/
def State.relayTimeout (s : State) : Nat :=
  match s.ringRec with
  | some b => if leAt b 7 1 = 0 then 10 else leAt b 7 1
  | none => 10
def State.commitWait (s : State) : Nat :=
  match s.ringRec with
  | some b => if leAt b 8 2 = 0 then 2000 else leAt b 8 2
  | none => 2000

/-- The master of the ring: the device of member 0 that is ACTIVE, or member 0's only device. -/
def State.ringMaster (s : State) : Bool :=
  s.inRing && s.cascadeId == 0 && (s.active || (s.role == 0 && s.ld.loaded))

/-- Member `m` of the ring is not lost to this device (R540). -/
def State.memberAlive (s : State) (m : Nat) : Bool := decide (m < s.members) && !s.cas.lost.contains m

/-- Own HOPS (R524): 0 for the master, one more than the upstream's, 0xFF without. -/
def State.ownHops (s : State) : Nat :=
  if s.ringMaster then 0
  else match s.cas.upstream with
    | some i => match s.cas.direct.getD i none with
      | some t => min (t.hops + 1) 255
      | none => 255
    | none => 255

/-- RING_BREAK and MEMBER_LOST (R540). -/
def State.ringAlarms (s : State) : State :=
  let broken := s.has RT.CASCADE 0 && [0, 1, 2, 3].any fun i => s.bit (Reg.JLX_PORT_CTRL i) 31 && !s.casUp i
  (s.hold .ringBreak broken).hold .memberLost (s.has RT.CASCADE 0 && !s.cas.lost.isEmpty)

/-- The cascade ports that a message for SIDE `side` of member `cid`, 2 for both, leaves on in direction `d` (R526): to the
member next in that direction those that lead to the SIDE; on to it, one port, the same-side one unless only the cross
port is up. -/
def State.ringPorts (s : State) (d cid side : Nat) : List Nat :=
  if (s.neighbour d).1 = cid then [d, d + 2].filter fun i => side == 2 || (s.neighbour i).2 == side
  else if !s.casUp d && s.casUp (d + 2) then [d + 2] else [d]

/-- A ring control message leaves in direction `d`. -/
def State.passRing (s : State) (d cid side : Nat) (p : List Byte) : State :=
  (s.ringPorts d cid side).foldl (fun t i => t.sendPacket (112 + i) 0x30 1 0 p) s

/-- Send a ring control message (R526): KIND, destination, SIDE 0, 1 or 2 for both, TAG, content. -/
def State.sendRing (s : State) (kind cid side tag : Nat) (body : List Byte) : State :=
  s.passRing (s.dirTo cid) cid side (leBytes 1 kind ++ leBytes 1 cid ++ leBytes 1 side ++ leBytes 1 tag ++ body)

/-- The TAG of the next message of this device: its CASCADE_ID in bits [2:0], its SIDE in bit 3, a running number
above. The spec gives a message no sender; an answer goes to the device that the TAG names (DESIGN
CHOICE, assumption 38). -/
def State.ringTag (s : State) : Nat := s.cas.tag % 16 * 16 + s.ringSide * 8 + s.cascadeId

/-- A TAG has been used. -/
def State.nextTag (s : State) : State := { s with cas := { s.cas with tag := s.cas.tag + 1 } }

/-- Count of own subscriptions in force and of subscriptions served (CAS.SUBS). -/
def State.countSubs (s : State) : State :=
  (s.setFld Reg.CAS_SUBS 7 0 (min 255 (s.cas.subs.filter (·.ok)).length)).setFld Reg.CAS_SUBS 31 16 (min 65535 s.cas.sends.length)

/-- Send a SUBSCRIBE to both devices of a stream's sender (R530); its TAG is kept for the answers. -/
def State.sendSubscribe (s : State) (x : CasSub) : State :=
  let s1 := s.sendRing 1 x.member 2 s.ringTag (leBytes 2 x.src)
  let subs := s1.cas.subs.map fun (y : CasSub) => if y.strm = x.strm then { y with tag := s.ringTag } else y
  State.nextTag { s1 with cas := { s1.cas with subs := subs } }

/-- Subscribe to the sender of CASCADE stream `i` (R530): SRC names member [14:12] and stream [11:0]. -/
def State.subscribe (s : State) (i : Nat) : State :=
  let src := (s.stream i).src
  let x : CasSub := { strm := i, src := bitsN src 11 0, member := bitsN src 14 12 }
  let c : Cascade := { s.cas with subs := s.cas.subs.filter (fun (y : CasSub) => y.strm != i) ++ [x] }
  let s1 : State := { s with cas := c }
  (s1.sendSubscribe x).countSubs

/-- The subscription of stream `i` ends (R530): UNSUBSCRIBE goes to both devices of its sender. -/
def State.unsubscribe (s : State) (i : Nat) : State :=
  match s.cas.subs.find? fun x => x.strm == i with
  | some x =>
    let s1 := (s.sendRing 2 x.member 2 s.ringTag (leBytes 2 x.src)).nextTag
    let c : Cascade := { s1.cas with subs := s1.cas.subs.filter fun (y : CasSub) => y.strm != i }
    State.countSubs { s1 with cas := c }
  | none => s

/-- CAS.CFG from a CASCADE record (R523). -/
def casConfig (b : List Byte) : Word :=
  let d := fun (off n dflt : Nat) => if leAt b off n = 0 then dflt else leAt b off n
  w32 (d 4 2 250 * 2 ^ 22 + d 6 1 8 * 2 ^ 16 + d 3 1 (100 / max 1 (leAt b 0 1)))

/-- A stream has gone: it is sent to nobody any more, so that a subscription to it finds no stream (R530, R542). -/
def State.unsend (s : State) (i : Nat) : State :=
  State.countSubs { s with cas := { s.cas with sends := s.cas.sends.filter fun e => e.strm != i } }

/-- The ring as a structure starts it: CAS.CFG from the record, a subscription for every CASCADE stream (R523, R530).
What has been heard of the ring stands; without the record the device leaves it. -/
def State.casStart (s : State) : State :=
  match s.ringRec with
  | some b =>
    let c := s.cas
    let s1 := { s with cas := { direct := c.direct, echo := c.echo, devs := c.devs, beat := c.beat, tag := c.tag,
                                lost := c.lost.filter fun m => decide (m < leAt b 0 1)
                                upstream := c.upstream, off := c.off, upEpoch := c.upEpoch, forwarded := c.forwarded,
                                sends := c.sends.filter fun e => (s.stream e.strm).on
                                relay := c.relay, master := c.master, heard := c.heard } }
    let s2 := s1.setReg Reg.CAS_CFG (casConfig b)
    ((s2.streamIds.filter fun i => (s2.stream i).kind == 4).foldl State.subscribe s2).countSubs.ringAlarms
  | none =>
    let s1 := { s with cas := { tag := s.cas.tag } }.countSubs
    ([0, 1, 2, 3].foldl (fun t i => t.setFld (Reg.CAS_LINK i) 31 16 0) s1).ringAlarms

end Sys2Proof.Machine
end

