-- ==== Sys2Proof/Machine/Budget.lean ====
section
/-!
DEFINITION. Machine/Budget.lean: the three budgets of a structure (R39 to R42, R301, R452), in exact arithmetic.
-/
namespace Sys2Proof.Machine

/-! ### Exact non-negative fractions (R40) -/

/-- A fraction in lowest terms: numerator and denominator. -/
abbrev Frac := Nat × Nat

/-- A fraction in lowest terms; a denominator of 0 counts as the fraction 0. -/
def Frac.norm (n d : Nat) : Frac := if d = 0 then (0, 1) else (n / Nat.gcd n d, d / Nat.gcd n d)

/-- Sum of two fractions. -/
def Frac.add (a b : Frac) : Frac := Frac.norm (a.1 * b.2 + b.1 * a.2) (a.2 * b.2)

/-- Sum of a list of fractions. -/
def Frac.sum (l : List Frac) : Frac := l.foldl Frac.add (0, 1)

/-- Rounded up to a whole number. -/
def Frac.ceil (a : Frac) : Nat := cdiv a.1 a.2

/-! ### Rates (R40) -/

/-- Rate of clock `k` of a record list, as a fraction in Hz; 0 where it is stopped (R267). -/
def clockRate (l : List Rec) (k : Nat) : Frac :=
  match clockRec l k with
  | some c => (c.1, c.2.1)
  | none => (0, 1)

/-- Frame rate of node `n`: its clock's, an INLINE node's consumer's (R32, R41). -/
def nodeRate (l : List Rec) (n : Nat) : Frac := clockRate l (clockOf l 257 n)

/-- The budget rate of a stream (R40): 90,000 / FRAME_TICKS for an IPDEC stream of constant rate, else RATE in mHz. -/
def budgetRate (l : List Rec) (x : StreamSt) : Frac :=
  let ticks := match recBody l RT.DECODER_CONTEXT x.src with
    | some b => leAt b 10 2
    | none => 0
  if x.kind = 1 ∧ ticks ≠ 0 then (90000, ticks) else (x.rate, 1000)

/-! ### DRAM demand (R40) -/

/-- `n` / 16 × rate: pixels times sixteenths of a byte, at a rate. -/
def sixteenths (n : Nat) (f : Frac) : Frac := Frac.norm (n * f.1) (16 * f.2)

/-- Bytes per second of writing a stored frame of `w` × `h`, with pyramid p = 85/64. -/
def storeTerm (x : StreamSt) (w h : Nat) (f : Frac) : Frac :=
  let a := Fmt.stored2 x.format x.mode
  if x.pyramid then Frac.norm (w * h * a * 85 * f.1) (16 * 64 * f.2) else sixteenths (w * h * a) f

/-- The ing or dec term of a stream of a record list. -/
def streamTerm (l : List Rec) (x : StreamSt) : Frac :=
  let f := budgetRate l x
  let store := storeTerm x x.width x.height f
  if x.mode = 0 then (0, 1)
  else if x.kind = 0 ∨ x.kind = 3 then store
  else if x.kind = 1 then Frac.add (sixteenths (x.width * x.height * 6 * Fmt.bits x.format) f) store
  else (0, 1)

/-- The canvas of node `n` of a record list. -/
def canvasOf (l : List Rec) (n : Nat) : Nat × Nat :=
  match nodeRec l n with
  | some r => (r.w, r.h)
  | none => (0, 0)

/-- A layer costs something: enabled, its clipped rectangle not empty (R24, R333). -/
def layerCosts (l : List Rec) (i : Nat) (d : LayerDesc) : Bool :=
  let c := canvasOf l (i / 16)
  d.enable && !emptyRect (d.clip c.1 c.2)

/-- The cmp term of a layer. -/
def layerTerm (l : List Rec) (i : Nat) (d : LayerDesc) : Frac :=
  match resolve l d.source with
  | .surface k x v =>
    if layerCosts l i d then
      let r : ResSrc := .surface k x v
      let c := d.cropAt r (d.level r)
      sixteenths (c.2.2.1 * c.2.2.2 * Fmt.stored2 x.format x.mode) (nodeRate l (i / 16))
    else (0, 1)
  | _ => (0, 1)

/-- The wb term of a node's output. -/
def nodeTerm (l : List Rec) (n : Nat) : Frac :=
  match nodeRec l n with
  | some r =>
    if r.dest = 1 ∨ r.dest = 2 then
      match streamRec l r.surf with
      | some x => storeTerm x r.w r.h (nodeRate l n)
      | none => (0, 1)
    else (0, 1)
  | none => (0, 1)

/-- D before rounding: every term of the records, and `extra` for encoder bindings and cascade sends. -/
def demand (l : List Rec) (extra : Frac) : Frac :=
  let streams := (recIds l RT.STREAM).filterMap (streamRec l)
  Frac.add extra (Frac.add (Frac.sum (streams.map (streamTerm l)))
    (Frac.add (Frac.sum ((layersOf l).map fun e => layerTerm l e.1 e.2)) (Frac.sum ((recIds l RT.NODE).map (nodeTerm l)))))

/-- 80 % of the peak at an operating point code in bytes/s (R40, R301). -/
def dramLimitAt (code : Nat) : Nat := match code with | 0 => 163840000000 | 1 => 143360000000 | _ => 122880000000

/-- The limit on D: that of the slower operating point of the DRAM_MAP (R301). -/
def dramLimit (l : List Rec) : Nat :=
  match recBody l RT.DRAM_MAP 0 with
  | some b => min (dramLimitAt (leAt b 4 1)) (dramLimitAt (leAt b 5 1))
  | none => dramLimitAt 0

/-- The enc term of a stream at a level and rate (R40, R452). -/
def encTerm (x : StreamSt) (w h : Nat) (f : Frac) : Frac :=
  sixteenths (w * h * (Fmt.stored2 x.format x.mode + 8 * Fmt.bits x.format)) f

/-- The enc term of encoder `e`, as it is configured, in a record list (R40, R453): its level's size, its source clock's
rate over DIVIDE + 1. A list without its source stops it (R455) and it costs nothing. -/
def State.encDemand (s : State) (l : List Rec) (e : Nat) : Frac :=
  match streamRec l (s.encStream e) with
  | some x =>
    let f := if x.kind = 2 then
        match surfaceNode l (s.encStream e) with
        | some n => nodeRate l n
        | none => clockRate l 0
      else clockRate l 0
    let p := 2 ^ s.encLevel e
    encTerm x (cdiv x.width p) (cdiv x.height p) (f.1, f.2 * (s.fld (Reg.ENC_CFG e) 19 16 + 1))
  | none => (0, 1)

/-- The frame rate of a stream as a cascade send (R40, R530): its node's for a SURFACE stream, else its budget rate. -/
def sendRate (l : List Rec) (i : Nat) (x : StreamSt) : Frac :=
  if x.kind = 2 then
    match surfaceNode l i with
    | some n => nodeRate l n
    | none => (0, 1)
  else budgetRate l x

/-- The wb term of a send of stream `i` over the cascade. -/
def sendTerm (l : List Rec) (i : Nat) : Frac :=
  match streamRec l i with
  | some x => sixteenths (x.width * x.height * Fmt.stored2 x.format x.mode) (sendRate l i x)
  | none => (0, 1)

/-- What running encoders and served subscriptions add to the demand of a record list. -/
def State.extraDemand (s : State) (l : List Rec) : Frac :=
  Frac.add (Frac.sum (((List.range 4).filter fun e => s.encState e != 0).map (s.encDemand l)))
    (Frac.sum (s.cas.sends.map fun e => sendTerm l e.strm))

/-! ### Layer pixels (R41) and lead (R42) -/

/-- Layer-pixels per second of a layer. -/
def pixelTerm (l : List Rec) (i : Nat) (d : LayerDesc) : Frac :=
  if d.enable then
    let c := canvasOf l (i / 16)
    let r := d.clip c.1 c.2
    let f := nodeRate l (i / 16)
    Frac.norm ((r.2.2.1 - r.1) * (r.2.2.2 - r.2.1) * f.1) f.2
  else (0, 1)

/-- The layer-pixel demand of a record list. -/
def pixelDemand (l : List Rec) : Frac := Frac.sum ((layersOf l).map fun e => pixelTerm l e.1 e.2)

/-- The source height of R42: the height of the level read, or of the INLINE child's canvas. -/
def LayerDesc.leadHeight (d : LayerDesc) (r : ResSrc) : Nat :=
  match r with
  | .inline _ _ h => h
  | .surface _ x _ => cdiv x.height (2 ^ d.level r)
  | _ => d.dstH

/-- The lead a node needs in lines (R42); `taps` gives a coefficient set's taps, `fuel` bounds the INLINE chain. -/
def leadNeed (l : List Rec) (taps : Nat → Nat) : Nat → Nat → Nat
  | 0, _ => 99
  | fuel + 1, n =>
    1 + (((layersOf l).filter fun e => e.1 / 16 == n && layerCosts l e.1 e.2).map fun e =>
      let d := e.2
      let r := resolve l d.source
      let t := if d.scaler = 0xFF then 0 else taps d.coefV
      let c := cdiv (t * max (d.leadHeight r) d.dstH) (2 * d.dstH)
      match r with
      | .inline k _ _ => c + leadNeed l taps fuel k
      | _ => c).foldl max 0

/-- The GLASS and GLASS_MEMORY nodes whose lead falls short (R42). -/
def leadShort (l : List Rec) (taps : Nat → Nat) : List Nat :=
  (recIds l RT.NODE).filter fun n => match nodeRec l n with
    | some r => (r.dest == 0 || r.dest == 2) && decide (r.lead < leadNeed l taps 257 n)
    | none => false

/-! ### The check (R39, R45) -/

/-- The first failing budget of a record list, as its code 0x18, 0x19 or 0x1A; 0 where all three pass. -/
def budgetCode (l : List Rec) (taps : Nat → Nat) (extra : Frac) : Nat :=
  let p := pixelDemand l
  if dramLimit l < (demand l extra).ceil then 0x18
  else if 103680000000 * p.2 < p.1 then 0x19
  else if !(leadShort l taps).isEmpty then 0x1A
  else 0

end Sys2Proof.Machine
end

