-- ==== Sys2Proof/Machine/Plan.lean ====
section
/-!
DEFINITION. Machine/Plan.lean: the structure checks of R63, code by code, on the records of a structure as it would
stand after a load; and the records that stand after a delta (R69, R70).
-/
namespace Sys2Proof.Machine

/-! ### Small readers of a record list -/

/-- Taps of the fixed scaler sets 0 to 5 (R374); sets 6 and 7 hold none. -/
def fixedTaps (k : Nat) : Nat := [2, 4, 6, 8, 8, 2].getD k 0

/-- The taps of coefficient set `k` in a record list, none where the set is not valid (R373). -/
def recTaps (l : List Rec) (k : Nat) : Option Nat :=
  if k < 8 then (if fixedTaps k = 0 then none else some (fixedTaps k))
  else match recBody l RT.SCALER_SET k with
    | some b => if setCounts.contains (leAt b 0 1) then some (leAt b 0 1) else none
    | none => none

/-- Bytes of one rank set of a DRAM_MAP body (R276). -/
def mapUnit (b : List Byte) : Nat := if leAt b 6 1 = 1 then 2 ^ 37 else 2 ^ 36

/-- The role of rank `i` in a DRAM_MAP body (R274). -/
def mapRole (b : List Byte) (i : Nat) : Nat := leAt b 0 4 / 4 ^ i % 4

/-- Ranks of a role in channel `c`. -/
def mapCount (b : List Byte) (c role : Nat) : Nat := ((chRanks c).filter fun i => mapRole b i == role).length

/-- HOT bytes and all bytes of a DRAM_MAP body (R276). -/
def mapHot (b : List Byte) : Nat := mapCount b 0 1 * mapUnit b
def mapAll (b : List Byte) : Nat := mapHot b + mapCount b 0 2 * mapUnit b

/-- HOT bytes of a record list; the boot map's without a DRAM_MAP (R277). -/
def hotOf (l : List Rec) : Nat :=
  match recBody l RT.DRAM_MAP 0 with
  | some b => mapHot b
  | none => 2 ^ 36

/-- KIND, base and end of each used region of a DRAM_MAP body (R274). -/
def mapKinds (b : List Byte) : List (Nat × Nat × Nat) :=
  ((List.range 6).filter fun k => leAt b (16 + 8 * k) 4 / 2 ^ 28 != 0).map fun k =>
    let base := leAt b (16 + 8 * k) 4 % 2 ^ 18 * 2 ^ 20
    (leAt b (16 + 8 * k) 4 / 2 ^ 28, base, base + leAt b (20 + 8 * k) 4 * 2 ^ 20)

/-- Two ranges [a, b) share a byte. -/
def rangesMeet (x y : Nat × Nat) : Bool := decide (x.1 < y.2) && decide (y.1 < x.2) && decide (x.1 < x.2) && decide (y.1 < y.2)

/-- The DRAM range of the allocation of stream `i` (R316). -/
def allocRange (x : StreamSt) : Nat × Nat := (x.base * 4096, if x.mode = 0 then x.base * 4096 else (x.base + x.size) * 4096)

/-- Every claimed DRAM range of a record list with the record that claims it: allocations, context windows, regions. -/
def claims (l : List Rec) : List ((Nat × Nat) × (Nat × Nat)) :=
  ((recIds l RT.STREAM).filterMap fun i => (streamRec l i).map fun x => ((RT.STREAM, i), allocRange x))
  ++ ((recIds l RT.DECODER_CONTEXT).filterMap fun c => (recBody l RT.DECODER_CONTEXT c).map fun b =>
      ((RT.DECODER_CONTEXT, c), ctxRange b))
  ++ match recBody l RT.DRAM_MAP 0 with
    | some b => (mapKinds b).map fun k => ((RT.DRAM_MAP, 0), k.2)
    | none => []

/-- A range of record (type, id) lies in HOT space and meets no range of another record (R275, R278, R317, R223). -/
def placeOk (l : List Rec) (type id : Nat) (r : Nat × Nat) : Bool :=
  decide (r.2 ≤ hotOf l) && (claims l).all fun e => e.1 == (type, id) || !rangesMeet r e.2

/-- The odd port of a bonded pair (R386). -/
def oddOfPair (l : List Rec) (n : Nat) : Bool :=
  n % 2 == 1 && match (recBody l RT.OUTPUT_TIMING (63 + n)).map Timing.ofBody with
    | some t => t.bonded
    | none => false

/-- The GLASS and GLASS_MEMORY nodes on output `n` (R30). -/
def glassOn (l : List Rec) (n : Nat) : List Nat :=
  (recIds l RT.NODE).filter fun k => match nodeRec l k with
    | some r => (r.dest == 0 || r.dest == 2) && (r.output == n || (r.bonded && r.output + 1 == n))
    | none => false

/-- A source entry names a GLASS node, or an ensemble whose face node is GLASS (R28). -/
def namesGlass (l : List Rec) (e : Nat) : Bool :=
  match faceOf l (SrcRef.ofEntry e) with
  | some n => match nodeRec l n with
    | some r => r.dest == 0
    | none => false
  | none => false

/-- A source entry names a stream without a surface (R317). -/
def namesBare (l : List Rec) (e : Nat) : Bool :=
  match SrcRef.ofEntry e with
  | .stream i => match streamRec l i with
    | some x => x.mode == 0
    | none => false
  | _ => false

/-- The object that a source entry names exists (R50). -/
def entryExists (l : List Rec) (e : Nat) : Bool :=
  match SrcRef.ofEntry e with
  | .stream i => (recBody l RT.STREAM i).isSome
  | .node n => (recBody l RT.NODE n).isSome
  | .ensemble k => (recBody l RT.ENSEMBLE k).isSome
  | .solid => true
  | .invalid => false

/-- The node a source entry leads to: itself, the face node of an ensemble, or none for a stream. -/
def entryNode (l : List Rec) (e : Nat) : Option Nat := faceOf l (SrcRef.ofEntry e)

/-- Members and input entries (node, slot) of an ENSEMBLE body (R58). -/
def ensMembers (b : List Byte) : List Nat := (List.range (leAt b 1 1)).map fun i => leAt b (8 + 2 * i) 2
def ensInputs (b : List Byte) : List (Nat × Nat × Nat) :=
  (List.range (leAt b 4 1)).map fun i =>
    let o := 8 + 2 * leAt b 1 1 + 4 * i
    (leAt b o 2, leAt b (o + 2) 1, leAt b (o + 3) 1)

/-- A node of another member in an ENSEMBLE record (R535). -/
def remoteNode (m : Nat) : Bool := m.testBit 15

/-- The ensembles that enclose ensemble `k`, along PARENT (R35, R58); `fuel` bounds the chain. -/
def enclosing (l : List Rec) : Nat → Nat → List Nat
  | 0, _ => []
  | fuel + 1, k =>
    match recBody l RT.ENSEMBLE k with
    | some b => if leAt b 0 1 = 0xFF then [] else leAt b 0 1 :: enclosing l fuel (leAt b 0 1)
    | none => []

/-- Ensemble `k` encloses itself nowhere (R16). -/
def ensembleAcyclic (l : List Rec) (k : Nat) : Bool := !(enclosing l 65 k).contains k

/-- The ensembles inside ensemble `k`, itself among them, with their bodies (R35). -/
def ensemblesIn (l : List Rec) (k : Nat) : List (Nat × List Byte) :=
  ((recIds l RT.ENSEMBLE).filter fun e => e == k || (enclosing l 65 e).contains k).filterMap fun e =>
    (recBody l RT.ENSEMBLE e).map fun b => (e, b)

/-- Ensemble `k` spans devices (R31, R35): it, or an ensemble inside it, has a member elsewhere. -/
def spansDevices (l : List Rec) (k : Nat) : Bool := (ensemblesIn l k).any fun e => (ensMembers e.2).any remoteNode

/-- The members on this device of an ensemble whose face node is on another are MEMORY nodes (R35). -/
def facedElsewhereOk (l : List Rec) (k : Nat) (b : List Byte) : Bool :=
  !remoteNode (ensembleFace b) || (ensemblesIn l k).all fun e => (ensMembers e.2).all fun m =>
    remoteNode m || match nodeRec l m with
      | some r => r.dest == 1
      | none => true

/-- Guarded layers in a node and the INLINE nodes beneath it (R396); `fuel` bounds the chain. -/
def guardedUnder (l : List Rec) : Nat → Nat → Nat
  | 0, _ => 0
  | fuel + 1, n =>
    (((layersOf l).filter fun e => e.1 / 16 == n).map fun e =>
      (if e.2.guard = 0 then 0 else 1) + match resolve l e.2.source with
        | .inline k _ _ => guardedUnder l fuel k
        | _ => 0).foldl (· + ·) 0

/-- A value is 0 or lies in a range. -/
def zeroOr (v lo hi : Nat) : Bool := v == 0 || (decide (lo ≤ v) && decide (v ≤ hi))

/-- A value lies in a range. -/
def inR (v lo hi : Nat) : Bool := decide (lo ≤ v) && decide (v ≤ hi)

/-! ### FIELD_RANGE (0x10), record by record -/

/-- R274, R275, R273: DRAM_MAP. -/
def dramMapOk (b : List Byte) : Bool :=
  let ks := mapKinds b
  let hot := mapHot b
  let cold := mapCount b 0 2
  [1, 2, 3].all (fun c => mapCount b c 1 == mapCount b 0 1 && mapCount b c 2 == cold)
  && decide (1 ≤ mapCount b 0 1) && [0, 1, 2, 3].all (fun c => decide (mapCount b c 3 ≤ 1))
  && (leAt b 6 1 == 0 || decide (mapCount b 0 1 + cold ≤ 2))
  && decide (leAt b 4 1 ≤ 2) && decide (leAt b 5 1 ≤ 2) && decide (leAt b 6 1 ≤ 1) && decide (leAt b 7 1 ≤ 1)
  && decide (1 ≤ leAt b 8 2) && zeroRange b 10 16
  && (List.range 6).all (fun k =>
    let w := leAt b (16 + 8 * k) 4
    bitsN w 27 18 == 0 && decide (w / 2 ^ 28 ≤ 3)
    && (if w / 2 ^ 28 = 0 then leAt b (20 + 8 * k) 4 == 0 else inR (leAt b (20 + 8 * k) 4) 1 262144))
  && ks.all (fun k => decide (k.2.2 ≤ hot) || (decide (hot ≤ k.2.1) && decide (k.2.2 ≤ mapAll b)))
  && (List.range ks.length).all (fun i => (List.range i).all fun j =>
    !rangesMeet (ks.getD i (0, 0, 0)).2 (ks.getD j (0, 0, 0)).2)
  && (match ks.filter fun k => k.1 == 2 with
    | [k] => decide (2 ^ 24 ≤ k.2.2 - k.2.1)
    | _ => false)
  && (cold == 0 || (ks.filter fun k => k.1 == 1).all fun k => decide (hot ≤ k.2.1))

/-- R213, R216, R56: PORT. -/
def portOk (l : List Rec) (n : Nat) (b : List Byte) : Bool :=
  if inR n 96 103 then
    decide (leAt b 0 1 ≤ 1) && decide (leAt b 1 1 ≤ 2) && decide (leAt b 2 1 ≤ 3) && leAt b 3 1 == 0
    && !(leAt b 4 1).testBit 0 && decide (leAt b 10 2 ≤ 4094)
  else
    (decide (n ≤ 39) || inR n 64 87 || inR n 112 115 || inR n 120 121)
    && decide (leAt b 0 1 ≤ 1) && decide (leAt b 1 1 ≤ if n ≤ 39 then 31 else 15) && decide (leAt b 2 2 < 1024)
    && decide (leAt b 4 1 ≤ if n ≤ 39 then 15 else 0) && zeroRange b 5 16
    && (leAt b 0 1 == 1 || !inR n 64 87 || (glassOn l (n - 64)).isEmpty)

/-- R267: FRAME_CLOCK. -/
def clockOk (k : Nat) (b : List Byte) : Bool :=
  let num := leAt b 0 4
  let den := leAt b 4 2
  decide (k ≤ 7) && decide (1 ≤ den) && decide (den ≤ num) && decide (num ≤ 240 * den) && decide (leAt b 6 1 ≤ 7)
  && leAt b 7 1 == 0 && decide (leAt b 8 4 * num < den * 1000000000) && leAt b 12 4 == 0
  && (k != 0 || (leAt b 6 1).testBit 0)

/-- R329 "Used by": a format may serve a stream kind. -/
def formatFor (f kind : Nat) : Bool :=
  if f = 0x09 ∨ f = 0x0A then kind != 0 else if f = 0x0B then kind == 2 || kind == 3 || kind == 4
  else if f = 0x0C then kind == 3 else inR f 1 8 && kind != 1

/-- The range of SRC by kind (R425), and that what it names points back (R19, R28). -/
def streamSrcOk (l : List Rec) (i : Nat) (x : StreamSt) : Bool :=
  match x.kind with
  | 1 => decide (x.src ≤ 255) && match recBody l RT.DECODER_CONTEXT x.src with
    | some c => leAt c 0 2 == i
    | none => true
  | 2 => (match SrcRef.ofEntry x.src with
    | .node _ => true
    | .ensemble _ => true
    | _ => false) && match entryNode l x.src with
      | some n => match nodeRec l n with
        | some r => r.surf == i
        | none => true
      | none => true
  | 4 => decide (x.src < 2 ^ 15)
  | _ => x.src == 0xFFFF

/-- RATE is in the range R425 gives it. -/
def streamRateOk (l : List Rec) (x : StreamSt) : Bool :=
  let ticks := match recBody l RT.DECODER_CONTEXT x.src with
    | some c => leAt c 10 2
    | none => 0
  if ((x.kind = 0 ∨ x.kind = 3) ∧ x.mode ≠ 0) ∨ (x.kind = 1 ∧ ticks = 0) then inR x.rate 1 240000 else x.rate == 0

/-- R316, R317, R330, R383: the surface binding. -/
def bindingOk (l : List Rec) (i : Nat) (x : StreamSt) (b : List Byte) : Bool :=
  decide (x.mode ≤ 3) && (x.mode != 0 || x.kind == 0)
  && (if x.mode = 2 then x.e == 1 || x.e == 2 || x.e == 4 else x.e == 0)
  && decide (leAt b 66 1 ≤ 1) && leAt b 67 1 == 0 && leAt b 76 4 == 0
  && (if x.mode = 0 then x.size == 0
      else decide (allocBytes x.format x.mode x.width x.height x.pyramid ≤ x.size * 4096)
        && placeOk l RT.STREAM i (allocRange x))
  && (x.format != 0x0C || (x.mode == 1 && !x.pyramid))

/-- R15, R18, R425, R426 and the binding: STREAM. -/
def streamOk (l : List Rec) (i : Nat) (b : List Byte) : Bool :=
  let x := StreamSt.ofBody b
  decide (i ≤ 4095) && decide (x.kind ≤ 4) && (x.kind == 0) == decide (i < 160) && formatFor x.format x.kind
  && inR x.width 1 16384 && inR x.height 1 16384 && decide (leAt b 6 1 ≤ 1) && leAt b 7 1 != 1
  && zeroRange b 10 56 && zeroRange b 60 64 && streamSrcOk l i x && streamRateOk l x && bindingOk l i x b

/-- R57, R267, R386, R396, R58: NODE. A LAYER record whose slot has no bit in LAYER_MASK is FIELD_RANGE here; a bit
without a LAYER record is REF_MISSING in `refsOk` (DESIGN CHOICE, assumption 69: R57 names no code for either). -/
def nodeOk (l : List Rec) (n : Nat) (b : List Byte) : Bool :=
  let r := NodeRec.ofBody b
  let glass := r.dest == 0 || r.dest == 2
  let mem := r.dest == 1 || r.dest == 2
  decide (n ≤ 255) && decide (r.dest ≤ 3)
  && (if r.dest = 3 then r.fclk == 0xFF else decide (r.fclk ≤ 7) && (clockRec l r.fclk).isSome)
  && inR r.w 16 16384 && inR r.h 16 16384 && (if glass then decide (r.output ≤ 23) else r.output == 0xFF)
  && decide (leAt b 7 1 ≤ 1) && (!r.bonded || (glass && r.output % 2 == 0))
  && (if mem then decide (r.surf ≤ 4095) else r.surf == 0xFFFF)
  && (if r.dest = 3 then decide (r.consumer ≤ 255) else r.consumer == 0xFFFF)
  && (decide (r.ensemble ≤ 63) || r.ensemble == 0xFF) && (if glass then inR r.lead 2 16 else r.lead == 0)
  && zeroRange b 20 32
  && (match streamRec l r.surf with
    | some x => !mem || x.kind == 2
    | none => true)
  && (match recBody l RT.ENSEMBLE r.ensemble with
    | some e => r.ensemble == 0xFF || (ensMembers e).contains n
    | none => true)
  && ((layersOf l).all fun e => e.1 / 16 != n || r.mask.testBit (e.1 % 16))
  && (!glass || ((recBody l RT.OUTPUT_TIMING (64 + r.output)).isSome && decide (guardedUnder l 257 n ≤ 128)))

/-- R331, R333 to R335, R339, R364, R369, R28, R317: LAYER. -/
def layerOk (l : List Rec) (sets : Nat → Option Nat) (i : Nat) (b : List Byte) : Bool :=
  let d := LayerDesc.ofBody b
  decide (i ≤ 4095) && descOk l i b && descSetsOk (fun k => (sets k).isSome) d
  && (d.source == 0xFFFF || (!namesGlass l d.source && !namesBare l d.source))

/-- An input entry's node is no GLASS node (R28: DEDUCED, assumption 45). -/
def inputOk (l : List Rec) (n : Nat) : Bool :=
  remoteNode n || match nodeRec l n with
    | some r => r.dest != 0
    | none => true

/-- R58, R28, R535: ENSEMBLE; R35 by the code of a field out of range (DESIGN CHOICE, assumption 45). -/
def ensembleOk (l : List Rec) (k : Nat) (b : List Byte) : Bool :=
  let ms := ensMembers b
  decide (k ≤ 63) && (decide (leAt b 0 1 ≤ 63) || leAt b 0 1 == 0xFF) && decide (1 ≤ leAt b 1 1)
  && ms.contains (ensembleFace b) && decide (leAt b 4 1 ≤ 16) && zeroRange b 5 8
  && ms.all (fun m => if remoteNode m then bitsN m 11 8 == 0 else decide (m ≤ 255) && match nodeRec l m with
    | some r => r.ensemble == k
    | none => true)
  && (ensInputs b).all (fun e => ms.contains e.1 && decide (e.2.1 ≤ 15) && e.2.2 == 0 && inputOk l e.1)
  && facedElsewhereOk l k b

/-- R59, R28: SELECT. -/
def selectOk (l : List Rec) (i : Nat) (b : List Byte) : Bool :=
  decide (i ≤ 4095) && inR (leAt b 0 2) 1 64 && leAt b 2 2 == 0
  && (List.range (leAt b 0 2)).all fun k =>
    let e := leAt b (4 + 2 * k) 2
    (match SrcRef.ofEntry e with
    | .invalid => false
    | .solid => false
    | _ => true) && !namesGlass l e

/-- The line rate of a port in bits per `num / den` scaled seconds fits 29.76 Gb/s (R200, R201). -/
def lineRateOk (t : Timing) (f : Frac) : Bool :=
  let c := cutLine t.portW
  let seg := fun w => cdiv (w * Fmt.bits t.fmt) 8 + 23
  let bytes := (c.1 - 1) * seg c.2 + seg (t.portW - (c.1 - 1) * c.2)
  decide (8 * bytes * t.total * f.1 ≤ 29760000000 * f.2)

/-- R385, R386, R201: OUTPUT_TIMING. -/
def timingOk (l : List Rec) (id : Nat) (b : List Byte) : Bool :=
  let t := Timing.ofBody b
  let n := id - 64
  let nodes := glassOn l n
  inR id 64 87 && (if t.bonded then t.w == 7680 && inR t.h 16 4320 && n % 2 == 0 else inR t.w 16 4096 && inR t.h 16 2160)
  && inR t.total (t.h + 8) 8191 && inR t.fmt 1 8 && decide (leAt b 7 1 ≤ 1) && inR t.commitLead 3 255
  && decide (t.mode ≤ 2) && (if t.mode = 0 then t.gridX == 0 && t.gridY == 0 else inR t.gridX 1 8 && inR t.gridY 1 8)
  && zeroRange b 12 48 && !(Fmt.halfH t.fmt && t.w % 2 == 1) && decide (t.commitLead + t.h + 2 ≤ t.total)
  && !oddOfPair l n
  && (nodes.filterMap (nodeRec l)).all (fun r =>
    decide (r.lead + 1 ≤ t.commitLead) && r.w == t.w && r.h == t.h && r.bonded == t.bonded)
  && (if nodes.isEmpty then [clockRate l 0] else nodes.map (nodeRate l)).all (lineRateOk t)

/-- R412: CHECK_ASSIGN. -/
def checkOk (l : List Rec) (c : Nat) (b : List Byte) : Bool :=
  let kind := leAt b 0 1
  let target := leAt b 4 2
  decide (c ≤ 63) && decide (kind ≤ 2) && decide (leAt b 1 1 ≤ 3) && decide (leAt b 2 1 ≤ 1) && leAt b 3 1 == 0
  && leAt b 6 2 == 0
  && (if kind = 0 then target == 0 else if kind = 1 then decide (target ≤ 4095)
      else decide (target ≤ 23) && !oddOfPair l target)

/-- R424: GUARD_POLICY. -/
def guardOk (id : Nat) (b : List Byte) : Bool :=
  id == 0 && inR (leAt b 0 4) 1 16777215 && inR (leAt b 4 4) 1 16777215 && decide (leAt b 0 4 < leAt b 4 4)
  && decide (2 ≤ leAt b 8 1) && decide (leAt b 9 1 ≤ 1) && zeroRange b 10 16

/-- The rows of the variant of `t` taps of a SCALER_SET body (R373). -/
def setRows (b : List Byte) (t : Nat) : List (List Int) :=
  let start := 4 + 128 * ((setCounts.filter fun c => decide (c ≤ leAt b 0 1) && decide (t < c)).foldl (· + ·) 0)
  (List.range 64).map fun ph => (List.range t).map fun j => signedN 16 (leAt b (start + 2 * (t * ph + j)) 2)

/-- R371 to R373: SCALER_SET. -/
def scalerSetOk (k : Nat) (b : List Byte) : Bool :=
  inR k 8 127 && setCounts.contains (leAt b 0 1) && zeroRange b 1 4
  && (setCounts.filter fun c => decide (c ≤ leAt b 0 1)).all fun t => rowsOk (setRows b t)

/-- R467: TOUCH_HEAD. -/
def touchHeadOk (l : List Rec) (h : Nat) (b : List Byte) : Bool :=
  let r := HeadRec.ofBody b
  let used := r.freqs.filter (· != 0)
  decide (h ≤ 23) && decide (r.output ≤ 23) && decide (leAt b 1 1 ≤ 7) && inR r.cols 1 96 && inR r.rows 1 64
  && inR r.panelW 16 16384 && inR r.panelH 16 16384 && used.all (fun f => inR f 50 500) && r.freqs.getD 0 0 != 0
  && used.eraseDups.length == used.length && inR r.integ 1 1024 && decide (r.rateTop ≤ 2) && zeroOr r.minuet 10 255
  && inR r.tTouch 16 32767
  && (if r.glove then decide (8 ≤ r.tGlove) && decide (r.tGlove < r.tTouch) else r.tGlove == 0)
  && (if r.water then decide (4 ≤ r.tWater) && decide (r.tWater < if r.glove then r.tGlove else r.tTouch)
      else r.tWater == 0)
  && inR r.tAnti 16 32767 && inR r.tNoise 1 32767 && decide (r.colMask < 2 ^ r.cols) && decide (r.rowMask < 2 ^ r.rows)
  && zeroRange b 52 64
  && (recBody l RT.OUTPUT_TIMING (64 + r.output)).isSome && !oddOfPair l r.output
  && (recIds l RT.TOUCH_HEAD).all fun k => decide (h ≤ k) || match recBody l RT.TOUCH_HEAD k with
    | some o => leAt o 0 1 != r.output
    | none => true

/-- SEAL_LEAD of a TWIN body in µs, after its default (R492). -/
def twinSealLead (b : List Byte) : Nat := if leAt b 4 2 = 0 then 4000 else leAt b 4 2

/-- R492: TWIN. -/
def twinOk (l : List Rec) (id : Nat) (b : List Byte) : Bool :=
  let f := clockRate l 0
  id == 0 && zeroOr (leAt b 0 2) 100 1000 && zeroOr (leAt b 2 1) 4 32 && zeroOr (leAt b 3 1) 5 50
  && zeroOr (leAt b 4 2) 1500 8000 && decide (leAt b 6 1 ≤ 15) && decide (leAt b 7 1 ≤ 16) && decide (leAt b 9 1 ≤ 1)
  && zeroRange b 10 32 && decide ((twinSealLead b + 1000) * 1000 * f.1 < f.2 * 1000000000)

/-- R523: CASCADE; `cid` is the CASCADE_ID strap. -/
def cascadeOk (cid id : Nat) (b : List Byte) : Bool :=
  id == 0 && inR (leAt b 0 1) 2 8 && decide (cid < leAt b 0 1) && decide (leAt b 2 1 ≤ 1) && decide (leAt b 3 1 ≤ 100)
  && zeroOr (leAt b 4 2) 100 1000 && zeroOr (leAt b 6 1) 4 32 && zeroOr (leAt b 8 2) 100 5000 && zeroRange b 10 32

/-- R128: REEL. -/
def reelOk (l : List Rec) (m : Nat) (b : List Byte) : Bool :=
  decide (m ≤ 64) && inR (leAt b 0 2) 1 512 && decide (leAt b 2 1 ≤ 3) && (!(leAt b 2 1).testBit 1 || decide (m ≤ 39))
  && decide (leAt b 3 1 ≤ 15)
  && (recIds l RT.REEL).all fun k => decide (m ≤ k) || match recBody l RT.REEL k with
    | some o => leAt o 3 1 &&& leAt b 3 1 == 0
    | none => true

/-- GROUP of a DECODER_CONTEXT is a multicast group, or the own unicast address of each of its ports as their PORT
records give it (R216, R221; each port: DEDUCED, assumption 56). -/
def groupOk (l : List Rec) (b : List Byte) : Bool :=
  let own := fun (r : List Byte) =>
    if (leAt b 5 1).testBit 3 then slice b 16 16 == linkLocalOf (slice r 4 6)
    else leAt r 12 4 != 0 && slice b 28 4 == slice r 12 4
  ctxMulticast b || (ctxPorts b).all fun n => match recBody l RT.PORT (96 + n) with
    | some r => own r
    | none => false

/-- R221 to R223, R19: DECODER_CONTEXT. -/
def contextOk (l : List Rec) (c : Nat) (b : List Byte) : Bool :=
  let mode := leAt b 5 1
  let win := leAt b 12 4
  let range := ctxRange b
  decide (c ≤ 255) && inR (leAt b 0 2) 160 4095 && decide (1 ≤ leAt b 2 2) && decide (1 ≤ leAt b 4 1)
  && decide (mode < 64) && bitsN mode 2 1 != 3 && inR (leAt b 6 1) 96 127 && decide (leAt b 7 1 / 16 ≤ 10)
  && decide (leAt b 8 2 ≤ 4094) && decide (win < 2 ^ 28) && decide (1 ≤ bitsN win 27 18)
  && (mode.testBit 3 || (zeroRange b 16 28 && zeroRange b 32 44)) && (mode.testBit 4 || zeroRange b 32 48)
  && placeOk l RT.DECODER_CONTEXT c range && groupOk l b
  && (match streamRec l (leAt b 0 2) with
    | some x => x.kind == 1 && x.src == c && (x.format == 0x09 || x.format == 0x0A) && decide (x.width ≤ 4096)
        && decide (x.height ≤ 2304)
        && decide (4 * 2 ^ 20 + 2 ^ 20 + (leAt b 7 1 % 16 + 2) *
            (cdiv x.width 64 * 64 * (cdiv x.height 64 * 64) * Fmt.bits x.format / 8) ≤ bitsN win 27 18 * 2 ^ 20)
    | none => true)
  && (recIds l RT.DECODER_CONTEXT).all fun k => decide (c ≤ k) || match recBody l RT.DECODER_CONTEXT k with
    | some o => leAt o 4 1 &&& leAt b 4 1 == 0 || leAt o 8 2 != leAt b 8 2 || leAt o 2 2 != leAt b 2 2
        || slice o 16 32 != slice b 16 32
    | none => true

/-- The types that a REMOVE may name (R70). -/
def removable : List Nat :=
  [RT.STREAM, RT.NODE, RT.LAYER, RT.ENSEMBLE, RT.SELECT, RT.SCALER_SET, RT.CHECK_ASSIGN, RT.DECODER_CONTEXT]

/-- FIELD_RANGE of one record of the resulting structure; `sets`: the taps of its valid coefficient sets. -/
def recOk (l : List Rec) (sets : Nat → Option Nat) (cid : Nat) (r : Rec) : Bool :=
  let b := r.body
  if r.type = RT.DRAM_MAP then r.id == 0 && dramMapOk b
  else if r.type = RT.PORT then portOk l r.id b
  else if r.type = RT.FRAME_CLOCK then clockOk r.id b
  else if r.type = RT.STREAM then streamOk l r.id b
  else if r.type = RT.NODE then nodeOk l r.id b
  else if r.type = RT.LAYER then layerOk l sets r.id b
  else if r.type = RT.ENSEMBLE then ensembleOk l r.id b
  else if r.type = RT.SELECT then selectOk l r.id b
  else if r.type = RT.OUTPUT_TIMING then timingOk l r.id b
  else if r.type = RT.CHECK_ASSIGN then checkOk l r.id b
  else if r.type = RT.GUARD_POLICY then guardOk r.id b
  else if r.type = RT.SCALER_SET then scalerSetOk r.id b
  else if r.type = RT.TOUCH_HEAD then touchHeadOk l r.id b
  else if r.type = RT.TWIN then twinOk l r.id b
  else if r.type = RT.CASCADE then cascadeOk cid r.id b
  else if r.type = RT.REEL then reelOk l r.id b
  else if r.type = RT.DECODER_CONTEXT then contextOk l r.id b
  else true

/-! ### The other structure checks -/

/-- REF_MISSING (0x12): every object that a record of the structure refers to exists (R50, R70, R412); remote entries of
an ensemble are not checked (R535). A bit of LAYER_MASK and a SELECT record need their LAYER record (DESIGN CHOICE,
assumption 69). -/
def refsOk (l : List Rec) (r : Rec) : Bool :=
  let b := r.body
  let hasNode := fun n => (recBody l RT.NODE n).isSome
  if r.type = RT.STREAM then
    let x := StreamSt.ofBody b
    if x.kind = 1 then (recBody l RT.DECODER_CONTEXT x.src).isSome else x.kind != 2 || entryExists l x.src
  else if r.type = RT.NODE then
    let x := NodeRec.ofBody b
    (x.surf == 0xFFFF || (recBody l RT.STREAM x.surf).isSome) && (x.consumer == 0xFFFF || hasNode x.consumer)
    && (x.ensemble == 0xFF || (recBody l RT.ENSEMBLE x.ensemble).isSome)
    && (List.range 16).all fun k => !x.mask.testBit k || (recBody l RT.LAYER (r.id * 16 + k)).isSome
  else if r.type = RT.LAYER then hasNode (r.id / 16) && entryExists l (leAt b 0 2)
  else if r.type = RT.ENSEMBLE then
    (leAt b 0 1 == 0xFF || (recBody l RT.ENSEMBLE (leAt b 0 1)).isSome)
    && (ensMembers b).all fun m => remoteNode m || hasNode m
  else if r.type = RT.SELECT then
    (recBody l RT.LAYER r.id).isSome && (List.range (leAt b 0 2)).all fun k => entryExists l (leAt b (4 + 2 * k) 2)
  else if r.type = RT.CHECK_ASSIGN then leAt b 0 1 != 1 || (recBody l RT.STREAM (leAt b 4 2)).isSome
  else if r.type = RT.DECODER_CONTEXT then (recBody l RT.STREAM (leAt b 0 2)).isSome
  else true

/-- Node `n` never takes its own output as a source (R16). -/
def acyclicAt (l : List Rec) (n : Nat) : Bool := !(reach l 257 [n] []).contains n

/-- CYCLE (0x13) of one record: nodes and ensembles alike (R16). -/
def recAcyclic (l : List Rec) (r : Rec) : Bool :=
  if r.type = RT.NODE then acyclicAt l r.id else if r.type = RT.ENSEMBLE then ensembleAcyclic l r.id else true

/-- An INLINE node has exactly one layer that takes it, in its CONSUMER, on this device, and is in no ensemble that
spans devices, nested ones counted (R31). -/
def inlineOk (l : List Rec) (n : Nat) (x : NodeRec) : Bool :=
  x.dest != 3
  || ((((layersOf l).filter fun e => entryNode l e.2.source == some n).map fun e => e.1 / 16) == [x.consumer]
    && (x.ensemble == 0xFF || !(x.ensemble :: enclosing l 65 x.ensemble).any (spansDevices l)))

/-- A STRICT layer does not read a BUDGET surface (R27, R360). -/
def strictOk (l : List Rec) (d : LayerDesc) : Bool := d.guard != 2 || !(resolve l d.source).budget

/-- An output takes exactly one GLASS or GLASS_MEMORY node; a pair's canvas is 7680 wide and 16 to 4320 high (R30). -/
def outputOk (l : List Rec) (n : Nat) (x : NodeRec) : Bool :=
  !(x.dest == 0 || x.dest == 2)
  || ((glassOn l x.output) == [n] && (!x.bonded || ((glassOn l (x.output + 1)) == [n] && x.w == 7680 && inR x.h 16 4320)))

/-- The verdict of a rule over every record: `code` with the first record that breaks it; `idx` gives a record's
catalogue index in the image. -/
def overRecs (l : List Rec) (idx : Nat → Nat → Nat) (code : Nat) (ok : Rec → Bool) : Verdict :=
  match l.find? fun r => !ok r with
  | some r => { code := code, record := idx r.type r.id, object := r.id }
  | none => {}

/-- A rule over the nodes. -/
def overNodes (l : List Rec) (idx : Nat → Nat → Nat) (code : Nat) (ok : Nat → NodeRec → Bool) : Verdict :=
  overRecs l idx code fun r => r.type != RT.NODE || ok r.id (NodeRec.ofBody r.body)

/-- LIMIT (0x11): no more objects of one kind than R15 allows. -/
def limitOk (l : List Rec) : Bool :=
  decide ((recIds l RT.STREAM).length ≤ 4096) && decide ((recIds l RT.NODE).length ≤ 256)
  && decide ((recIds l RT.LAYER).length ≤ 4096) && decide ((recIds l RT.ENSEMBLE).length ≤ 64)

/-- The structure checks of a record list in ascending code (R63); `sets` are the taps of the valid coefficient sets,
`extra` is the demand of R452 and R530. -/
def structureCheck (l : List Rec) (sets : Nat → Option Nat) (idx : Nat → Nat → Nat) (cid : Nat) (extra : Frac) : Verdict :=
  let taps := fun k => (sets k).getD 0
  firstFail
    [overRecs l idx 0x10 (recOk l sets cid), Verdict.need (decide (mcastEntries l ≤ 1024)) 0x10,
     Verdict.need (limitOk l) 0x11, overRecs l idx 0x12 (refsOk l), overRecs l idx 0x13 (recAcyclic l),
     overNodes l idx 0x14 (inlineOk l),
     overRecs l idx 0x15 (fun r => r.type != RT.LAYER || strictOk l (LayerDesc.ofBody r.body)),
     overNodes l idx 0x16 (outputOk l), Verdict.need (decide ((demand l extra).ceil ≤ dramLimit l)) 0x18,
     Verdict.need (budgetCode l taps extra != 0x19) 0x19,
     overNodes l idx 0x1A (fun n _ => !(leadShort l taps).contains n)]

/-! ### Deltas (R69, R70) -/

/-- Put a record into a list ordered by TYPE and ID, replacing the one with its TYPE and ID. -/
def putRec (r : Rec) : List Rec → List Rec
  | [] => [r]
  | x :: t =>
    if x.type = r.type ∧ x.id = r.id then r :: t
    else if r.type < x.type ∨ (r.type = x.type ∧ r.id < x.id) then r :: x :: t
    else x :: putRec r t

/-- Remove the object (TYPE, ID) with the records that belong only to it: a node's layers and SELECT records (R69). -/
def dropRec (l : List Rec) (k : Nat × Nat) : List Rec :=
  l.filter fun r => !((r.type == k.1 && r.id == k.2)
    || (k.1 == RT.NODE && (r.type == RT.LAYER || r.type == RT.SELECT) && r.id / 16 == k.2))

/-- What an act of a delta makes of a list of records. -/
def RecAct.on (l : List Rec) : RecAct → List Rec
  | .put r => putRec r l
  | .remove t i => dropRec l (t, i)

/-- TYPE and ID of the record an act is about. -/
def RecAct.key : RecAct → Nat × Nat
  | .put r => (r.type, r.id)
  | .remove t i => (t, i)

/-- A later act `a` leaves nothing of act `b` to do: it is about the same record, or removes its node. -/
def RecAct.covers (a b : RecAct) : Bool :=
  a.key == b.key || match a with
    | .remove t i => t == RT.NODE && (b.key.1 == RT.LAYER || b.key.1 == RT.SELECT) && b.key.2 / 16 == i
    | .put _ => false

/-- The acts of a delta, in the order they take effect: removals first (R69). -/
def actsOf (recs : List Rec) (removes : List (Nat × Nat)) : List RecAct :=
  (removes.map fun k => .remove k.1 k.2) ++ recs.map .put

/-- TYPE and ID that a REMOVE body names. -/
def removeKey (b : List Byte) : Nat × Nat := (leAt b 0 2, leAt b 2 2)

/-- The removals of a list of records. -/
def removesOf (l : List Rec) : List (Nat × Nat) := (l.filter fun r => r.type == RT.REMOVE).map fun r => removeKey r.body

/-- The records that a structure takes from an image: neither removals nor informational ones. -/
def carried (l : List Rec) : List Rec := l.filter fun r => r.type != RT.REMOVE && !informational r.type

/-- The records that stand after a delta's records and removals apply to a list (R69): removals first. -/
def mergeRecs (base recs : List Rec) (removes : List (Nat × Nat)) : List Rec :=
  (actsOf recs removes).foldl RecAct.on base

/-- The rules of R70 for the REMOVE records of a delta, FIELD_RANGE: their IDs count up from 0; each names a removable
type; none twice; none that the delta also carries. -/
def removesOk (recs : List Rec) (idx : Nat → Nat → Nat) : Verdict :=
  let rs := recs.filter fun r => r.type == RT.REMOVE
  let keys := rs.map fun r => removeKey r.body
  firstFail ((indexed rs).map fun (i, r) =>
    let k := removeKey r.body
    if r.id == i && removable.contains k.1 && !((keys.take i).contains k)
        && !recs.any (fun x => x.type == k.1 && x.id == k.2) then {}
    else { code := 0x10, record := idx r.type r.id, object := r.id })

/-- REF_MISSING of a REMOVE that names a record absent from the structure the delta applies to (R70). -/
def removesFound (base recs : List Rec) (idx : Nat → Nat → Nat) : Verdict :=
  overRecs (recs.filter fun r => r.type == RT.REMOVE) idx 0x12 fun r =>
    (recBody base (removeKey r.body).1 (removeKey r.body).2).isSome

/-- The types a delta may carry (DELTA_SCOPE). -/
def deltaTypes : List Nat :=
  [RT.STREAM, RT.NODE, RT.LAYER, RT.ENSEMBLE, RT.SELECT, RT.SCALER_SET, RT.CHECK_ASSIGN, RT.GUARD_POLICY,
   RT.DECODER_CONTEXT, RT.REMOVE]

/-! ### Checks of a whole image (R63) -/

/-- The catalogue index of a record in an image, 0xFFFF where the image does not hold it. -/
def recIndex (recs : List Rec) (type id : Nat) : Nat :=
  match (indexed recs).find? fun e => e.2.type == type && e.2.id == id with
  | some e => e.1
  | none => 0xFFFF

/-- FIELD_RANGE of the header (R52): FLAGS, GEN, BASE_GEN, DELTA_FCLK and reserved bytes. -/
def headerOk (b : List Byte) : Bool :=
  decide (leAt b 8 4 ≤ 1) && decide (1 ≤ imgGen b) && zeroRange b 38 40 && zeroRange b 52 60 && decide (imgFclk b ≤ 7)
  && (imgDelta b || (imgBase b == 0 && imgFclk b == 0))

/-- The structure checks of a full image that has passed the integrity checks (R63, R275). -/
def fullCheck (b : List Byte) (cid : Nat) : Verdict :=
  let recs := imgRecs b
  let l := carried recs
  firstFail [Verdict.need (headerOk b && (recBody l RT.DRAM_MAP 0).isSome) 0x10,
    structureCheck l (recTaps l) (recIndex recs) cid (0, 1)]

/-- The delta and structure checks of a delta over the structure it would find, `pending` deltas standing accepted (R46,
R63, R69, R70): `l` the structure as it will stand after the delta (R45), `sets` the taps of its valid coefficient sets.
-/
def deltaCheck (b : List Byte) (base l : List Rec) (sets : Nat → Option Nat) (baseGen pending cid : Nat) (extra : Frac) :
    Verdict :=
  let recs := imgRecs b
  let idx := recIndex recs
  firstFail
    [Verdict.need (imgBase b == baseGen) 0x20,
     overRecs recs idx 0x21 (fun r => informational r.type || deltaTypes.contains r.type),
     Verdict.need (decide (pending < 4)) 0x22, Verdict.need (decide (imgBase b < imgGen b)) 0x23,
     Verdict.need (headerOk b && (clockRec l (imgFclk b)).isSome) 0x10, removesOk recs idx,
     (let v := structureCheck l sets idx cid extra
      if v.code = 0x10 ∨ v.code = 0x11 then v else (removesFound base recs idx).orElse v)]

end Sys2Proof.Machine
end

