-- ==== Sys2Proof/Machine/Loader.lean ====
section
/-!
DEFINITION. Machine/Loader.lean: how a structure starts (R68, R129, R412 ...), how a delta takes effect (R46 to R49,
R69, R226), and the load result window (R72, R95).
-/
namespace Sys2Proof.Machine

/-! ### The load result window (R72, R94, R95) -/

/-- A result enters the window (R94): LOAD_RESULT, vector 17. -/
def State.showLoad (s : State) (r : LoadResult) : State :=
  let w := w32 (2 ^ 31 + (if r.unprov then 2 ^ 30 else 0) + s.nextSeqOf Reg.SYS_LOAD_STATUS * 2 ^ 16 + r.code % 256 * 256
    + r.source % 16 * 16)
  ((((s.setReg Reg.SYS_LOAD_STATUS w).setReg Reg.SYS_LOAD_GEN (w32 r.gen)).setReg Reg.SYS_LOAD_DETAIL
    (w32 (r.record % 65536 * 65536 + r.object % 65536))).raise .loadResult).sendVector 17

/-- The loader posts a result: at once, or once the window is free (R95). -/
def State.postLoad (s : State) (r : LoadResult) : State :=
  if s.bit Reg.SYS_LOAD_STATUS 31 then { s with ld := { s.ld with held := some r } } else s.showLoad r

/-- The result of a verdict. -/
def Verdict.result (v : Verdict) (source gen : Nat) (unprov : Bool) : LoadResult :=
  { code := v.code, source := source, gen := gen, record := v.record, object := v.object, unprov := unprov && v.code == 0 }

/-- The result of an image that passed this device's own check and is refused all the same: STRUCT_REFUSED (R510). -/
def LoadResult.refused (r : LoadResult) : LoadResult := { r with code := 0x32, unprov := false }

/-! ### Pieces of a structure start -/

/-- Every listed register or table word at offsets [lo, hi) returns to its reset value. -/
def State.clearRange (s : State) (lo hi : Nat) : State :=
  { s with regs := s.regs.filter fun e => !(decide (lo ≤ e.1) && decide (e.1 < hi)) }

/-- The window bytes of a SCALER_SET body (R372, R373): TAPS, 63 zero bytes, each variant at its place. -/
def setWindow (b : List Byte) : List (Nat × List Byte) :=
  let ts := setCounts.filter fun c => decide (c ≤ leAt b 0 1)
  (0, leBytes 4 (leAt b 0 1)) ::
    ts.map fun t => (variantOff t, slice b (4 + 128 * ((ts.filter fun c => decide (t < c)).foldl (· + ·) 0)) (128 * t))

/-- Loadable coefficient set `k` from its record, or TAPS 0 without one (R373, R375). -/
def State.loadSet (s : State) (k : Nat) (b : Option (List Byte)) : State :=
  let s1 := s.clearRange (coefBase k) (coefBase k + 4096)
  (match b with
    | some b => (setWindow b).foldl (fun (t : State) (e : Nat × List Byte) => t.putWindow (coefBase k + e.1) e.2) s1
    | none => s1).checkSet k

/-- PORT_CTRL of a J-Link port from its PORT record (R213); a port without one stands as after reset. -/
def State.loadPort (s : State) (recs : List Rec) (port ctrl : Nat) : State :=
  match recBody recs RT.PORT port with
  | some b => s.setReg ctrl (w32 (leAt b 0 1 % 2 * 2 ^ 31 + leAt b 1 1 % 32 * 2 ^ 16 + leAt b 2 2 % 1024))
  | none => s.setReg ctrl (Reg.resetValue ctrl)

/-- The four cascade ports of a record list. -/
def State.loadCascadePorts (s : State) (recs : List Rec) : State :=
  [0, 1, 2, 3].foldl (fun t i => t.loadPort recs (112 + i) (Reg.JLX_PORT_CTRL i)) s

/-- Every J-Link port (R213). -/
def State.loadPorts (s : State) : State :=
  let s1 := (List.range 40).foldl (fun t n => t.loadPort s.ld.recs n (Reg.JLI_PORT_CTRL n)) s
  let s2 := (List.range 24).foldl (fun t n => t.loadPort s.ld.recs (64 + n) (Reg.JLO_PORT_CTRL n)) s1
  let s3 := s2.loadCascadePorts s.ld.recs
  (s3.loadPort s.ld.recs 120 (Reg.JLX_PORT_CTRL 4)).loadPort s.ld.recs 121 (Reg.JLX_PORT_CTRL 5)

/-- Step machine `m` as a structure starts it (R129). -/
def State.loadMachine (s : State) (m : Nat) : State :=
  let words := fun (b : List Byte) => (List.range (leAt b 0 2)).foldl
    (fun c i => Cells.put (fun _ => (0 : Word)) c i (w32 (leAt b (4 + 4 * i) 4))) []
  match s.body RT.REEL m with
  | some b =>
    let run := (leAt b 2 1).testBit 0
    let ctrl := (if run then 2 ^ 31 else 0) + leAt b 3 1 % 16 * 2 ^ 22 + leAt b 0 2 % 1024
    ((s.setMachine m { prog := words b }).setReg (Reg.STM_CTRL m) (w32 ctrl)).setReg (Reg.STM_STATUS m)
      (if run then wput 0 31 29 1 else 0)
  | none => ((s.setMachine m {}).setReg (Reg.STM_CTRL m) 0).setReg (Reg.STM_STATUS m) 0

/-- What an output carries from one structure to the next: everything between it and its head (R392, R405), and a frame
that has begun, which goes on to its VIDEO_FE (R388) without a memory copy. `t`, `lead`: its raster until now. -/
def OutputSt.carried (o : OutputSt) (t : Option Timing) (lead : Nat) : OutputSt :=
  { o with wanted := none, cur := o.cur.map fun f => { f with memory := false },
           old := if !o.begun then none else if o.old.isSome then o.old else t.map fun x => (x, lead) }

/-- Layer `i` enters the structure with a descriptor: its entry in the Layer Descriptor Table. -/
def State.loadLayer (s : State) (i : Nat) (b : List Byte) : State :=
  (s.clearRange (ldtBase i) (ldtBase i + 64)).putWindow (ldtBase i) b

/-- An image whose check is open at the peer as the structure ends that it was checked against is refused (DESIGN CHOICE,
assumption 68): its one result follows (R72). -/
def State.refuseOpen (s : State) (open_ : Option LoadResult) : State :=
  match open_ with
  | some r => { s with ld := { s.ld with deltaVerdict := none, nextVerdict := none } }.postLoad r.refused
  | none => s

/-- The alarms that follow layers, outputs, streams and heads, evaluated again. -/
def State.reviewAlarms (s : State) : State :=
  (((((s.guardAlarm).countLanterns.glassAlarms).dualAlarm).floodAlarm).scanFault false).freezeAlarm

/-- Every decoder context stops; its groups are left (R226). -/
def State.stopContexts (s : State) : State :=
  let s1 := (List.range 256).foldl State.ctxGone s
  (s1.cmd.decs.map fun p => p.cmd.obj).foldl (fun t c => t.decEnd c true) s1

/-- Contexts with AUTOSTART start (R226). -/
def State.autostart (s : State) : State :=
  (recIds s.ld.recs RT.DECODER_CONTEXT).foldl (fun t c => match t.ctxBody c with
    | some b => if (leAt b 5 1).testBit 5 then t.ctxStart c else t
    | none => t) s

/-- TOUCH_ZONE commands that wait for their commit points belong to the structure that ends (R483): discarded, each with
OBJECT_GONE as its zone has gone (R49; DESIGN CHOICE, assumption 48). -/
def State.dropZones (s : State) : State :=
  let isZone := fun (h : Held) => match h.change with
    | .zone _ _ _ _ _ _ _ _ => true
    | _ => false
  let l := s.cmd.held.filter isZone
  { s with cmd := { s.cmd with held := s.cmd.held.filter fun h => !isZone h } }.endGone l

/-- A structure starts (R68, R129, R213, R216, R267, R276, R375, R412, R425, R452, R483, R491, R530): all streams
begin UNKNOWN, and the STRUCT_ alarms end (DESIGN CHOICE, assumption 48). `twin`: the twin starts afresh; a structure
start that a snapshot causes keeps the twin (R515). -/
def State.structureStart (s : State) (gen : Nat) (recs : List Rec) (images : List (List Byte)) (twin : Bool) : State :=
  let s0 := s.stopContexts.encStopAll.dropZones
  let s1 := { s0 with
    ld := { s0.ld with gen := gen, recs := recs, loaded := true, next := none, deltas := [], late := [],
                       startCard := false, images := images }
    streams := (recIds recs RT.STREAM).foldl (fun c i => match recBody recs RT.STREAM i with
      | some b => Cells.put (fun _ => ({} : StreamSt)) c i (StreamSt.ofBody b)
      | none => c) []
    nodes := [], layers := []
    outputs := (List.range 24).foldl (fun c n => Cells.put (fun _ => ({} : OutputSt)) c n ((s0.output n).carried (s0.timing n) (s0.lead n))) []
    encIrap := [] }
  let s2 := s1.setReg Reg.SYS_BOOT_STAGE 5
  let s3 := match s2.body RT.DRAM_MAP 0 with
    | some b => s2.memLoad b
    | none => s2
  let s4 := ((s3.startClocks recs).clearRange 0x24_0000 0x28_0000).clearRange (Reg.CMP_NODE_CTRL 0) (Reg.CMP_NODE_CTRL 256)
  let s5 := (List.range 24).foldl (fun t n => t.setReg (Reg.OUT_UNDERFLOW n) 0)
    (s4.nodeIds.foldl (fun t n => t.setReg (Reg.CMP_NODE_CTRL n) 1) s4)
  let s6 := (recIds recs RT.LAYER).foldl (fun t i => match t.body RT.LAYER i with
    | some b => t.loadLayer i b
    | none => t) s5
  let s7 := (List.range 120).foldl (fun t k => t.loadSet (8 + k) (t.body RT.SCALER_SET (8 + k))) s6
  let s8 := (List.range 8).foldl State.ethLoad s7.loadPorts
  let s9 := (List.range 64).foldl (fun t c => t.chkLoad c (t.body RT.CHECK_ASSIGN c)) s8
  let s10 := (List.range 65).foldl State.loadMachine s9.autostart
  let s11 := ((s10.hold .structConflict false).hold .structNone false).hold .structRefused false
  let s12 := if twin then s11.twinStart.refuseOpen s.twin.verdict else s11
  s12.touchStart.casStart.reviewAlarms

/-! ### Deltas (R46 to R49, R69) -/

/-- The objects that go with a removed one: a node's layers and SELECT records (R69). -/
def goneWith (l : List Rec) (k : Nat × Nat) : List (Nat × Nat) :=
  k :: (if k.1 = RT.NODE then
    (l.filter fun r => (r.type == RT.LAYER || r.type == RT.SELECT) && r.id / 16 == k.2).map fun r => (r.type, r.id) else [])

/-- The frame in progress of node `n` is given up: the node has gone, or is no MEMORY node any more (DESIGN CHOICE,
assumption 47). -/
def State.dropNodeFrame (s : State) (n : Nat) : State :=
  match (s.nodeSt n).frame with
  | some f => (s.releaseFrame f).setNode n { s.nodeSt n with frame := none }
  | none => s

/-- One object leaves the structure. -/
def State.removeObject (s : State) (k : Nat × Nat) : State :=
  let s1 := if k.1 = RT.DECODER_CONTEXT then (s.ctxGone k.2).decEnd k.2 true else s
  let s2 := { s1 with ld := { s1.ld with recs := s1.ld.recs.filter fun r => !(r.type == k.1 && r.id == k.2) } }
  if k.1 = RT.STREAM then ((((s2.chkStreamDrop k.2).unsubscribe k.2).unsend k.2).setStream k.2 {}).freezeAlarm
  else if k.1 = RT.NODE then ((s2.dropNodeFrame k.2).setNode k.2 {}).setReg (Reg.CMP_NODE_CTRL k.2) (Reg.resetValue (Reg.CMP_NODE_CTRL k.2))
  else if k.1 = RT.LAYER then (s2.clearRange (ldtBase k.2) (ldtBase k.2 + 64)).setLayer k.2 {}
  else if k.1 = RT.SCALER_SET then s2.loadSet k.2 none
  else if k.1 = RT.CHECK_ASSIGN then s2.chkLoad k.2 none
  else s2

/-- Whose surface and source a replaced stream keeps (R48, R318): with kind and source unchanged its freshness state
stands; with the surface unchanged too, its frames and statistics. -/
def StreamSt.replaced (old new : StreamSt) : StreamSt :=
  if old.on && old.kind == new.kind && old.src == new.src then
    let x := { old with format := new.format, width := new.width, height := new.height, freezeOn := new.freezeOn,
                        freezeN := new.freezeN, rate := new.rate, mode := new.mode, e := new.e, pyramid := new.pyramid,
                        base := new.base, size := new.size, frozen := old.frozen && new.freezeOn }
    if old.format = new.format ∧ old.width = new.width ∧ old.height = new.height ∧ old.mode = new.mode ∧ old.e = new.e
        ∧ old.pyramid = new.pyramid ∧ old.base = new.base ∧ old.size = new.size then x
    else { x.clearStats with bufs := [{}, {}, {}], complete := none, writing := none, holders := [], cur := none,
                             dmaDone := false, dmaStarted := false, dmaDropped := false, rawWritten := false }
  else new

/-- One record takes effect: it replaces the record of its TYPE and ID, or is added (R69). -/
def State.applyRecord (s : State) (r : Rec) : State :=
  let old := s.body r.type r.id
  let running := decide ((s.ctx r.id).st ≠ 0)
  let s2 := { s with ld := { s.ld with recs := putRec r s.ld.recs } }
  if r.type = RT.STREAM then
    let was := s2.stream r.id
    let x := was.replaced (StreamSt.ofBody r.body)
    let s3 := ((if was.cur.isSome && x.cur.isNone then s2.chkStreamDrop r.id else s2).setStream r.id x).freezeAlarm
    let moved := was.kind != x.kind || was.src != x.src
    let s4 := if was.on && was.kind == 4 && moved then s3.unsubscribe r.id else s3
    if x.kind = 4 ∧ (moved || !was.on) = true then s4.subscribe r.id else s4
  else if r.type = RT.NODE then
    (if (NodeRec.ofBody r.body).dest = 1 then s2 else s2.dropNodeFrame r.id).setReg (Reg.CMP_NODE_CTRL r.id) 1
  else if r.type = RT.LAYER then
    let moved := match old with
      | some _ => decide ((s.layerDesc r.id).source ≠ leAt r.body 0 2)
      | none => true
    let x := s2.layer r.id
    (s2.loadLayer r.id r.body).setLayer r.id { x with restart := x.restart || moved, bad := false }
  else if r.type = RT.SCALER_SET then s2.loadSet r.id (some r.body)
  else if r.type = RT.CHECK_ASSIGN then s2.chkLoad r.id (some r.body)
  else if r.type = RT.DECODER_CONTEXT then
    s2.ctxSoon r.id (.replace (old.getD []) (running || (leAt r.body 5 1).testBit 5))
  else s2

/-- The frame clock on which a record of a delta takes effect (R46): what belongs to a node follows the node's clock,
everything else the delta's own. A node whose clock the delta changes takes its record on the new one (DESIGN CHOICE,
assumption 47). -/
def recClock (l : List Rec) (k : Nat) (type id : Nat) : Nat :=
  if type = RT.NODE then (if (recBody l RT.NODE id).isSome then clockOf l 257 id else k)
  else if type = RT.LAYER ∨ type = RT.SELECT then (if (recBody l RT.NODE (id / 16)).isSome then clockOf l 257 (id / 16) else k)
  else k

/-- The acts of a delta over the structure it finds, each with the frame clock it takes effect on (R46): a record's in
the structure that results, a removal's in the one it finds. -/
def Delta.parts (before : List Rec) (d : Delta) : List Late :=
  let after := mergeRecs before d.recs d.removes
  (actsOf d.recs d.removes).map fun a =>
    { clock := recClock (match a with
        | .put _ => after
        | .remove _ _ => before) d.fclk a.key.1 a.key.2, act := a }

/-- The records of the running structure with everything that applied deltas have left for other clocks. -/
def State.ahead (s : State) : List Rec := s.ld.late.foldl (fun l e => e.act.on l) s.records

/-- Acts of deltas take effect one after another (R69); commands addressed to what goes are discarded (R49). -/
def State.applyActs (s : State) (as : List RecAct) : State :=
  let e := as.foldl (fun (e : State × List (Nat × Nat)) a => match a with
    | .put r => (e.1.applyRecord r, e.2)
    | .remove t i =>
      let ks := goneWith e.1.ld.recs (t, i)
      (ks.foldl State.removeObject e.1, e.2 ++ ks)) (s, [])
  ((e.1.discardGone e.2).encSources.countSubs).reviewAlarms

/-- What is left of a list of parts once those of clock `k` have taken effect: a part that a later one covers goes. -/
def lateRest (k : Nat) : List Late → List Late
  | [] => []
  | e :: t => if e.clock = k ∨ (t.any fun x => x.clock == k && x.act.covers e.act) = true then lateRest k t
              else e :: lateRest k t

/-- What applied deltas left for clock `k` takes effect at its commit point (R46). -/
def State.applyLate (s : State) (k : Nat) : State :=
  let now := (s.ld.late.filter fun e => e.clock == k).map (·.act)
  if now.isEmpty then s else { s with ld := { s.ld with late := lateRest k s.ld.late } }.applyActs now

/-- A delta takes effect at the commit point of its clock (R46, R49): what belongs to nodes on other frame clocks waits
for those. -/
def State.applyDelta (s : State) (d : Delta) : State :=
  { s with ld := { s.ld with gen := d.gen, images := s.ld.images ++ [d.image],
                             late := s.ld.late ++ d.parts s.ahead } }.applyLate d.fclk

/-! ### Accepting an image (R46, R68, R69) -/

/-- The records and the generation that stand after every delta already pending (R69). A full image on its way does not
change them: the deltas it finds pending are discarded (R68). -/
def State.deltaBase (s : State) : List Rec × Nat :=
  s.ld.deltas.foldl (fun acc d => (mergeRecs acc.1 d.recs d.removes, d.gen)) (s.ahead, s.ld.gen)

/-- An accepted image as a plan or a delta. -/
def planOfImage (b : List Byte) (phase : StartPhase) (epoch : Option Nat) : NextPlan :=
  { gen := imgGen b, recs := carried (imgRecs b), phase := phase, epoch := epoch, image := b }
def deltaOfImage (b : List Byte) (epoch : Option Nat) : Delta :=
  { gen := imgGen b, fclk := imgFclk b, recs := carried (imgRecs b), removes := removesOf (imgRecs b), epoch := epoch,
    image := b }

/-- An image that passed every check is accepted (R46, R68): on a twin active it rides the epoch being filled (R510). A
full image takes the place of one that is still on its way (DESIGN CHOICE, assumption 48). -/
def State.acceptImage (s : State) (b : List Byte) : State :=
  let s1 := s.mirror (.image (imgGen b) (imgDelta b))
  if imgDelta b then { s1 with ld := { s1.ld with deltas := s1.ld.deltas ++ [deltaOfImage b s.ridden] } }
  else { s1 with ld := { s1.ld with next := some (planOfImage b .accepted s.ridden) } }

/-- LOAD_ACK (R94, R95): a write of SYS.LOAD_ACK; a result that waited follows. -/
def execLoadAck (p : Port) (v : Word) (s : State) : Res :=
  s.hostWrite p Reg.SYS_LOAD_ACK v fun t =>
    let t1 := t.ackWindow Reg.SYS_LOAD_STATUS v
    match t1.ld.held with
    | some r => if t1.bit Reg.SYS_LOAD_STATUS 31 then t1 else { t1 with ld := { t1.ld with held := none } }.showLoad r
    | none => t1

/-! ### Choosing the boot copy (R64, R65) -/

/-- What the loader knows of a boot copy: its number (0 A, 1 B, 2 C), its bytes over TOTAL_LEN, its code. -/
structure BootCopy where
  no    : Nat
  bytes : List Byte
  code  : Nat
  deriving DecidableEq, Repr

/-- The copies that BOOT_SRC selects, as read and checked for integrity (R64). -/
def State.bootCopies (s : State) : List BootCopy :=
  let copy := fun (no : Nat) (b : List Byte) => ({ no := no, bytes := imgTrim b, code := (s.integrity b true).code } : BootCopy)
  match s.fld Reg.SYS_STRAPS 1 0 with
  | 0 => [copy 0 s.flashA, copy 1 s.flashB, copy 2 s.mram.copyC]
  | 1 => [copy 2 s.mram.copyC]
  | _ => []

/-- What R65 answers: a copy to load, or a STRUCT_ code, with the structure-check codes met on the way. -/
inductive BootChoice where
  | load (c : BootCopy)
  | fallback (code : Nat)
  deriving DecidableEq, Repr

/-- The choice of R65 over the candidates; `fuel` bounds the rounds. Answers the choice and the copies refused by a
structure check with their codes. -/
def chooseCopy (cid : Nat) : Nat → List BootCopy → Bool → List (Nat × Nat) → BootChoice × List (Nat × Nat)
  | 0, _, _, bad => (.fallback 0x32, bad)
  | fuel + 1, cands, none', bad =>
    if cands.isEmpty then (.fallback (if none' then 0x31 else 0x32), bad)
    else
      let g := cands.foldl (fun m c => max m (imgGen c.bytes)) 0
      let top := cands.filter fun c => imgGen c.bytes == g
      let pick := top.find? fun c => top.length == 1 || decide (2 ≤ (top.filter fun d => d.bytes == c.bytes).length)
      match pick with
      | none => (.fallback 0x30, bad)
      | some c =>
        let v := fullCheck c.bytes cid
        if v.code = 0 then (.load c, bad)
        else
          let grp := top.filter fun d => d.bytes == c.bytes
          chooseCopy cid fuel (cands.filter fun d => !grp.contains d) none' (bad ++ grp.map fun d => (d.no, v.code))

/-- SYS.LOAD_COPIES after a boot: the code of each copy read, 0xFF for one not read; of an intact copy that R65 refused,
the code of its structure check (DESIGN CHOICE, assumption 48). -/
def copiesWord (cs : List BootCopy) (bad : List (Nat × Nat)) : Word :=
  let code := fun k => match cs.find? fun c => c.no == k with
    | some c => lookupD bad k c.code
    | none => 0xFF
  w32 (code 2 * 2 ^ 16 + code 1 * 2 ^ 8 + code 0)

/-- The servo is in TRACK on ring time and FCLK0 is locked: the device is aligned (R175, R529). -/
def State.ringAligned (s : State) : Bool := s.cas.upstream.isSome && s.servo == 2 && (s.fclkOf 0).locked

/-- How a checked structure goes on (R175): one with a CASCADE record waits on a member other than 0 until the device is
aligned, any other starts at the next FCLK0 commit point. -/
def State.startPhase (s : State) (recs : List Rec) : StartPhase :=
  if (recBody recs RT.CASCADE 0).isSome && s.cascadeId != 0 && !s.ringAligned then .cascadeWait else .card

/-- A checked structure goes on to phase `p` (R175). One that waits for CASCADE_TIME has its cascade ports and CAS.CFG as
its records give them, so that the member can hear and answer the ring (DESIGN CHOICE, assumption 77). -/
def State.toPhase (s : State) (n : NextPlan) (p : StartPhase) : State :=
  let s1 : State := { s with ld := { s.ld with next := some { n with phase := p } } }
  match p, recBody n.recs RT.CASCADE 0 with
  | .cascadeWait, some b => (s1.setReg Reg.CAS_CFG (casConfig b)).loadCascadePorts n.recs
  | _, _ => s1

/-- A boot that loads no copy ends on the fallback structure (R64, R65, R72) with a STRUCT_ code and its alarm, or
with OK where BOOT_SRC reads none; its result names no generation and no record (DESIGN CHOICE, assumption 48). -/
def State.bootFallback (s : State) (code : Nat) : State :=
  let s1 := match code with
    | 0x30 => s.hold .structConflict true
    | 0x31 => s.hold .structNone true
    | 0x32 => s.hold .structRefused true
    | _ => s
  (s1.setReg Reg.SYS_BOOT_STAGE 6).postLoad
    { code := code, source := 5, gen := 0, record := 0xFFFF, object := 0xFFFF, unprov := false }

/-- BOOT_LOAD (R64, R65, R175): the boot copies have been read and are checked; the structure chosen starts at the next
FCLK0 commit point, or waits for CASCADE_TIME; otherwise the fallback structure runs on. -/
def execBootLoad (s : State) : Res :=
  if s.fld Reg.SYS_BOOT_STAGE 3 0 ≠ 4 ∨ s.ld.next.isSome then .next s
  else
    let cs := s.bootCopies
    let intact := cs.filter fun c => c.code == 0
    let (choice, bad) := chooseCopy s.cascadeId 4 intact intact.isEmpty []
    let s1 := s.setReg Reg.SYS_LOAD_COPIES (copiesWord cs bad)
    if cs.isEmpty then .next (s1.bootFallback 0)
    else match choice with
      | .fallback code => .next (s1.bootFallback code)
      | .load c =>
        let plan := planOfImage c.bytes .card none
        .next ((s1.toPhase plan (s1.startPhase plan.recs)).postLoad
          { code := 0, source := c.no, gen := imgGen c.bytes, record := 0xFFFF, object := 0xFFFF, unprov := s.unprovisioned })

end Sys2Proof.Machine
end

