-- ==== Sys2Proof/Machine/Apply.lean ====
section
/-!
DEFINITION. Machine/Apply.lean: how a held change takes effect (R145, R332, R336, R375, R417, R426), when it is due
(R138, R144, R146, R536), and the structure as it will stand at a commit point (R39).
-/
namespace Sys2Proof.Machine

/-! ### When a change is due -/

/-- Nanoseconds from now to the first pending edge of clock `k` that is `x` or later (R144, R268). -/
def State.edgeFrom (s : State) (k x : Nat) : Nat :=
  let n := (tsDiff s.ts (s.reg (Reg.TIM_FCLK_NEXT k))).toNat
  let p := max 1 (s.periodNs k)
  if x ≤ n then n else n + cdiv (x - n) p * p

/-- Is mirror epoch `e` committed here (R146)? A change that rides no epoch waits for none. -/
def State.epochDone (s : State) (e : Option Nat) : Bool :=
  match e with
  | some n => decide (n ≤ s.fld Reg.TWN_LAST_EPOCH 31 0)
  | none => true

/-- Nanoseconds until the FCLK0 commit point that commits an epoch at the earliest (R146, R506). -/
def State.epochWait (s : State) (e : Option Nat) : Nat :=
  if s.epochDone e then 0
  else
    let n := s.edgeFrom 0 0
    match s.twin.sealed with
    | some x =>
      let t := n + (x.target - s.twin.fclk0 - 1) * s.periodNs 0
      if e = some x.num then t else t + s.periodNs 0
    | none => n

/-- Nanoseconds until a change takes effect: the first edge of its clock that is not before its epoch's commit, the
deferring clock's edge and the FCLK0 count it waits for (R138, R144, R146, R536). -/
def State.dueIn (s : State) (clk : Nat) (defer : Option Nat) (epoch : Option Nat) (least : Nat) : Nat :=
  let x0 := s.epochWait epoch
  let x1 := match defer with
    | some d => max x0 (s.edgeFrom d x0)
    | none => x0
  let x2 := if least ≤ s.twin.fclk0 then x1 else max x1 (s.edgeFrom 0 0 + (least - s.twin.fclk0 - 1) * s.periodNs 0)
  s.edgeFrom clk x2

/-- The FCLK0 count a pending delta waits for beside its clock: 0 outside a ring; in a ring the count that the master
has announced for it, none before that (R537). -/
def State.deltaLeast (s : State) (d : Delta) : Option Nat :=
  if !s.inRing then some 0
  else match s.cas.ring with
    | some (g, k) => if d.gen ≤ g then some k else none
    | none => none

/-- The frame clock at whose commit points a pending delta takes effect: its own; FCLK0 in a ring (R46, R537). -/
def State.deltaClock (s : State) (d : Delta) : Nat := if s.inRing then 0 else d.fclk

/-! ### One masked word -/

/-- An age threshold after defaults (R331). -/
def ageOf (v dflt : Nat) : Nat := if v % 2 ^ 24 = 0 then dflt else v % 2 ^ 24

/-- A direct write of the descriptor word at entry offset `o` of layer `i` keeps what R43 does not let X change (R332):
the GUARD byte and ENABLE of a STRICT layer, and on one a threshold looser than the image gives it. -/
def State.ldtKeep (s : State) (i o : Nat) (old new : Word) : Word :=
  if (s.layerDesc i).guard ≠ 2 then new
  else
    let img := match s.body RT.LAYER i with
      | some b => LayerDesc.ofBody b
      | none => s.layerDesc i
    let p := s.policy
    if o = 20 then wput (wput new 7 0 (wbits old 7 0)) 16 16 (wbits old 16 16)
    else if o = 24 then (if ageOf img.aLive p.aLive < ageOf new.toNat p.aLive then old else new)
    else if o = 28 then (if ageOf img.aStale p.aStale < ageOf new.toNat p.aStale then old else new)
    else new

/-- A layer whose source is stream `i` is STRICT: what R43 calls feeding a STRICT layer. -/
def State.feedsStrict (s : State) (i : Nat) : Bool :=
  let l := s.records
  (layersOf l).any fun e => e.2.guard == 2 && match resolve l e.2.source with
    | .surface k _ _ => k == i
    | _ => false

/-- Every run that VGL.CFG governs restarts (R444, R445). -/
def OutputSt.restartRuns (o : OutputSt) : OutputSt :=
  { o with runs := o.runs.map fun r => (0, 0, r.2.2), badRun := 0, goodRun := 0 }

/-- One masked word of a held change takes effect; `write`: it is a register or table write. -/
def State.applyWord (s : State) (write : Bool) (off : Nat) (mask v : Word) : State :=
  let old := s.reg off
  let new := merge old mask v
  if 0x24_0000 ≤ off ∧ off < 0x28_0000 then
    let i := (off - 0x24_0000) / 64
    let w := if write then s.ldtKeep i (off % 64) old new else new
    let x := s.layer i
    if s.layerOn i then
      (s.setReg off w).setLayer i { x with restart := x.restart || (off % 64 == 0 && wbits w 15 0 != wbits old 15 0) }
    else s
  else if 0x20_0000 ≤ off ∧ off < 0x24_0000 then
    let i := (off - 0x20_0000) / 64
    let w := merge (s.streamWord off) mask v
    let keep := write && (s.stream i).freezeOn && s.feedsStrict i
    if off % 64 = 4 then s.setFreeze i (wbit w 16 || keep) (wbits w 31 24) else s
  else if off = Reg.VGL_CFG then
    if old = new then s
    else { s with outputs := (List.range 24).foldl (fun c n =>
             Cells.put (fun _ => ({} : OutputSt)) c n (s.output n).restartRuns) s.outputs }.setReg off new
  else if Reg.CHK_CTRL 0 ≤ off ∧ off < Reg.CHK_CTRL 64 then
    (s.setReg off new).chkRebind ((off - Reg.CHK_CTRL 0) / 0x10)
  else s.setReg off new

/-! ### Held changes -/

/-- A held change takes effect (R138, R145). -/
def State.applyChange (s : State) (h : Held) : State :=
  match h.change with
  | .words l => l.foldl (fun (t : State) (e : Nat × Word × Word) => t.applyWord h.origin.isWrite e.1 e.2.1 e.2.2) s
  | .zone hd z kind x0 y0 x1 y1 hold => s.zoneApply hd z kind x0 y0 x1 y1 hold
  | .encCtrl e act rate => s.encCtrl e act rate
  | .remote => s

/-- The object a held change names is still there (R49). -/
def State.objectAlive (s : State) (h : Held) : Bool := h.object == (0, 0) || s.has h.object.1 h.object.2

/-- The offsets a list of held changes writes. -/
def heldOffsets (hs : List Held) : List Nat :=
  hs.flatMap fun h => match h.change with
    | .words l => l.map (·.1)
    | _ => []

/-- After a commit point has changed the words at some offsets: coefficient sets among them are checked (R375), and the
descriptors (R336), with those that failed before: what broke a rule about several layers may be gone. -/
def State.afterWords (s : State) (offs : List Nat) : State :=
  let sets := ((offs.filter fun o => decide (0x28_0000 ≤ o) && decide (o < 0x30_0000)).map fun o => (o - 0x28_0000) / 4096).eraseDups
  let lays := ((offs.filter fun o => decide (0x24_0000 ≤ o) && decide (o < 0x28_0000)).map fun o => (o - 0x24_0000) / 64).eraseDups
  let s1 := sets.foldl State.checkSet s
  let recs := s1.records
  let again := if lays.isEmpty then [] else (s1.layers.filter fun e => e.2.bad && !lays.contains e.1).map (·.1)
  (lays ++ again).foldl (fun t i =>
    if t.layerOn i then
      t.setLayer i { t.layer i with bad := !descOk recs i (t.windowBytes (ldtBase i) 16) }
    else t) s1

/-- After the changes of a commit point. -/
def State.afterChanges (s : State) (hs : List Held) : State := s.afterWords (heldOffsets hs)

/-! ### The structure at a commit point (R39) -/

/-- Something due, with the nanoseconds until it takes effect: an act of a delta or a held change. -/
inductive Due where
  | act (t : Nat) (a : RecAct)
  | change (t : Nat) (h : Held)
  deriving DecidableEq, Repr

/-- When it is due. -/
def Due.at : Due → Nat
  | .act t _ => t
  | .change t _ => t

/-- Later in nanoseconds than any commit point with a known place: when a delta takes effect whose FCLK0 count the ring
has not been told yet (R537). -/
abbrev unknownTime : Nat := 2 ^ 64

/-- When delta `d` takes effect, after the deltas before it, which do so by `prev` (R46, R69). -/
def State.deltaDue (s : State) (prev : Nat) (d : Delta) : Nat :=
  let c := s.deltaClock d
  max (match s.deltaLeast d with
    | none => unknownTime
    | some k => s.dueIn c none d.epoch k) (s.edgeFrom c prev)

/-- The parts of the deltas of a list with the times they take effect, in acceptance order: each delta follows the ones
before it and finds the structure they leave (R46). -/
def State.deltaTimes (s : State) : List Rec → Nat → List Delta → List (Nat × RecAct)
  | _, _, [] => []
  | l, prev, d :: rest =>
    let c := s.deltaClock d
    let due := s.deltaDue prev d
    ((Delta.parts l { d with fclk := c }).map fun e => (if e.clock = c then due else s.edgeFrom e.clock due, e.act))
      ++ s.deltaTimes (mergeRecs l d.recs d.removes) due rest

/-- Acts that a later one covers by the time they would take effect have no effect. -/
def liveActs : List (Nat × RecAct) → List (Nat × RecAct)
  | [] => []
  | e :: t => if (t.any fun x => decide (x.1 < e.1) && x.2.covers e.2) = true then liveActs t else e :: liveActs t

/-- Everything due in the order it takes effect: at one instant deltas first (R49). -/
def State.dueList (s : State) : List Due :=
  let acts := (s.ld.late.map fun e => (s.edgeFrom e.clock 0, e.act)) ++ s.deltaTimes s.ahead 0 s.ld.deltas
  let all := ((liveActs acts).map fun e => Due.act e.1 e.2)
    ++ s.cmd.held.map fun h => .change (s.dueIn h.clock h.defer h.epoch h.least) h
  sortBy (fun a b => decide (a.at < b.at)) all

/-- What is due takes effect in its turn. -/
def State.runDue (s : State) (l : List Due) : State :=
  l.foldl (fun (u : State) e => match e with
    | .act _ a => u.applyActs [a]
    | .change _ h => if u.objectAlive h then (u.applyChange h).afterChanges [h] else u) s

/-- The device as it will stand `t` nanoseconds from now for the purposes of R39: every delta and every held change due
by then takes effect in its turn. -/
def State.preview (s : State) (t : Nat) : State := s.runDue (s.dueList.filter fun e => decide (e.at ≤ t))

/-- It is a held change due at a time that passes a test. -/
def Due.changeAt (p : Nat → Bool) : Due → Bool
  | .act _ _ => false
  | .change t _ => p t

/-- The device as delta `d`, accepted now, will find it, and as it will stand after it (R45): it finds what every delta
before it leaves (R69) and every held change due before its commit point; those of its own commit point follow it
(R145). -/
def State.aroundDelta (s : State) (d : Delta) : State × State :=
  let t := s.deltaDue (s.ld.deltas.foldl s.deltaDue 0) d
  let found := s.runDue (s.dueList.filter fun e => !e.changeAt fun u => decide (t ≤ u))
  (found, (found.applyActs (actsOf d.recs d.removes)).runDue (s.dueList.filter (Due.changeAt (· == t))))

/-- The first failing budget of the device as it stands, 0 where all three pass (R39). -/
def State.budgetNow (s : State) : Nat :=
  budgetCode s.records (fun k => (s.setsInForce k).getD 0) (s.extraDemand s.records)

end Sys2Proof.Machine
end

