-- ==== Sys2Proof/Machine/Submit.lean ====
section
/-!
DEFINITION. Machine/Submit.lean: the loader's check of a submitted image (R45, R63, R71, R72, R510).
-/
namespace Sys2Proof.Machine

/-- The loader's verdict on an image (R63); a delta is checked against the structure as it will stand after it (R45). -/
def State.checkImage (s : State) (src : List Byte) : Verdict :=
  let v := s.integrity src false
  if v.code ≠ 0 then v
  else
    let b := imgTrim src
    if imgDelta b then
      let p := s.aroundDelta (deltaOfImage b s.ridden)
      deltaCheck b p.1.records p.2.records p.2.setsInForce s.deltaBase.2 s.ld.deltas.length s.cascadeId
        (p.2.extraDemand p.2.records)
    else fullCheck b s.cascadeId

/-- IMAGE_CHECK (R63): the loader checks the oldest image submitted once the boot's own load has ended (DEDUCED,
assumption 48), the window is free and no check is open; on a twin active that hears its peer, an image that passes goes
to the peer for its verdict (R510). An active that hears no peer is peerless, whatever MAYPOLE shows; a standby, which a
submission of its active time has outlived, accepts none (DESIGN CHOICE, assumption 68). An image accepted before stays
on its way (R68). -/
def execImageCheck (s : State) : Res :=
  match s.ld.submitted with
  | [] => .next s
  | x :: rest =>
    if s.fld Reg.SYS_BOOT_STAGE 3 0 < 5 || s.bit Reg.SYS_LOAD_STATUS 31 || s.twin.verdict.isSome || !s.svpUp then .next s
    else
      let s1 := { s with ld := { s.ld with submitted := rest } }
      let v := s1.checkImage x.bytes
      let b := imgTrim x.bytes
      let delta := decide (64 ≤ x.bytes.length) && imgDelta x.bytes
      let gen := if x.bytes.length < 64 then 0 else imgGen x.bytes
      let r := v.result (if delta then 4 else 3) gen s1.unprovisioned
      if v.code ≠ 0 then .next (s1.postLoad r)
      else if s1.standby then .next (s1.postLoad r.refused)
      else if s1.active && s1.hornpipeAny then
        let ld := { s1.ld with deltaVerdict := if delta then some (deltaOfImage b none) else none
                               nextVerdict := if delta then none else some (planOfImage b .accepted none) }
        .next ({ s1 with twin := { s1.twin with verdict := some r }, ld := ld }.sendImage s1.twin.filling b)
      else .next ((s1.acceptImage b).postLoad r)

end Sys2Proof.Machine
end

