-- ==== Sys2Proof/Machine/Mailbox.lean ====
section
/-!
DEFINITION. Machine/Mailbox.lean: the supervisor's mailbox, patches and lockstep faults (R107 to R117).
-/
namespace Sys2Proof.Machine

/-- DRAM bytes as a requester takes them: bytes that read as poison are free (R294). -/
def State.takeBytes (s : State) (a n : Nat) : State × List Byte :=
  let x := s.portRead 6 a n
  match x.2 with
  | some b => (x.1, b)
  | none => (x.1.takeFree 1, freeFill x.1.free n)

/-- A mailbox reply (R109): the status word, DATA0 to DATA7, MBOX_REPLY and vector 16. -/
def State.mboxReply (s : State) (op code : Nat) (data : List Word) : State :=
  let d := (data ++ List.replicate 8 0).take 8
  let s1 := (List.range 8).foldl (fun t i => t.setReg (Reg.SVP_MBOX_DATA i) (d.getD i 0)) s
  let w := w32 (2 ^ 31 + s.nextSeqOf Reg.SVP_MBOX_STATUS * 2 ^ 16 + code % 256 * 256 + op % 256)
  let s2 := ((s1.setReg Reg.SVP_MBOX_STATUS w).setBit Reg.SVP_MBOX_REQ 31 false)
  (({ s2 with svp := { s2.svp with req := none } }).raise .mboxReply).sendVector 16

/-- State of key slot `i`: 0 EMPTY, 1 ACTIVE, 2 REVOKED (R110). -/
def KeyState.code : KeyState → Nat
  | .empty => 0
  | .active => 1
  | .revoked => 2

/-- DATA0 of KEY_STATUS (R110). -/
def State.keyStates (s : State) : Word :=
  w32 ((indexed s.mram.keys).foldl (fun n (e : Nat × KeySlot) => n + e.2.state.code * 4 ^ e.1) 0)

/-- The key slot at `i`. -/
def State.keySlot (s : State) (i : Nat) : KeySlot := s.mram.keys.getD i {}

/-- Replace a key slot. -/
def State.setKeySlot (s : State) (i : Nat) (k : KeySlot) : State :=
  { s with mram := { s.mram with keys := s.mram.keys.set i k } }

/-- Boot copy `c` as its device holds it: 0 A, 1 B, 2 C. -/
def State.bootCopy (s : State) (c : Nat) : List Byte :=
  if c = 0 then s.flashA else if c = 1 then s.flashB else s.mram.copyC

/-- Set boot copy `c`. -/
def State.setBootCopy (s : State) (c : Nat) (b : List Byte) : State :=
  if c = 0 then { s with flashA := b } else if c = 1 then { s with flashB := b }
  else { s with mram := { s.mram with copyC := b } }

/-- DRAM address and length of ARG0 to ARG2. -/
def mboxAddr (a : List Word) : Nat := (a.getD 0 0).toNat + wbits (a.getD 1 0) 5 0 * 2 ^ 32
def mboxLen (a : List Word) : Nat := (a.getD 2 0).toNat

/-- The X requests of R110. -/
def mboxX (op : Nat) : Bool := [5, 6, 8, 9, 10].contains op

/-- A write of a register that no relay carries to another member: of a MEM register (R302), and of SVP.MBOX_REQ with
COPY_WRITE, KEY_PROVISION, KEY_REVOKE, GEN_FLOOR_SET or a patch command (R114). -/
def notRelayed (off : Nat) (v : Word) : Bool :=
  Reg.blockOf off == 16 || (off == Reg.SVP_MBOX_REQ && (wbits v 7 0 == 3 || mboxX (wbits v 7 0)))

/-- Reply code of a request that is refused from its arguments and the state alone, 0 where it goes on (R110, R111). Where
several codes apply BAD_ARG comes before HOST_RANGE and this before KEY_STATE and LAST_KEY; an address with a bit above 37
is BAD_ARG (DESIGN CHOICE, assumption 73). -/
def State.mboxRefusal (s : State) (op : Nat) (a : List Word) : Nat :=
  let arg := fun i => (a.getD i 0).toNat
  let area := fun (n : Nat) => if s.hostRange (mboxAddr a) n then 0 else 4
  let limit := if op = 9 then 65536 else 4194304
  if op = 2 ∨ op = 3 ∨ op = 9 then
    if mboxLen a = 0 ∨ limit < mboxLen a ∨ 63 < arg 1 ∨ (op = 3 ∧ 2 < arg 3) ∨ (op = 2 ∧ s.standby = true) then 2
    else area (mboxLen a)
  else if op = 4 then if 2 < arg 3 then 2 else 0
  else if op = 5 then
    if 3 < arg 0 ∨ 63 < arg 2 then 2
    else if !s.hostRange (arg 1 + arg 2 % 64 * 2 ^ 32) 32 then 4
    else if (s.keySlot (arg 0)).state ≠ .empty then 7 else 0
  else if op = 6 then
    if 3 < arg 0 then 2
    else if (s.keySlot (arg 0)).state ≠ .active then 7
    else if (s.mram.keys.filter fun k => k.state == .active).length ≤ 1 then 8 else 0
  else if op = 8 then
    if arg 0 < s.mram.genFloor.toNat ∨ s.ld.gen < arg 0 then 9 else 0
  else if op = 12 then if 4095 < arg 0 then 2 else 0
  else if 1 ≤ op ∧ op ≤ 12 then 0
  else 1

/-- The requests that take flash or MRAM time: their work is done as MBOX_REPLY completes them. -/
def mboxSlow (op : Nat) : Bool := [3, 4, 5, 6, 8, 9, 10].contains op

/-- DATA0 of the health report (R518): FAILED items, and DEGRADED or UNTESTED ones; the thermal item follows its
alarms, and a retired rank makes the DRAM item DEGRADED (DESIGN CHOICE, assumption 60). -/
def State.health0 (s : State) : Word :=
  let hot := s.condOn 27 0 || s.condOn 27 1
  w32 (s.twin.failed.toNat + (s.twin.degraded ||| (if hot then 0x200 else 0) ||| (if s.mram.retired.isEmpty then 0 else 4)).toNat * 2 ^ 16)

/-- The health report (R518), DATA0 as it stands. -/
def State.healthWords (s : State) : List Word := s.health0 :: s.twin.health.drop 1

/-- Requests answered at once. -/
def State.mboxQuick (s : State) (op : Nat) (a : List Word) : State :=
  if op = 1 then s.mboxReply 1 0 [s.reg Reg.SVP_FW_VERSION, s.mram.genFloor, w32 s.ld.gen]
  else if op = 2 then
    let (s1, b) := s.takeBytes (mboxAddr a) (mboxLen a)
    let s2 : State := { s1 with ld := { s1.ld with submitted := s1.ld.submitted ++ [{ bytes := b }] } }
    s2.mboxReply 2 0 []
  else if op = 7 then s.mboxReply 7 0 [s.keyStates]
  else if op = 11 then s.mboxReply 11 0 s.healthWords
  else s.mboxReply op 0 (s.mram.history.getD (a.getD 0 0).toNat [])

/-- A write of an opcode to MBOX_REQ through a port of SOURCE code `src` (R108, R113). -/
def State.mboxSubmit (s : State) (src op : Nat) : State :=
  if !s.svpUp || s.bit Reg.SVP_MBOX_REQ 31 || s.bit Reg.SVP_MBOX_STATUS 31 then s.setBit Reg.SVP_MBOX_REQ 30 true
  else
    let a := (List.range 8).map fun i => s.reg (Reg.SVP_MBOX_ARG i)
    let s1 := s.setReg Reg.SVP_MBOX_REQ (w32 (2 ^ 31 + op % 256))
    let s2 : State := { s1 with svp := { s1.svp with req := some { op := op, args := a } } }
    if mboxX op && !s.xOpen then (s2.refuseX src true op).mboxReply op 3 []
    else if s2.mboxRefusal op a ≠ 0 then s2.mboxReply op (s2.mboxRefusal op a) []
    else if mboxSlow op then s2
    else s2.mboxQuick op a

/-- A host write of SVP.MBOX_REQ with opcode `op`. -/
def State.mboxWrite (s : State) (p : Port) (op : Nat) : Res :=
  s.hostWrite p Reg.SVP_MBOX_REQ (w32 op) fun t => t.mboxSubmit (portCode p) (op % 256)

/-- GET_VERSION (R110). -/
def execGetVersion (p : Port) (s : State) : Res := s.mboxWrite p 0x01
/-- IMAGE_LOAD (R110, R112, R72): the image is read and submitted to the loader. -/
def execImageLoad (p : Port) (s : State) : Res := s.mboxWrite p 0x02
/-- COPY_WRITE (R110, R112). -/
def execCopyWrite (p : Port) (s : State) : Res := s.mboxWrite p 0x03
/-- COPY_CHECK (R110). -/
def execCopyCheck (p : Port) (s : State) : Res := s.mboxWrite p 0x04
/-- KEY_PROVISION (R110). -/
def execKeyProvision (p : Port) (s : State) : Res := s.mboxWrite p 0x05
/-- KEY_REVOKE (R110). -/
def execKeyRevoke (p : Port) (s : State) : Res := s.mboxWrite p 0x06
/-- KEY_STATUS (R110). -/
def execKeyStatus (p : Port) (s : State) : Res := s.mboxWrite p 0x07
/-- GEN_FLOOR_SET (R110). -/
def execGenFloorSet (p : Port) (s : State) : Res := s.mboxWrite p 0x08
/-- PATCH_INSTALL (R110, R115). -/
def execPatchInstall (p : Port) (s : State) : Res := s.mboxWrite p 0x09
/-- PATCH_REMOVE (R110, R115). -/
def execPatchRemove (p : Port) (s : State) : Res := s.mboxWrite p 0x0A
/-- HEALTH_REPORT (R110, R518). -/
def execHealthReport (p : Port) (s : State) : Res := s.mboxWrite p 0x0B
/-- HISTORY_READ (R110, R519). -/
def execHistoryRead (p : Port) (s : State) : Res := s.mboxWrite p 0x0C
/-- MBOX_BAD_OP (R111): an opcode outside the table; one inside it acts as its own row. -/
def execMboxBadOp (p : Port) (op : Nat) (s : State) : Res := s.mboxWrite p op

/-- The bytes of boot copy `c` are no longer known: a write of it began and did not complete. -/
def State.spoilCopy (s : State) (c : Nat) : State :=
  (s.setBootCopy c (freeFill s.free (Config.freeNat s.free))).takeFree 1

/-- Loader code of the integrity checks of a COPY_WRITE's source (R112). -/
def State.copySource (s : State) (r : MboxReq) : Nat :=
  let (s1, b) := s.takeBytes (mboxAddr r.args) (mboxLen r.args)
  (s1.integrity b true).code

/-- A slow request that cannot complete: a copy write leaves the copy's bytes open (R110, R111); a source that fails its
checks has written nothing (R112). -/
def State.mboxAbandon (s : State) (r : MboxReq) : State :=
  if r.op = 3 ∧ s.copySource r = 0 then s.spoilCopy (r.args.getD 3 0).toNat else s

/-- The work of a slow request that completes without a store failure (R110, R112, R115). -/
def State.mboxWork (s : State) (r : MboxReq) : State :=
  let arg := fun i => (r.args.getD i 0).toNat
  if r.op = 3 then
    let (s1, b) := s.takeBytes (mboxAddr r.args) (mboxLen r.args)
    let v := s1.integrity b true
    if v.code ≠ 0 then s1.mboxReply 3 5 [w32 v.code]
    else (s1.setBootCopy (arg 3) (b ++ (s1.bootCopy (arg 3)).drop b.length)).mboxReply 3 0 [0]
  else if r.op = 4 then
    let v := s.integrity (s.bootCopy (arg 3)) true
    s.mboxReply 4 0 [w32 v.code, if v.code = 0 then w32 (imgGen (s.bootCopy (arg 3))) else 0]
  else if r.op = 5 then
    let (s1, b) := s.takeBytes (arg 1 + arg 2 * 2 ^ 32) 32
    (s1.setKeySlot (arg 0) { state := .active, digest := b }).mboxReply 5 0 []
  else if r.op = 6 then
    (s.setKeySlot (arg 0) { s.keySlot (arg 0) with state := .revoked }).mboxReply 6 0 []
  else if r.op = 8 then
    ({ s with mram := { s.mram with genFloor := w32 (arg 0) } }).mboxReply 8 0 [w32 (arg 0)]
  else if r.op = 9 then
    let (s1, b) := s.takeBytes (mboxAddr r.args) (mboxLen r.args)
    match Config.patchCheck b with
    | some l =>
      if s1.mram.patchTop < l ∧ l ≤ 255 then
        ({ s1 with mram := { s1.mram with patch := some { bytes := b, level := l }, patchTop := l } }).mboxReply 9 0 [w32 l]
      else s1.mboxReply 9 10 []
    | none => s1.mboxReply 9 10 []
  else ({ s with mram := { s.mram with patch := none } }).mboxReply r.op 0 []

/-- MBOX_REPLY (R109): the request in progress completes; `ok`: every flash or MRAM operation it made succeeded. A
COPY_WRITE whose source fails its checks makes none (R112). -/
def execMboxReply (ok : Bool) (s : State) : Res :=
  match s.svp.req with
  | none => .next s
  | some r =>
    if !s.svpUp then .next s
    else if ok ∨ (r.op = 3 ∧ s.copySource r ≠ 0) then .next (s.mboxWork r)
    else .next ((s.mboxAbandon r).mboxReply r.op 6 [])

/-- MBOX_TIMEOUT (R110): the request in progress passes its limit and is answered STORE_FAIL. -/
def execMboxTimeout (s : State) : Res :=
  match s.svp.req with
  | none => .next s
  | some r => if s.svpUp then .next ((s.mboxAbandon r).mboxReply r.op 6 []) else .next s

/-- MBOX_ACK (R94): a write of SVP.MBOX_ACK. -/
def execMboxAck (p : Port) (v : Word) (s : State) : Res :=
  s.hostWrite p Reg.SVP_MBOX_ACK v fun t => t.ackWindow Reg.SVP_MBOX_STATUS v

/-! ### Lockstep faults (R116, R117) -/

/-- SVP.FW_VERSION as the ROM sets it when the supervisor starts (R115). -/
def State.patchBoot (s : State) : State :=
  let v := match s.mram.patch with
    | none => 0
    | some p => match Config.patchCheck p.bytes with
      | some _ => p.level % 256 * 256 + 1
      | none => 2
  s.setReg Reg.SVP_FW_VERSION (w32 (0x0100_0000 + v))

/-- 60 s of CLK_F cycles. -/
abbrev lockstepWindow : Nat := 60000 * cyclesPerMs

/-- LOCKSTEP_MISMATCH (R116, R117): the supervisor restarts from ROM, or halts at a second mismatch within 60 s. TIM
keeps the rate estimate: a slew stops (R255, R256). -/
def execLockstepMismatch (s : State) : Res :=
  if s.inert || s.bit Reg.SVP_LOCKSTEP 31 then .next s
  else
    let again := match s.svp.lastMismatch with
      | some t => decide (s.uptime ≤ t + lockstepWindow)
      | none => false
    let s0 := if s.tim.slewing then s.endSlew else s
    let s1 := ((s0.addSat Reg.SVP_LOCKSTEP 15 0 1).hold .lockstep true).history 2 0 []
    let lost := match s.svp.req with
      | some r => some r.op
      | none => s.svp.lostOp
    let s2 := match s.svp.req with
      | some r => s1.mboxAbandon r
      | none => s1
    let s3 : State := { s2 with svp := { s2.svp with req := none, lostOp := lost, lastMismatch := some s.uptime,
                                                     restarting := !again } }
    if again then
      let s4 := s3.setBit Reg.SVP_LOCKSTEP 31 true
      .next (if s4.paired then s4.setRole 3 else s4)
    else .next s3

/-- SUPERVISOR_RESTART_DONE (R116): the restart ends, the supervisor running its patch as before (R115); a request lost
in it is answered RESTARTED, and a write of TIM.PTP_CFG made in it restarts master selection now (R254). The condition of
the LOCKSTEP alarm lasts from the mismatch to here, and as long as the supervisor stays halted (DESIGN CHOICE, assumption
73). -/
def execSupervisorRestartDone (s : State) : Res :=
  if !s.svp.restarting then .next s
  else
    let s1 : State := { s with svp := { s.svp with restarting := false, lostOp := none, reselect := false } }
    let s2 := (if s.svp.reselect then s1.restartSelection else s1).hold .lockstep false
    match s.svp.lostOp with
    | some op => .next (s2.mboxReply op 11 [])
    | none => .next s2

end Sys2Proof.Machine
end

