-- ==== Sys2Proof/Machine/Startup.lean ====
section
/-!
DEFINITION. Machine/Startup.lean: device resets, straps, the start-up stages up to LOADING, the cascade wait (R163 to
R175, R277, R289).
-/
namespace Sys2Proof.Machine

/-! ### Device resets (R163 to R166) -/

/-- The device enters a device reset with a cause (R164, R165): MRAM and the boot flashes are kept, a WARM reset keeps
the PLLs locked, everything else returns to its reset state. -/
def State.resetTo (s : State) (cold : Bool) (cause : Nat) : State :=
  let trip := if s.boot.inReset then s.mram.lastTrip else s.boot.stopped
  let kept := s.mram.retired.filter fun e => !s.mram.retireClear.contains e.1
  let c : State := {
    pending := s.pending, out := s.out, free := s.free, flashA := s.flashA, flashB := s.flashB
    mram := { s.mram with lastTrip := trip, retired := kept, retireClear := [] }
    boot := { porst := s.boot.porst, resetN := s.boot.resetN, cold := cold } }
  let c1 := if cold then c else c.setReg Reg.CLK_STATUS (s.reg Reg.CLK_STATUS)
  ((c1.setReg Reg.SYS_RESET_CAUSE (w32 cause)).setBit Reg.THM_STATUS 28 trip).setReg Reg.TIM_PTP_CFG s.mram.ptpCfg

/-- PORST_N_FALL (R164, R551): a COLD reset, held until PORST_N rises. -/
def execPorstNFall (s : State) : Res :=
  .next (({ s with boot := { s.boot with porst := false } } : State).resetTo true 0)

/-- RESET_N_ASSERT (R164): RESET_N has been low for 1 µs: a WARM reset, held until RESET_N rises. A device already held
in reset, or stopped after a thermal trip, stays as it is. -/
def execResetNAssert (s : State) : Res :=
  let s1 : State := { s with boot := { s.boot with resetN := false } }
  if s.boot.inReset || s.boot.stopped then .next s1 else .next (s1.resetTo false 3)

/-- RESET_CTRL (R166): a write of SYS.RESET_CTRL, an X register; the key starts a WARM reset. -/
def execResetCtrl (p : Port) (v : Word) (s : State) : Res :=
  s.hostWriteX p Reg.SYS_RESET_CTRL v fun t => if v = 0xA5C3 then t.resetTo false 4 else t

/-- Is the device up, so that its clock and supply monitors can reset it (R163, R548, R551)? -/
def State.monitored (s : State) : Bool := s.boot.porst && !s.boot.stopped

/-- REFCLK_LOSS (R163): no REFCLK edge for 2 µs. -/
def execRefclkLoss (s : State) : Res := if s.monitored then .next (s.resetTo true 2) else .next s

/-- ROOT_LOCK_LOSS (R163): ROOT has reported loss of lock for 1 µs. -/
def execRootLockLoss (s : State) : Res :=
  if s.monitored && s.bit Reg.CLK_STATUS 31 then .next (s.resetTo true 2) else .next s

/-! ### Straps and clocks (R167, R168, R170) -/

/-- With ROOT locked the derived clocks and TS32 run; with the straps settled too, the supervisor starts from ROM. -/
def State.clocksUp (s : State) : State :=
  if !s.bit Reg.CLK_STATUS 31 then s
  else
    let s1 : State := { s with tim := { s.tim with running := true } }
    if s1.boot.strapsDone then (s1.setReg Reg.SYS_BOOT_STAGE 1).patchBoot else s1

/-- SYS.STRAPS once the straps are settled. -/
def State.settleStraps (s : State) (v : Nat) : State :=
  let s1 : State := { s with boot := { s.boot with strapsDone := true } }
  ((s1.setReg Reg.SYS_STRAPS (w32 v)).setBit Reg.TWN_STATUS 26 (v.testBit 5)).clocksUp

/-- A set of 8 strap reads (R167, R168): SIDE in bit 5, CASCADE_ID in [4:2], BOOT_SRC in [1:0]; after the third set that
is not stable, SIDE B, CASCADE_ID 7 and BOOT_SRC HOST are imposed. -/
def State.readStraps (s : State) (straps : Nat) (stable : Bool) : State :=
  if stable then s.settleStraps (straps % 64)
  else
    let s1 : State := { s with boot := { s.boot with strapTries := s.boot.strapTries + 1 } }
    if s1.boot.strapTries = 3 then s1.settleStraps (2 ^ 31 + 2 ^ 5 + 7 * 4 + 2) else s1

/-- RESET_RELEASE (R166, R167): the reset ends, with both reset pins high, and the straps have been read. -/
def execResetRelease (straps : Nat) (stable : Bool) (s : State) : Res :=
  if !s.boot.inReset || s.boot.stopped then .next s
  else
    let s1 : State := { s with boot := { s.boot with porst := true, resetN := true, inReset := false } }
    .next (s1.clocksUp.readStraps straps stable)

/-- STRAP_REREAD (R168): unstable straps are read again. -/
def execStrapReread (straps : Nat) (stable : Bool) (s : State) : Res :=
  if s.boot.inReset || s.boot.strapsDone then .next s else .next (s.readStraps straps stable)

/-- ROOT_LOCKED (R170): ROOT has locked; `ethRef`: ETH_REFCLK edges are present. -/
def execRootLocked (ethRef : Bool) (s : State) : Res :=
  if s.boot.inReset || s.boot.stopped || s.bit Reg.CLK_STATUS 31 then .next s
  else .next (s.setFld Reg.CLK_STATUS 31 29 (if ethRef then 7 else 6)).clocksUp

/-- REGISTERS_READY (R67, R170, R172): stage CARD: registers are reachable and the fallback structure starts; the
reset is recorded in the history. `fitted`: the ranks on the board. -/
def execRegistersReady (fitted : Nat) (s : State) : Res :=
  if s.fld Reg.SYS_BOOT_STAGE 3 0 ≠ 1 then .next s
  else
    let s1 : State := { s with boot := { s.boot with fitted := BitVec.ofNat 16 fitted } }
    .next (((s1.setReg Reg.SYS_BOOT_STAGE 2).startClocks []).history 1 (s.fld Reg.SYS_RESET_CAUSE 2 0) [])

/-! ### DRAM training (R165, R170, R277, R289) -/

/-- Stage DRAM_TRAINING begins: every fitted rank is TRAINING, but for those kept retired (R296). -/
def State.trainingStart (s : State) : State :=
  let s1 := ranks.foldl (fun t i =>
    if !s.boot.fitted.getLsbD i then t
    else t.setRankState i (if s.mram.retired.any fun e => e.1 == i then 6 else 4)) s
  ((s1.setFld Reg.CLK_STATUS 7 4 0xF).setReg Reg.SYS_BOOT_STAGE 3).memAlarms

/-- Saved values of rank `i` at point `pt` whose check holds after a WARM reset (R289). -/
def State.keepTrained (s : State) (checked i pt : Nat) : State :=
  let v := Cells.get (fun _ => 0) s.mram.trained (2 * i + pt)
  if s.boot.cold || s.rankState i != 4 || !checked.testBit (2 * i + pt) || v == 0 then s
  else
    let s1 := s.setBit (Reg.MEM_RANK_TRAIN i) pt true
    if pt = 0 then (s1.setFld (Reg.MEM_RANK_TRAIN i) 31 24 ((v - 1) / 256)).setFld (Reg.MEM_RANK_TRAIN i) 23 16 ((v - 1) % 256) else s1

/-- DRAM_TRAINING_DONE (R277, R289): initial training ends once no rank is still TRAINING. `density`: 0 for 16 Gb, 1 for
32 Gb devices; `checked`: bit 2i + n where the check of the values saved for rank i at point n held (WARM). A channel
without a trained rank leaves stage FALLBACK, and no copy can be read: the boot's result is STRUCT_NONE, or OK where
BOOT_SRC names none (DESIGN CHOICE, assumption 48). -/
def execDramTrainingDone (density checked : Nat) (s : State) : Res :=
  if s.fld Reg.SYS_BOOT_STAGE 3 0 ≠ 3 then .next s
  else
    let s1 := ranks.foldl (fun t i => (t.keepTrained checked i 0).keepTrained checked i 1) s
    let s2 := ranks.foldl (fun t i => if t.rankState i = 4 ∧ t.trained i then t.setRankState i 1 else t) s1
    if ranks.any fun i => s2.rankState i == 4 then .next s
    else
      let s3 := s2.bootMap density
      if s3.hotBytes = 0 then .next (s3.bootFallback (if s3.fld Reg.SYS_STRAPS 1 0 < 2 then 0x31 else 0))
      else .next (s3.setReg Reg.SYS_BOOT_STAGE 4)

/-- CASCADE_WAIT_EXPIRE (R175): a member that has not heard CASCADE_TIME within 400 ms starts on its own time; one that
has an upstream goes on aligning. -/
def execCascadeWaitExpire (s : State) : Res :=
  match s.ld.next with
  | some n =>
    if n.phase = .cascadeWait ∧ s.cas.upstream = none then
      .next { s with ld := { s.ld with next := some { n with phase := .card } } }
    else .next s
  | none => .next s

end Sys2Proof.Machine
end

