-- ==== Sys2Proof/Machine/QueueOps.lean ====
section
/-!
DEFINITION. Machine/QueueOps.lean: the states of a host queue and the writes of its registers (R132, R151 to R157).
-/
namespace Sys2Proof.Machine

/-- HEAD and TAIL of queue `q`. -/
def State.qHead (s : State) (q : Nat) : Nat := s.fld (Reg.CMD_Q_STATUS q) 15 0
def State.qTail (s : State) (q : Nat) : Nat := s.fld (Reg.CMD_Q_TAIL q) 15 0

/-- RUN of queue `q`. -/
def State.qRun (s : State) (q : Nat) : Bool := s.bit (Reg.CMD_Q_CTRL q) 31

/-- Queue `q` waits for nothing any more. -/
def State.qUnwait (s : State) (q : Nat) : State := s.setQueue q { s.queue q with wait := .none }

/-- A command of queue `q` is being checked by another member (R536). -/
def State.qForwards (s : State) (q : Nat) : Bool :=
  match (s.queue q).wait with
  | .forward _ _ => true
  | _ => false

/-- Queue `q` drops what it waits for, but for a check that goes on at another member, which ends there (R152, R536). -/
def State.qDrop (s : State) (q : Nat) : State := if s.qForwards q then s else s.qUnwait q

/-- Queue `q` halts with a code (R151); the HALTED record carries the record at which it halted, or zeros (R155). RUN
reads 0 from then on (DESIGN CHOICE, assumption 22). -/
def State.qHalt (s : State) (q code : Nat) (r : Option CmdRec) (index : Nat) : State :=
  let s1 := (((s.qDrop q).setQState q 3).setBit (Reg.CMD_Q_CTRL q) 31 false).setFld (Reg.CMD_Q_STATUS q) 23 16 code
  match r with
  | some r => s1.evWrite q (evRecord 5 code r.tag r.op r.obj 0xFF index s1.ts)
  | none => s1.evWrite q (evRecord 5 code 0 0 0 0xFF 0 s1.ts)

/-- A queue with no record in progress goes on: WAITING on a full ring, STOPPED where RUN has been cleared. -/
def State.qGo (s : State) (q : Nat) : State :=
  s.setQState q (if !s.qRun q then 0 else if (s.queue q).ringFull then 2 else 1)

/-- A queue whose record in progress has ended goes on. -/
def State.qResume (s : State) (q : Nat) : State := (s.qUnwait q).qGo q

/-- A write of Q_TAIL (R132, R133, R153): a TAIL that overfills the ring halts the queue; a standby keeps it. -/
def State.qTailWrite (s : State) (q : Nat) (v : Word) : State :=
  let s1 := s.setReg (Reg.CMD_Q_TAIL q) (v &&& 0xFFFF)
  if s1.qState q = 4 then s1
  else if ringSize (s1.reg (Reg.CMD_Q_RING q)) < (s1.qTail q + 65536 - s1.qHead q) % 65536 then s1.qHalt q 2 none 0
  else s1

/-- RUN of queue `q` is written (R151): no effect while DRAM is not there (R171) or on a HELD queue. Cleared, it stops
the queue after the record in progress; set, it starts a STOPPED or HALTED queue, unless one of its rings lies outside
host-accessible DRAM (R132): WAITING where a command of it is still being checked by another member (R536). -/
def State.qRunWrite (s : State) (q : Nat) (on : Bool) : State :=
  let stage := s.fld Reg.SYS_BOOT_STAGE 3 0
  if s.qState q = 4 ∨ stage = 2 ∨ stage = 3 ∨ s.hotBytes = 0 then s
  else
    let s1 := s.setBit (Reg.CMD_Q_CTRL q) 31 on
    let st := s1.qState q
    if on then
      if st = 0 ∨ st = 3 then
        if s1.ringOk (s1.reg (Reg.CMD_Q_RING q)) && s1.ringOk (s1.reg (Reg.CMD_EV_RING q)) then
          if s1.qForwards q then s1.setQState q 2 else s1.qResume q
        else s1.qHalt q 9 none 0
      else s1
    else if st = 1 ∨ (st = 2 ∧ (s1.queue q).wait = .none) then s1.setQState q 0
    else s1

/-- ABORT of queue `q` (R152): the records up to TAIL are discarded and the queue is STOPPED; a standby's stays HELD. A
check in progress goes on. -/
def State.qAbort (s : State) (q : Nat) : State :=
  let s1 := ((s.qDrop q).setFld (Reg.CMD_Q_STATUS q) 15 0 (s.qTail q))
  if s.qState q = 4 then s1 else (s1.setBit (Reg.CMD_Q_CTRL q) 31 false).setQState q 0

/-- A write of Q_CTRL under a mask: LOST_CLR, ABORT, RUN, in this order; ABORT and RUN in one write stop and start
(DESIGN CHOICE, assumption 21). -/
def State.qCtrlWrite (s : State) (q : Nat) (mask v : Word) : State :=
  let w := v &&& mask
  let s1 := if wbit w 29 then s.setFld (Reg.CMD_Q_CTRL q) 7 0 0 else s
  let s2 := if wbit w 30 then s1.qAbort q else s1
  if wbit mask 31 then s2.qRunWrite q (wbit w 31) else s2

/-- A write of Q_RING or EV_RING (`reg`) of queue `q`: ignored unless the queue is STOPPED or HALTED; a SIZE outside 6
to 14 is ignored. -/
def State.qRingWrite (s : State) (q reg : Nat) (mask v : Word) : State :=
  if s.qState q = 0 ∨ s.qState q = 3 then
    let new := merge (s.reg reg) (mask &&& 0xF3FF_FFFF) v
    let size := wbits new 31 28
    s.setReg reg (if 6 ≤ size ∧ size ≤ 14 then new else wput new 31 28 (wbits (s.reg reg) 31 28))
  else s

/-- A write of RD of the event ring of queue `q` (R156, R157): a slot freed lets a queue go on that waited on the full
ring; records left send the vector again. -/
def State.evRdWrite (s : State) (q : Nat) (v : Word) : State :=
  let s1 := s.setFld (Reg.CMD_EV_PTR q) 15 0 v.toNat
  let wr := s1.fld (Reg.CMD_EV_PTR q) 31 16
  let rd := s1.fld (Reg.CMD_EV_PTR q) 15 0
  let free := decide ((wr + 65536 - rd) % 65536 < ringSize (s1.reg (Reg.CMD_EV_RING q)))
  let s2 := if free && (s1.queue q).ringFull then
      let t := s1.setQueue q { s1.queue q with ringFull := false }
      if t.qState q = 2 ∧ (t.queue q).wait = .none then t.qResume q else t
    else s1
  if wr = rd then s2.dropVector q else s2.sendVector q

/-- Q_TAIL_WRITE (R133): a host write of CMD.Q_TAIL[q]. -/
def execQTailWrite (p : Port) (q : Nat) (v : Word) (s : State) : Res :=
  if q < 16 then s.hostWrite p (Reg.CMD_Q_TAIL q) v fun t => t.qTailWrite q v else .next s

/-- Q_RUN (R151): a host write of CMD.Q_CTRL[q] with RUN as given, ABORT and LOST_CLR 0. -/
def execQRun (p : Port) (q : Nat) (on : Bool) (s : State) : Res :=
  if q < 16 then
    s.hostWrite p (Reg.CMD_Q_CTRL q) 0 fun t => t.qCtrlWrite q (BitVec.allOnes 32) (if on then 0x8000_0000 else 0)
  else .next s

/-- Q_ABORT (R152): a host write of CMD.Q_CTRL[q] with ABORT 1, RUN and LOST_CLR 0. -/
def execQAbort (p : Port) (q : Nat) (s : State) : Res :=
  if q < 16 then s.hostWrite p (Reg.CMD_Q_CTRL q) 0x4000_0000 fun t => t.qCtrlWrite q (BitVec.allOnes 32) 0x4000_0000
  else .next s

/-- LOST_CLR (R156): a host write of CMD.Q_CTRL[q] with LOST_CLR 1 and RUN as it reads. -/
def execLostClr (p : Port) (q : Nat) (s : State) : Res :=
  if q < 16 then
    s.hostWrite p (Reg.CMD_Q_CTRL q) 0x2000_0000 fun t =>
      t.qCtrlWrite q (BitVec.allOnes 32) (if t.qRun q then 0xA000_0000 else 0x2000_0000)
  else .next s

/-- EV_RD_WRITE (R157): a host write of CMD.EV_PTR[q]. -/
def execEvRdWrite (p : Port) (q : Nat) (v : Word) (s : State) : Res :=
  if q < 16 then s.hostWrite p (Reg.CMD_EV_PTR q) v fun t => t.evRdWrite q v else .next s

end Sys2Proof.Machine
end

