-- ==== Sys2Proof/Machine/Requests.lean ====
section
/-!
DEFINITION. Machine/Requests.lean: requests that a host writes to the twin (TWN.CTRL, R514, R515, R521) and to the
register relay of the cascade (CAS.RELAY_CTRL, R539, R94).
-/
namespace Sys2Proof.Machine

/-! ### TWN.CTRL -/

/-- A handover is requested (R514): accepted on an active whose peer is QUALIFIED and heard, refused otherwise; one that
rides already stands. -/
def State.requestHandover (s : State) : State :=
  if s.twin.handover.isSome then s.setBit Reg.TWN_STATUS 21 false
  else if s.active && s.peerQualified && s.hornpipeAny then
    let s1 := (s.setBit Reg.TWN_STATUS 21 false).mirror .handover
    { s1 with twin := { s1.twin with handover := some s.twin.filling } }
  else s.setBit Reg.TWN_STATUS 21 true

/-- A write of TWN.CTRL (R563: mixed level): TAKEOVER_ACK at level B, RESYNC and HANDOVER with X access. RESYNC acts
on a standby. -/
def State.twnCtrlWrite (s : State) (x : Bool) (v : Word) : State :=
  let s1 := if wbit v 29 then s.hold .takeover false else s
  if x then
    let s2 := if wbit v 30 && s1.standby then s1.requestResync 6 else s1
    (if wbit v 31 then s2.requestHandover else s2).countX
  else s1

/-- A write of TWN.CTRL through a host port. -/
def State.twnHostCtrl (s : State) (p : Port) (v : Word) : Res :=
  s.hostWrite p Reg.TWN_CTRL v fun t => t.twnCtrlWrite t.xOpen v

/-- HANDOVER (R514): a write of TWN.CTRL with HANDOVER 1. -/
def execHandover (p : Port) (s : State) : Res := s.twnHostCtrl p 0x8000_0000

/-- RESYNC (R515): a write of TWN.CTRL with RESYNC 1. -/
def execResync (p : Port) (s : State) : Res := s.twnHostCtrl p 0x4000_0000

/-- TAKEOVER_ACK (R521): a write of TWN.CTRL with TAKEOVER_ACK 1. -/
def execTakeoverAck (p : Port) (s : State) : Res := s.twnHostCtrl p 0x2000_0000

/-! ### CAS.RELAY_CTRL -/

/-- A relay result enters its window (R93, R539). -/
def State.relayResult (s : State) (code : Nat) (data : Word) : State :=
  let s1 : State := { s with cas := { s.cas with relay := none } }
  (s1.setReg Reg.CAS_RELAY_STATUS (w32 (2 ^ 31 + s.nextSeqOf Reg.CAS_RELAY_STATUS * 2 ^ 16 + code % 256 * 256))).setReg
    Reg.CAS_RELAY_RESULT data

/-- GO (R539): a relayed access starts; while a request is outstanding or a result unconsumed it is ignored. A
write that is not relayed (R114, R302) gives ERROR, at the master and at a target alike (DESIGN CHOICE, assumption 60).
-/
def State.relayGo (s : State) (x : Bool) : State :=
  let a := s.reg Reg.CAS_RELAY_ADDR
  let cid := wbits a 30 28
  let side := wbits a 27 27
  if s.cas.relay.isSome || s.bit Reg.CAS_RELAY_STATUS 31 then s.setBit Reg.CAS_RELAY_CTRL 30 true
  else if !s.ringMaster then s.relayResult 1 0
  else if s.members ≤ cid || !s.memberAlive cid then s.relayResult 2 0
  else if wbit a 26 && notRelayed (wbits a 23 0) (s.reg Reg.CAS_RELAY_DATA) then s.relayResult 5 0
  else
    let flags := (if wbit a 26 then 1 else 0) + (if x then 2 else 0)
    let s1 := s.sendRing 4 cid side s.ringTag
      (leBytes 1 flags ++ leBytes 3 (wbits a 23 0) ++ leBytes 4 (s.reg Reg.CAS_RELAY_DATA).toNat)
    let r : CasRelay := { tag := s.ringTag, cid := cid, side := side, due := s.uptime + s.relayTimeout * cyclesPerMs }
    State.nextTag { s1 with cas := { s1.cas with relay := some r } }

/-- A write of CAS.RELAY_CTRL: IGNORED clears before GO acts; `x`: X access of the writer, which the request carries. -/
def State.relayCtrlWrite (s : State) (x : Bool) (v : Word) : State :=
  let s1 := if wbit v 30 then s.setBit Reg.CAS_RELAY_CTRL 30 false else s
  if wbit v 31 then s1.relayGo x else s1

/-- RELAY_GO (R539): a write of CAS.RELAY_CTRL with GO 1. -/
def execRelayGo (p : Port) (s : State) : Res :=
  s.hostWrite p Reg.CAS_RELAY_CTRL 0x8000_0000 fun t => t.relayCtrlWrite t.xOpen 0x8000_0000

/-- RELAY_ACK (R94): a write of CAS.RELAY_ACK. -/
def execRelayAck (p : Port) (v : Word) (s : State) : Res :=
  s.hostWrite p Reg.CAS_RELAY_ACK v fun t => t.ackWindow Reg.CAS_RELAY_STATUS v

end Sys2Proof.Machine
end

