-- ==== Sys2Proof/Machine/Thm.lean ====
section
/-!
DEFINITION. Machine/Thm.lean: the supply and temperature monitors (R547 to R551, R562).
-/
namespace Sys2Proof.Machine

/-! ### Supplies (R544, R547, R548) -/

/-- Nominal voltage in mV of the rail that monitor `m` watches (R544, R547). -/
def railNominal (m : Nat) : Nat :=
  if m < 4 then 750 else if m < 6 then 850 else if m < 8 then 1100 else if m = 8 then 900 else if m = 9 then 1800
  else if m < 12 then 900 else if m = 12 then 1200 else if m = 13 then 900 else 1800

/-- Reading `mv` lies below nominal − `p` %. -/
def railBelow (m mv p : Nat) : Bool := decide (100 * mv < (100 - p) * railNominal m)

/-- Reading `mv` lies above nominal + `p` %. -/
def railAbove (m mv p : Nat) : Bool := decide ((100 + p) * railNominal m < 100 * mv)

/-- LOW and HIGH of monitor `m` as the reading `mv` leaves them, the reading itself, and one more excursion where the
bit had not been set (THM.VOLT). -/
def State.voltOut (s : State) (m mv : Nat) (high : Bool) : State :=
  let was := s.bit (Reg.THM_VOLT m) (if high then 14 else 15)
  let s1 := (s.setFld (Reg.THM_VOLT m) 31 16 mv).setFld (Reg.THM_VOLT m) 15 14 (if high then 1 else 2)
  if was then s1 else s1.addSat (Reg.THM_VOLT m) 7 0 1

/-- The onset of VOLT_ALARM (R548): the condition holds, THM.VOLT_LAST shows its monitor and reading, the MRAM history
records it. R519 names no KIND of its own for it; it is entered as HEALTH. -/
def State.voltOnset (s : State) (m mv : Nat) (high : Bool) : State :=
  let s1 := (s.setBit Reg.THM_STATUS 29 true).setReg Reg.THM_VOLT_LAST
    (w32 (m * 2 ^ 28 + (if high then 2 ^ 27 else 0) + mv % 2 ^ 16))
  (s1.history 0x08 (9 + 2 ^ 16) [w32 m, w32 mv]).hold .voltAlarm true

/-- VOLT_ALARM (R548): monitor `m` has read `mv`, outside nominal ±4 %, for 100 µs. -/
def execVoltAlarm (m mv : Nat) (s : State) : Res :=
  let high := railAbove m mv 4
  if s.monitored && !s.boot.inReset && decide (m < 16) && (high || railBelow m mv 4) then
    let s1 := s.voltOut m mv high
    .next (if s.bit Reg.THM_STATUS 29 then s1 else s1.voltOnset m mv high)
  else .next s

/-- VOLT_ALARM_CLEAR (R548): every monitor has read within nominal ±3 % for 100 µs. -/
def execVoltAlarmClear (s : State) : Res :=
  if s.monitored && !s.boot.inReset then
    .next ((((List.range 16).foldl (fun t m => t.setFld (Reg.THM_VOLT m) 15 14 0) s).setBit Reg.THM_STATUS 29 false).hold .voltAlarm false)
  else .next s

/-- SUPPLY_RESET (R548, R551): monitor `m` has read `mv`, below nominal − 8 %, for 2 µs: a COLD reset with cause SUPPLY.
A device that stopped for heat takes it only within the same 1 ms. -/
def execSupplyReset (m mv : Nat) (s : State) : Res :=
  let live := s.boot.porst && (!s.boot.stopped || decide (s.uptime < cyclesPerMs))
  if live && decide (m < 16) && railBelow m mv 8 then .next (s.resetTo true 1) else .next s

/-! ### Temperatures (R549 to R551, R562) -/

/-- A signed 8-bit temperature as THM shows it. -/
def tempByte (c : Int) : Nat := unsignedN 8 c

/-- The present reading of sensor `u`, none before its first (R562). -/
def State.tempNow (s : State) (u : Nat) : Option Int :=
  let v := s.fld (Reg.THM_TEMP u) 31 24
  if v = 0x80 then none else some (signedN 8 v)

/-- The readings of all sensors that have one, with their numbers. -/
def State.temps (s : State) : List (Nat × Int) :=
  (List.range 16).filterMap fun u => match s.tempNow u with
    | some c => some (u, c)
    | none => none

/-- THM.CFG.THRESH and HYST as they act. -/
def State.tempThresh (s : State) : Int :=
  let v := signedN 8 (s.fld Reg.THM_CFG 31 24)
  if v < 60 then 60 else if 110 < v then 110 else v
def State.tempHyst (s : State) : Int := min 20 (max 1 (s.fld Reg.THM_CFG 23 16) : Nat)

/-- Reading `c` of sensor `u` in THM.TEMP: NOW, MAX and MIN. -/
def State.tempIn (s : State) (u : Nat) (c : Int) : State :=
  let old := s.fld (Reg.THM_TEMP u) 31 24
  let hi := signedN 8 (s.fld (Reg.THM_TEMP u) 23 16)
  let lo := signedN 8 (s.fld (Reg.THM_TEMP u) 15 8)
  let first := old == 0x80
  ((s.setFld (Reg.THM_TEMP u) 31 24 (tempByte c)).setFld (Reg.THM_TEMP u) 23 16
    (tempByte (if first then c else max c hi))).setFld (Reg.THM_TEMP u) 15 8 (tempByte (if first then c else min c lo))

/-- HOT_SENSOR and TJ (THM.STATUS): the highest present reading, of the lowest sensor that has it. -/
def State.hottest (s : State) : State :=
  match s.temps with
  | [] => s
  | e :: t =>
    let h := t.foldl (fun (a b : Nat × Int) => if a.2 < b.2 then b else a) e
    (s.setFld Reg.THM_STATUS 19 16 h.1).setFld Reg.THM_STATUS 15 8 (tempByte h.2)

/-- TEMP_SAMPLE (R549, R550): sensor `u` reads `c` °C. -/
def execTempSample (u : Nat) (c : Int) (s : State) : Res :=
  if s.monitored && !s.boot.inReset && decide (u < 16) && decide (-40 ≤ c) && decide (c ≤ 125) then
    let s1 := (s.tempIn u c).hottest
    let hi := if s.bit Reg.THM_STATUS 31 then s1.temps.any fun e => decide (s.tempThresh - s.tempHyst < e.2)
      else decide (s.tempThresh ≤ c)
    .next (s1.setBit Reg.THM_STATUS 31 hi).tempAlarm
  else .next s

/-- The device stops for heat until PORST_N falls (R551): every clock but the monitors' stands, outputs are held as
while PORST_N is low, THERMTRIP_N is low. Nothing of the stopped device can be seen, so it holds what a reset leaves.
-/
def State.tripStop (s : State) : State :=
  let s1 := s.resetTo true 0
  { s1 with boot := { s1.boot with stopped := true, thermTrip := true }, mram := { s1.mram with lastTrip := true } }

/-- THERMAL_TRIP (R551): sensor `u` has read `c`, 115 °C or more, for 1 ms. The TRIP entry has no KIND of its own in
R519; it is entered as HEALTH. -/
def execThermalTrip (u : Nat) (c : Int) (s : State) : Res :=
  if s.monitored && decide (u < 16) && decide (115 ≤ c) then
    .next (s.history 0x08 9 [w32 u, w32 (tempByte c)]).tripStop
  else .next s

end Sys2Proof.Machine
end

