-- ==== Sys2Proof/Machine/RegRead.lean ====
section
/-!
DEFINITION. Machine/RegRead.lean: what a register or table word reads as (R4 to R9, R13, R75, R88, R563): the stored
word, the words that hardware derives, the ROM parts of the table windows, and the shadows of pending direct writes.
-/
namespace Sys2Proof.Machine

/-! ### Where words lie (R75) -/

/-- Words of the table windows and of the glyph window (R75, R363, R372, R408). -/
def tableMapped (off : Nat) : Bool :=
  (decide (0x20_0000 ≤ off) && decide (off < 0x31_0400)) || (decide (0x32_0000 ≤ off) && decide (off < 0x32_9058))

/-- Words of the MSI-X table and of the pending-bit array (R75). -/
def msixMapped (off : Nat) : Bool :=
  (decide (0x2_8000 ≤ off) && decide (off < 0x2_8400)) || (decide (0x2_9000 ≤ off) && decide (off < 0x2_9008))

/-- A register or table occupies the word at BAR0 offset `off`; every other word goes to the default target (R75). -/
def mapped (off : Nat) : Bool :=
  decide (off % 4 = 0) && ((Reg.find off).isSome || tableMapped off || msixMapped off)

/-- The parts of the table windows that hold ROM: fixed coefficient sets, fixed conversion sets, glyphs and font (R345,
R372, R408). -/
def romMapped (off : Nat) : Bool :=
  tableMapped off && ((decide (0x28_0000 ≤ off) && decide (off < 0x28_8000))
    || (decide (0x31_0000 ≤ off) && decide (off < 0x31_0200)) || decide (0x32_0000 ≤ off))

/-! ### ROM words -/

/-- Byte offset `b` of the coefficient window of fixed set `k` (R372, R374). -/
def State.romSetWord (s : State) (k b : Nat) : Word :=
  if b = 0 then w32 (fixedTaps k)
  else
    match tapCounts.find? fun t => decide (variantOff t ≤ b) && decide (b < variantOff t + 128 * t) with
    | some t =>
      let n := (b - variantOff t) / 2
      w32 (s.coefField k t (n + 1) * 65536 + s.coefField k t n)
    | none => 0

/-- The state and phase that glyph `g` of the glyph window shows (R408). -/
def glyphOf (g : Nat) : Fresh × Nat :=
  if g < 4 then (.live, g)
  else match g with
    | 4 => (.late, 0) | 5 => (.stale, 0) | 6 => (.frozen, 0) | 7 => (.failed, 0) | _ => (.unknown, 0)

/-- Pixel `n` = 32y + x of glyph `g` as the glyph window shows it, STALE without text (R408). -/
def glyphWord (g n : Nat) : Word :=
  let x := n % 32
  let y := n / 32
  let inner := decide (2 ≤ x) && decide (x ≤ 29) && decide (y ≤ 29)
  let c := if g = 5 ∧ 16 ≤ y ∧ inner then (0, 0, 0) else glyph8 (glyphOf g).1 (glyphOf g).2 0 x y
  w32 (c.1 * 65536 + c.2.1 * 256 + c.2.2)

/-- Word `half` of font character `c`: byte k holds row k, byte 7 is zero (R408). -/
def fontWord (c half : Nat) : Word :=
  w32 (leNat ((List.range 4).map fun k => if half = 1 ∧ k = 3 then 0 else BitVec.ofNat 8 (fontRow c (4 * half + k))))

/-- A word of the ROM parts of the table windows. -/
def State.romWord (s : State) (off : Nat) : Word :=
  if off < 0x28_8000 then s.romSetWord ((off - 0x28_0000) / 4096) (off % 4096)
  else if off < 0x31_0200 then
    let k := (off - 0x31_0000) / 64
    w32 (leAt (if k = 0 then Csc.identity else Csc.fixed k).toBytes (off % 64) 4)
  else if off < 0x32_9000 then glyphWord ((off - 0x32_0000) / 4096) (off % 4096 / 4)
  else fontWord ((off - 0x32_9000) / 8) (off % 8 / 4)

/-! ### Derived registers -/

/-- A statistic that the spec gives no exact value for; its reset value while the device is held in reset (assumption
27). -/
def State.statWord (s : State) (off : Nat) : Word :=
  if s.boot.inReset then Reg.resetValue off else Config.freeStat off s.uptime s.free

/-- A statistic of at most `max`. -/
def State.stat (s : State) (off max : Nat) : Word :=
  w32 (min (s.statWord off).toNat max)

/-- Word `k` of a register array at `base` with `stride`, if `off` is one of its `count` elements. -/
def elemOf (off base stride count : Nat) : Option Nat :=
  if base ≤ off ∧ (off - base) % stride = 0 ∧ (off - base) / stride < count then some ((off - base) / stride) else none

/-- A bit as a number. -/
def b2n (b : Bool) : Nat := if b then 1 else 0

/-- A mask of the outputs that satisfy a test. -/
def outMask (f : Nat → Bool) : Word :=
  (List.range 24).foldl (fun a n => if f n then a ||| w32 (2 ^ n) else a) 0

/-- FSC registers that show the selected stream (R318). -/
def State.fscWord (s : State) (off : Nat) : Option Word :=
  let x := s.stream (s.fld Reg.FSC_SURF_SEL 11 0)
  if off = Reg.FSC_SURF_INFO then
    some (w32 (x.mode * 2 ^ 30 + x.e * 2 ^ 24 + b2n x.pyramid * 2 ^ 23 + x.statFrames % 65536))
  else if off = Reg.FSC_SURF_ERR then some (w32 (x.statMax * 2 ^ 24 + x.statFrameMax * 2 ^ 16))
  else if off = Reg.FSC_SURF_BYTES then some (w32 x.statBytes)
  else if off = Reg.FSC_RAW_TILES then some (w32 x.statRaw)
  else if off = Reg.FSC_WORST_TILE then
    some (w32 (x.statWorst.1 * 2 ^ 30 + x.statWorst.2.2 * 2 ^ 16 + x.statWorst.2.1))
  else if off = Reg.FSC_WORST_TS then some x.statWorstTs
  else (elemOf off (Reg.FSC_ERR_HIST 0) 4 8).map fun k => w32 (x.statHist.getD k 0)

/-- CMP and SCL registers that show a selected node or layer, and statistics. -/
def State.cmpWord (s : State) (off : Nat) : Option Word :=
  if off = Reg.CMP_NODE_STATUS then
    let n := s.fld Reg.CMP_NODE_SEL 7 0
    let x := s.nodeSt n
    let dest := match s.node n with
      | some r => r.dest
      | none => 0
    some (w32 (min x.faultSegs 255 * 2 ^ 24 + dest * 2 ^ 16 + min x.overrun 65535))
  else if off = Reg.CMP_PIPE_USE then
    some (w32 ((s.statWord off).toNat))
  else if off = Reg.SCL_LAYER_STATUS then
    let i := s.fld Reg.SCL_LAYER_SEL 11 0
    let x := s.layer i
    some (w32 (x.tapsConf * 2 ^ 28 + x.tapsUsed * 2 ^ 24 + b2n x.pass * 2 ^ 23 + b2n x.short * 2 ^ 22
      + x.level * 2 ^ 20 + (s.layerDesc i).scaler % 32 * 2 ^ 15 + x.wc % 2 ^ 15))
  else if off = Reg.SCL_PRE_LOAD then some (s.stat off 1000)
  else if off = Reg.SCL_PRE_BUSY_LO then some (s.preBusyWord false)
  else if off = Reg.SCL_PRE_BUSY_HI then some (s.preBusyWord true)
  else none

/-- OUT registers of output `n` (OUT.STATUS, GEOM, LINES, REGIONS); a bonded pair lives in its even port. A raster runs
from its structure's first frame on; before the first frame of all FRAME_NO reads its reset value. -/
def State.outArrayWord (s : State) (n reg : Nat) : Option Word :=
  let e := s.evenPort n
  let o := s.output e
  let t := s.timing e
  match reg with
  | 0x04 =>
    let bound := s.boundNode e
    let no := match o.cur with
      | some f => f.no
      | none => if o.nextNo = 0 ∧ o.sent = [] then 0 else (o.nextNo + 65535) % 65536
    let running := (o.begun || decide (o.sent ≠ [])) && s.rasterOuts.contains e
    some (w32 (b2n running * 2 ^ 31 + b2n bound.isSome * 2 ^ 30
      + b2n (match t with | some x => x.bonded | none => false) * 2 ^ 29 + b2n o.hold.isSome * 2 ^ 28
      + b2n (running && s.showsCard e) * 2 ^ 27 + min o.run 7 * 2 ^ 24 + bound.getD 0 * 2 ^ 16 + no))
  | 0x08 => some (match t with | some x => w32 (x.w * 65536 + x.h) | none => 0)
  | 0x0C => some (match t with | some x => w32 (x.total * 65536 + x.commitLead * 256 + s.lead e) | none => 0)
  | 0x18 => some (w32 (o.commitFrame * 65536 + b2n o.settling * 2 ^ 15 + o.regions.length))
  | _ => none

/-- OUT registers (OUT.SCAN_FAULT to OUT.LANTERN_POS), VGL masks. -/
def State.outWord (s : State) (off : Nat) : Option Word :=
  let o := s.output (s.evenPort (s.fld Reg.OUT_OUT_SEL 4 0))
  let r := o.regions[s.fld Reg.OUT_REGION_SEL 5 0]?
  let lan := (s.layer (s.fld Reg.OUT_LANTERN_SEL 11 0)).lantern
  if off = Reg.OUT_SCAN_FAULT then some (outMask fun n => (s.output (s.evenPort n)).hold.isSome)
  else if off = Reg.OUT_BONDED then
    some ((List.range 12).foldl (fun a k => match s.timing (2 * k) with
      | some t => if t.bonded then a ||| w32 (2 ^ k) else a
      | none => a) 0)
  else if off = Reg.OUT_SLACK_MIN then some (s.statWord off)
  else if off = Reg.OUT_REGION_X then some (match r with | some r => w32 (r.x1 * 65536 + r.x0) | none => 0)
  else if off = Reg.OUT_REGION_Y then some (match r with | some r => w32 (r.y1 * 65536 + r.y0) | none => 0)
  else if off = Reg.OUT_REGION_SRC then some (match r with | some r => w32 (r.kind * 2 ^ 30 + r.src) | none => 0)
  else if off = Reg.OUT_REGION_OVER then some (w32 (min o.overCount 255))
  else if off = Reg.OUT_LANTERN_STATUS then
    some (match lan with
      | some (_, l) => w32 (b2n l.drawn * 2 ^ 31 + l.state.code * 2 ^ 28 + l.phase * 2 ^ 26 + l.corner * 2 ^ 24 + min l.secs 100)
      | none => 0)
  else if off = Reg.OUT_LANTERN_POS then
    some (match lan with
      | some (n, l) => w32 (n * 2 ^ 27 + l.gx * 2 ^ 13 + l.gy)
      | none => 0)
  else if off = Reg.VGL_MISMATCH_MASK then
    some (outMask fun n => (s.output n).runs.any fun r => r.2.2)
  else if off = Reg.VGL_HEAD_FROZEN_MASK then some (outMask fun n => (s.output n).frozen)
  else if off = Reg.VGL_LOOP_OPEN_MASK then some (outMask fun n => (s.output n).openLoop)
  else
    match elemOf (off / 0x20 * 0x20) (Reg.OUT_CTRL 0) 0x20 24 with
    | some n => s.outArrayWord n (off % 0x20)
    | none => none

/-- The context that CHK.CTX shows (R414). What a STREAM channel has taken of a frame that has not flipped depends on
how far its lines have come within the cycle count of their writer: it is open (assumption 27). -/
def State.ctxReg (s : State) : Nat :=
  let c := s.chkSel
  if s.chanKind c = 1 ∧ (s.chan c).state = 2 then
    ((s.statWord Reg.CHK_CTX_HI).toNat * 2 ^ 32 + (s.statWord Reg.CHK_CTX_LO).toNat) % 2 ^ (s.chanRun c).w
  else (s.chan c).reg

/-- CHK registers that show the selected channel (CHK.SEL). -/
def State.chkWord (s : State) (off : Nat) : Option Word :=
  let x := s.chan s.chkSel
  if off = Reg.CHK_STATUS then some s.chkStatus
  else if off = Reg.CHK_PARAM then some x.param
  else if off = Reg.CHK_POLY_LO then some (x.poly.truncate 32)
  else if off = Reg.CHK_POLY_HI then some ((x.poly >>> 32).truncate 32)
  else if off = Reg.CHK_INIT_LO then some (x.init.truncate 32)
  else if off = Reg.CHK_INIT_HI then some ((x.init >>> 32).truncate 32)
  else if off = Reg.CHK_EXP_LO then some (x.exp.truncate 32)
  else if off = Reg.CHK_EXP_HI then some ((x.exp >>> 32).truncate 32)
  else if off = Reg.CHK_CTX_LO then some (w32 s.ctxReg)
  else if off = Reg.CHK_CTX_HI then some (w32 (s.ctxReg / 2 ^ 32))
  else none

/-- STM registers that show a selected machine (R130). -/
def State.stmWord (s : State) (off : Nat) : Option Word :=
  let x := s.machine (s.fld Reg.STM_DBG_SEL 6 0)
  if off = Reg.STM_PROG_DATA then some s.progWord
  else if off = Reg.STM_DBG_PC then
    some (w32 (x.pc + b2n x.z * 2 ^ 15 + b2n x.n * 2 ^ 14 + b2n x.c * 2 ^ 13 + x.stack.length * 2 ^ 10))
  else (elemOf off (Reg.STM_DBG_G 0) 4 8).map fun k => x.reg k

/-- DEC and ENC registers that show a selected context or core. -/
def State.decWord (s : State) (off : Nat) : Option Word :=
  if off = Reg.DEC_CTX_STATE then some s.ctxStateWord
  else if off = Reg.DEC_CTX_SSRC then some (s.ctxSel.ssrc.getD 0)
  else if off = Reg.DEC_LOAD then some (s.stat off 8000)
  else
    match elemOf off (Reg.DEC_CTX_CNT 0) 4 8, elemOf off (Reg.DEC_STAT 0) 4 16, elemOf off (Reg.DEC_STAT_ROWS 0) 4 36 with
    | some k, _, _ => some (s.ctxCnt k)
    | none, some k, _ => some (s.ctxSel.stat.getD k 0)
    | none, none, some k => some (s.ctxSel.stat.getD (16 + k) 0)
    | none, none, none =>
      match elemOf off (Reg.DEC_RUN_MASK 0) 4 8, elemOf off (Reg.DEC_CORE_STATUS 0) 4 8, elemOf off (Reg.ENC_STAT 0) 4 11 with
      | some k, _, _ => some (s.runMask k)
      | none, some k, _ => some (s.coreStatus k)
      | none, none, some k => some (s.encStatWord k)
      | none, none, none => (elemOf off (Reg.ENC_STATUS 0) 0x40 4).map fun e => s.encStatusWord e

/-- J-Link status registers of block `k` (R185, R204). -/
def State.jlWord (s : State) (k off : Nat) : Option Word :=
  let b := off % 0x1_0000
  if b = 0x40 then some (s.alignedWord k 0)
  else if b = 0x44 then some (s.alignedWord k 32)
  else if b < 0x200 then none
  else
    match linkPort k ((b - 0x200) / 0x20), b % 0x20 with
    | some port, 4 => some (s.portStatus port)
    | some port, 8 => if k = 9 then none else some (s.portSkew port)
    | some _, 0x14 => if k = 10 then some (s.farStatus ((b - 0x200) / 0x20)) else none
    | _, _ => none

/-- A device of a ring has been heard within CT_MISS periods (CAS.MEMBER A_SEEN and B_SEEN). -/
def State.casSeen (s : State) (d : Nat) : Bool :=
  match s.cas.devs.find? fun e => e.1 == d with
  | some e => s.casRecent e.2.upAt
  | none => false

/-- CAS registers that show the ring (CAS.STATUS, CAS.LINK.UP, CAS.MEMBER; R525 to R529, R540, R541). -/
def State.casWord (s : State) (off : Nat) : Option Word :=
  if off = Reg.CAS_STATUS then
    let lock := s.inRing && s.servo == 2 && (s.cascadeId == 0 || s.cas.upstream.isSome)
    let alive := ((List.range 8).map fun m => b2n (s.memberAlive m) * 2 ^ m).foldl (· + ·) 0
    some (w32 (b2n s.ringMaster * 2 ^ 31 + b2n lock * 2 ^ 30 + b2n (s.ringFollower && (s.fclkOf 0).locked) * 2 ^ 29
      + b2n (s.ringFollower && s.tim.master.isSome) * 2 ^ 28 + s.ownHops * 2 ^ 16 + alive * 2 ^ 8 + s.fld off 7 0))
  else
    match elemOf off (Reg.CAS_LINK 0) 16 4, elemOf off (Reg.CAS_MEMBER 0) 8 8 with
    | some i, _ => some (wput (s.reg off) 31 31 (b2n (s.casUp i && s.aligned (112 + i))))
    | none, some m =>
      let seen := fun d => if m = s.cascadeId ∧ d = s.ringSide then s.inRing else s.casSeen (2 * m + d)
      some (w32 (b2n (s.memberAlive m) * 2 ^ 31 + b2n (seen 0) * 2 ^ 30 + b2n (seen 1) * 2 ^ 29 + s.fld off 15 0))
    | none, none => none

/-- THM.VOLT of the monitor at `off`: with LOW or HIGH the reading that set it, else a reading within nominal ±4 %, taken
every 1 µs; the spec leaves open which (R547, R548; assumption 33). -/
def State.voltWord (s : State) (off : Nat) : Word :=
  if s.boot.inReset || s.fld off 15 14 != 0 then s.reg off
  else
    let v := railNominal ((off - Reg.THM_VOLT 0) / 4)
    let low := (96 * v + 99) / 100
    wput (s.reg off) 31 16 (low + (Config.freeStat off 0 (s.uptime / (cyclesPerMs / 1000))).toNat % (104 * v / 100 + 1 - low))

/-- TCH, TWN, ETH, SYS, TIM, MEM, CAS, THM and BLK words that are derived. -/
def State.miscWord (s : State) (off : Nat) : Option Word :=
  if off = Reg.SYS_INT_TOP then some s.intTop
  else if off = Reg.SYS_X_WRITES_LO then some (s.mram.xWrites.truncate 32)
  else if off = Reg.SYS_X_WRITES_HI then some ((s.mram.xWrites >>> 32).truncate 32)
  else if off = Reg.TIM_TS32 then some s.ts
  else if off = Reg.BLK_ACTIVE then some s.blkActive
  else if off = Reg.ETH_MCAST_USED then some (w32 (mcastEntries s.ld.recs))
  else if off = Reg.TWN_UID_LO then some (Config.uid.truncate 32)
  else if off = Reg.TWN_UID_HI then some ((Config.uid >>> 32).truncate 32)
  else if off = Reg.TWN_FILL then
    some (w32 (min s.twin.items.length 65535 * 65536 + s.fld Reg.TWN_FILL 15 0))
  else if off = Reg.TCH_ZONE_ACTIVE_LO then some (s.zoneActive false)
  else if off = Reg.TCH_ZONE_ACTIVE_HI then some (s.zoneActive true)
  else if (elemOf off (Reg.THM_VOLT 0) 4 16).isSome then some (s.voltWord off)
  else if off = Reg.THM_POWER then
    let p := (s.statWord off).toNat
    some (w32 (max (p / 65536) (p % 65536) * 65536 + p % 65536))
  else if (elemOf off (Reg.MEM_PORT_BW 0) 4 8).isSome ∨ (elemOf off (Reg.CAS_TX_BW 0) 16 4).isSome
      ∨ (elemOf off (Reg.CAS_RX_BW 0) 16 4).isSome then
    some (s.statWord off)
  else
    match elemOf off (Reg.TCH_STATUS 0) 16 24 with
    | some h => some (s.touchStatus h)
    | none => s.casWord off

/-- The derived word of the register at `off`, none where the stored word is what it reads as. -/
def State.derivedWord (s : State) (off : Nat) : Option Word :=
  match Reg.blockOf off with
  | 5 => s.stmWord off
  | 8 => s.jlWord 8 off
  | 9 => s.jlWord 9 off
  | 10 => s.jlWord 10 off
  | 13 | 14 => s.decWord off
  | 17 => s.fscWord off
  | 19 | 20 => s.cmpWord off
  | 21 | 23 => s.outWord off
  | 22 => s.chkWord off
  | _ => s.miscWord off

/-- The word at `off` before the access codes of R7: stored, derived, ROM, or of a table window, with the pending
direct writes over it (R7 SH). -/
def State.word (s : State) (off : Nat) : Word :=
  if 0x2_9000 ≤ off ∧ off < 0x2_9008 then (s.host.msixPending >>> (if off = 0x2_9000 then 0 else 32)).truncate 32
  else if romMapped off then s.romWord off
  else if 0x20_0000 ≤ off ∧ off < 0x24_0000 then s.cmd.held.foldl (fun w h => h.overlay off w) (s.streamWord off)
  else
    match s.derivedWord off with
    | some w => w
    | none => s.shadow off

/-- What a read of a mapped word returns (R5, R7): write-only and write-1-to-set bits read zero. -/
def State.readWord (s : State) (off : Nat) : Word :=
  match Reg.find off with
  | some d => s.word off &&& ~~~ (d.wo ||| d.w1s)
  | none => s.word off

/-- What a bus access answers: data, or an error response. -/
inductive BusRead where
  | data (v : Word)
  | error
  deriving DecidableEq, Repr

/-- A read by bus master `m` of `width` bytes at BAR0 offset `off` (R4, R13, R103): `src` is the SOURCE code of a
refusal, `x` the X access of the reader. -/
def State.busRead (s : State) (m src : Nat) (x : Bool) (off width : Nat) : State × BusRead :=
  if width ≠ 4 ∨ off % 4 ≠ 0 then (s.busError 1 m (s.qosOf m) false false off 0xFF, .error)
  else if !mapped off then (s.busError 0 m (s.qosOf m) false false off 0xFF, .error)
  else if Reg.isX off && !x then (s.refuseX src false off, .data 0)
  else if off = Reg.STM_PROG_DATA then (s.progAdvance, .data (s.readWord off))
  else (s, .data (s.readWord off))

end Sys2Proof.Machine
end

