-- ==== Sys2Proof/Machine/RegWrite.lean ====
section
/-!
DEFINITION. Machine/RegWrite.lean: what a write to a register or table word does (R4, R5, R7, R13, R14, R86 to R91,
R97, R332, R372, R375, R426, R563), whoever makes it: a host port, a queue command, the twin mirror or the relay.
Where several fields of one register act at once, the order is that of the owning chapter's function.
-/
namespace Sys2Proof.Machine

/-! ### Interrupt registers -/

/-- W1C bits `w` written to INT_STATUS of block `k` (R87, R91): an alarm flag whose condition persists stays; then
vectors 18 and 62 are sent again if their conditions still hold. -/
def State.intStatusWrite (s : State) (k : Nat) (w : Word) : State :=
  let clear := w &&& 0xFF &&& ~~~ ((s.conds k).zeroExtend 32)
  let s1 := s.setReg (Reg.INT_STATUS k) (s.reg (Reg.INT_STATUS k) &&& ~~~ clear)
  let s2 := if s1.alarmIrq then s1.sendVector 18 else s1
  (if s2.eventIrq then s2.sendVector 62 else s2).dropIrqs

/-- A write of INT_ENABLE of block `k`: a vector whose condition turns true is sent (R91). -/
def State.intEnableWrite (s : State) (k : Nat) (w : Word) : State :=
  (State.irqEdge s (s.setReg (Reg.INT_ENABLE k) (w &&& 0xFF))).dropIrqs

/-- A write of INT_FORCE of block `k`: an event of every existing flag whose bit is 1 (R86). A flag of alarm class that is
forced while its condition is absent stays set until it is cleared by a W1C write, or by an onset and end of its condition
(DESIGN CHOICE, assumption 71: R87 says nothing of it). -/
def State.intForceWrite (s : State) (k : Nat) (w : Word) : State :=
  (List.range 8).foldl (fun t n => if wbit w n && (flagMask k).getLsbD n then t.event k n else t) s

/-- A write of a word of the MSI-X table. Unmasking a vector whose pending bit is set sends its message (R91). -/
def State.msixWrite (s : State) (off : Nat) (m v : Word) : State :=
  let vec := (off - 0x2_8000) / 16
  if off % 16 = 12 then
    let s1 := s.setReg off (merge (s.reg off) (m &&& 1) v)
    if !s1.vecMasked vec && s1.host.msixPending.getLsbD vec then
      (s1.dropVector vec).sendVector vec
    else s1
  else s.setReg off (merge (s.reg off) m v)

/-! ### X access (R14, R97) -/

/-- A write of SYS.LEVEL_KEY (R14): the first word opens a window of 1 ms for the second. A second word of 0x58A5 fails
that attempt and starts a new one (DEDUCED, assumption 23). No effect while X access is open. -/
def State.levelKeyWrite (s : State) (w : Word) : State :=
  if s.xOpen then s
  else if w = 0x58A5 then { s with host := { s.host with keyArmed := true } }
  else
    let s1 : State := { s with host := { s.host with keyArmed := false } }
    if s.host.keyArmed && w == 0xA558 then s1.setBit Reg.SYS_LEVEL_STATUS 31 true else s1

/-- A write of SYS.LEVEL_STATUS: CLOSE closes X access. -/
def State.levelStatusWrite (s : State) (w : Word) : State :=
  if wbit w 0 then s.setBit Reg.SYS_LEVEL_STATUS 31 false else s

/-! ### Owning chapters' registers -/

/-- A write of SYS.LOAD_ACK: a consumed result makes room for one that waits (R94, R95). -/
def State.loadAckWrite (s : State) (w : Word) : State :=
  let t := s.ackWindow Reg.SYS_LOAD_STATUS w
  match t.ld.held with
  | some r => if t.bit Reg.SYS_LOAD_STATUS 31 then t else ({ t with ld := { t.ld with held := none } } : State).showLoad r
  | none => t

/-- SYS and SVP. -/
def State.sysSpecial (s : State) (src : Nat) (off : Nat) (w : Word) : Option State :=
  if off = Reg.SYS_LOAD_ACK then some (s.loadAckWrite w)
  else if off = Reg.SYS_LEVEL_KEY then some (s.levelKeyWrite w)
  else if off = Reg.SYS_LEVEL_STATUS then some (s.levelStatusWrite w)
  else if off = Reg.SYS_RESET_CTRL then some (if w = 0xA5C3 then s.resetTo false 4 else s)
  else if off = Reg.SVP_MBOX_REQ then some (s.mboxSubmit src (wbits w 7 0))
  else if off = Reg.SVP_MBOX_ACK then some (s.ackWindow Reg.SVP_MBOX_STATUS w)
  else none

/-- STM and CMD. -/
def State.stmSpecial (s : State) (x : Bool) (off : Nat) (m w : Word) : Option State :=
  if off = Reg.STM_PROG_DATA then some (s.progWrite w)
  else
    match elemOf off (Reg.STM_CTRL 0) 4 65 with
    | some k => some (s.stmCtrlWrite k x w)
    | none =>
      match elemOf (off / 4 * 4) (Reg.CMD_Q_RING 0) 4 128 with
      | some n =>
        let q := n / 8
        match n % 8 with
        | 0 | 1 => some (s.qRingWrite q off m w)
        | 2 => some (s.qTailWrite q w)
        | 4 => some (s.qCtrlWrite q m w)
        | 5 => some (s.evRdWrite q w)
        | _ => none
      | none => none

/-- TIM. -/
def State.timSpecial (s : State) (x : Bool) (off : Nat) (w : Word) : Option State :=
  if off = Reg.TIM_CTRL then some (s.timCtrlWrite x w)
  else if off = Reg.TIM_ADDEND_LO then some (s.stagePair Reg.TIM_ADDEND_LO w)
  else if off = Reg.TIM_ADDEND_HI then some (s.addendWrite (w.toNat % 65536 * 2 ^ 32 + (s.staged Reg.TIM_ADDEND_LO).toNat))
  else if off = Reg.TIM_PTP_CFG then some (s.ptpCfgWrite w)
  else
    match elemOf off (Reg.TIM_TPO_TIME 0) 8 8, elemOf off (Reg.TIM_TPO_CTRL 0) 8 8 with
    | some k, _ => some (if s.bit (Reg.TIM_TPO_CTRL k) 31 then s else s.setReg off w)
    | none, some k => some (s.tpoWrite k w)
    | none, none => none

/-- J-Link, ENC and MEM. -/
def State.encSpecial (s : State) (off : Nat) (w : Word) : Option State :=
  match Reg.blockOf off, off % 0x1_0000 with
  | 8, 0x48 => some (s.cntClear 8 (wbits w 7 0))
  | 9, 0x48 => some (s.cntClear 9 (wbits w 7 0))
  | 10, 0x48 => some (s.cntClear 10 (wbits w 7 0))
  | 14, b =>
    if b < 0x200 then none
    else
      let e := (b - 0x200) / 0x40
      let r := b % 0x40
      if r = 0x28 then some (s.encRdWrite e w)
      else if r = 0x04 then none
      else if s.encState e = 0 then none
      else some s
  | 16, _ =>
    if off = Reg.MEM_OP_CTRL then some (s.opCtrlWrite w)
    else if off = Reg.MEM_RETIRE then some (s.memRetireWrite w)
    else if off = Reg.MEM_WRITE_DRAIN then some (s.setReg off w).drainModes
    else if off = Reg.MEM_SCRUB_CTRL then some (s.scrubCtrlWrite w)
    else if off = Reg.MEM_ERR_INFO then some ((if wbit w 31 then s.setBit off 31 false else s).memAlarms)
    else none
  | _, _ => none

/-- FSC and BLK. -/
def State.blkSpecial (s : State) (off : Nat) (w : Word) : Option State :=
  if off = Reg.FSC_STAT_CLR then
    let s1 := if wbit w 30 then s.clearAllStats else s
    let i := s1.fld Reg.FSC_SURF_SEL 11 0
    some (if wbit w 31 then s1.setStream i (s1.stream i).clearStats else s1)
  else if off = Reg.BLK_SUBMIT_LO then some (s.stagePair Reg.BLK_SUBMIT_LO w)
  else if off = Reg.BLK_SUBMIT_HI then some (s.blkSubmitWrite w)
  else if off = Reg.BLK_CTRL then some (if wbit w 31 then s.blkAbort else s)
  else if off = Reg.BLK_RESULT_ACK then some (s.ackWindow Reg.BLK_RESULT w)
  else none

/-- CHK but for the shadowed fields of CTRL (R413 to R417). -/
def State.chkSpecial (s : State) (off : Nat) (w : Word) : Option State :=
  let c := s.chkSel
  let x := s.chan c
  if off = Reg.CHK_STATUS then some (if wbit w 12 then s.setChan c { x with ignored := false } else s)
  else if off = Reg.CHK_PARAM then some (s.setChan c { x with param := w })
  else if off = Reg.CHK_POLY_LO ∨ off = Reg.CHK_INIT_LO ∨ off = Reg.CHK_EXP_LO ∨ off = Reg.CHK_CTX_LO then
    some (s.stagePair off w)
  else if off = Reg.CHK_POLY_HI then some (s.setChan c { x with poly := w ++ s.staged Reg.CHK_POLY_LO })
  else if off = Reg.CHK_INIT_HI then some (s.setChan c { x with init := w ++ s.staged Reg.CHK_INIT_LO })
  else if off = Reg.CHK_EXP_HI then some (s.setChan c { x with exp := w ++ s.staged Reg.CHK_EXP_LO })
  else if off = Reg.CHK_CTX_HI then some (s.chkContext (w ++ s.staged Reg.CHK_CTX_LO))
  else if off = Reg.CHK_DATA then some (s.chkData w)
  else
    match elemOf off (Reg.CHK_CTRL 0) 16 64 with
    | some n =>
      let s1 := if wbit w 31 then s.chkStart n else s
      some (if wbit w 30 then s1.chkFinish n else s1)
    | none => none

/-- TCH, TWN and CAS. -/
def State.twinSpecial (s : State) (x : Bool) (off : Nat) (w : Word) : Option State :=
  if off = Reg.TCH_MAP_CTRL then some (if x then s.mapCtrlWrite w else s)
  else if off = Reg.TWN_CTRL then some (s.twnCtrlWrite x w)
  else if off = Reg.CAS_RELAY_CTRL then some (s.relayCtrlWrite x w)
  else if off = Reg.CAS_RELAY_ACK then some (s.ackWindow Reg.CAS_RELAY_STATUS w)
  else
    match elemOf off (Reg.TCH_RING 0) 16 24, elemOf off (Reg.TCH_RING_PTR 0) 16 24 with
    | some h, _ => some (s.touchRingWrite h w)
    | none, some h => some (s.touchRdWrite h w)
    | none, none => none

/-- The effect of a write on a register that does more than keep what is written, none for every other one. `m`: the
bits that the write reaches; `w`: the value, with bits of RW fields that it does not reach as they stand. -/
def State.special (s : State) (src : Nat) (x : Bool) (off : Nat) (m w : Word) : Option State :=
  let k := Reg.blockOf off
  match off % 0x1_0000 with
  | 0x10 => some (s.intStatusWrite k w)
  | 0x14 => some (s.intEnableWrite k w)
  | 0x18 => some (s.intForceWrite k w)
  | _ =>
    match k with
    | 0 | 4 => s.sysSpecial src off w
    | 5 | 6 => s.stmSpecial x off m w
    | 7 => s.timSpecial x off w
    | 8 | 9 | 10 | 14 | 16 => s.encSpecial off w
    | 17 | 18 => s.blkSpecial off w
    | 22 => s.chkSpecial off w
    | 24 | 25 | 26 => s.twinSpecial x off w
    | _ => none

/-- Registers whose own function counts the X write: it knows whether one was carried out. -/
def countsItself (off : Nat) : Bool :=
  off == Reg.STM_PROG_DATA || off == Reg.TIM_CTRL || off == Reg.TWN_CTRL || (elemOf off (Reg.STM_CTRL 0) 4 65).isSome

/-! ### A write -/

/-- How shadowed bits are held: offset, mask, value. -/
abbrev ShadowWrite := State → Nat → Word → Word → State

/-- The bits of table word `off` that a write reaches (R5, R331, R345, R426): of a Stream Table entry EFLAGS.FREEZE_ON
and FREEZE_N, of a descriptor and of a colour conversion set all but LANTERN and what is reserved or zero, of a
coefficient set TAPS and the variants (R372). -/
def tableMask (off : Nat) : Word :=
  if off < 0x24_0000 then (if off % 64 = 4 then 0xFF01_0000 else 0)
  else if off < 0x28_0000 then
    let b := off % 64
    if b = 0 then 0xFF0F_FFFF
    else if b = 20 then 0x000F_0003
    else if b = 24 ∨ b = 28 then 0x00FF_FFFF
    else if b < 44 then BitVec.allOnes 32
    else 0
  else if 0x28_0000 ≤ off ∧ off < 0x30_0000 then
    let b := (off - 0x28_0000) % 4096
    if b = 0 then 0xFF else if b < 64 ∨ 3008 ≤ b then 0 else BitVec.allOnes 32
  else if 0x31_0200 ≤ off ∧ off < 0x31_0400 ∧ off % 64 = 60 then 0x7
  else BitVec.allOnes 32

/-- A write to a mapped register (R5, R7, R13, R563): `src` is the SOURCE code of a refusal, `x` the X access of the
writer. -/
def State.writeReg (s : State) (src : Nat) (x : Bool) (sh : ShadowWrite) (d : RegDesc) (off : Nat) (mask v : Word) : State :=
  if d.xReg && !x then s.refuseX src true off
  else
    let m := mask &&& Reg.reach x off
    let w := merge (s.word off &&& d.rw) m v &&& (d.rw ||| d.w1c ||| d.wo ||| d.w1s ||| d.sh)
    let s1 := match s.special src x off m w with
      | some t => t
      | none => if m &&& (d.rw ||| d.w1c) = 0 then s else s.setReg off (merge (s.reg off) (m &&& d.rw) v &&& ~~~ (m &&& d.w1c &&& v))
    let s2 := if m &&& d.sh = 0 then s1 else sh s1 off (m &&& d.sh) v
    if x && decide (m &&& d.x ≠ 0) && !countsItself off then s2.countX else s2

/-- A write to a word of the table windows: an X write of shadowed content (R332, R363, R375, R426). Writes to ROM are
ignored. What counts as one X write is open (DESIGN CHOICE, assumption 49): each word written here counts one. -/
def State.writeTable (s : State) (src : Nat) (x : Bool) (sh : ShadowWrite) (off : Nat) (mask v : Word) : State :=
  if romMapped off then s
  else if !x then s.refuseX src true off
  else
    let m := mask &&& tableMask off
    (if m = 0 then s else sh s off m v).countX

/-- A write to a mapped word. -/
def State.write (s : State) (src : Nat) (x : Bool) (sh : ShadowWrite) (off : Nat) (mask v : Word) : State :=
  match Reg.find off with
  | some d => s.writeReg src x sh d off mask v
  | none =>
    if tableMapped off then s.writeTable src x sh off mask v
    else if off < 0x2_8400 then s.msixWrite off mask v
    else s

/-- The part of a write to `off` that is mirrored state (R494): the mirrored blocks, the table windows and the X fields
of CHK. -/
def mirroredMask (off : Nat) : Word :=
  if romMapped off then 0
  else if mirroredOff off then BitVec.allOnes 32
  else if Reg.blockOf off = 22 then Reg.xBits off
  else 0

/-- Is a write with X access `x` refused (R13)? -/
def writeRefused (x : Bool) (off : Nat) : Bool :=
  !x && (Reg.isX off || (tableMapped off && !romMapped off))

/-- A host's write of a whole word by the host master or the relay `m` at a mapped offset: on a standby the mirrored
part is ignored and counted (R495); an accepted write of an active is mirrored (R494). -/
def State.hostWord (s : State) (src : Nat) (x : Bool) (off : Nat) (v : Word) : State :=
  let mir := mirroredMask off &&& Reg.reach x off
  let go := fun (t : State) (mask : Word) => t.write src x (fun u o k a => u.stage o k a) off mask v
  if writeRefused x off then go s (BitVec.allOnes 32)
  else if mir = 0 then go s (BitVec.allOnes 32)
  else if s.standby then
    let t := s.addSat Reg.TWN_STATUS 15 0 1
    if mir = Reg.reach x off then t else go t (~~~ mir)
  else go ((s.mirrorChan off).mirror (.write off mir v)) (BitVec.allOnes 32)

/-- A write by bus master `m` of `width` bytes at BAR0 offset `off` (R4, R103); whether it was answered without error.
-/
def State.busWrite (s : State) (m src : Nat) (x : Bool) (off width : Nat) (v : Word) : State × Bool :=
  if width ≠ 4 ∨ off % 4 ≠ 0 then (s.busError 1 m (s.qosOf m) true false off 0xFF, false)
  else if !mapped off then (s.busError 0 m (s.qosOf m) true false off 0xFF, false)
  else (s.hostWord src x off v, true)

end Sys2Proof.Machine
end

