-- ==== Sys2Proof/Machine/QueueCheck.lean ====
section
/-!
DEFINITION. Machine/QueueCheck.lean: the check of a command record (R138, R139, R141, and the rules of the chapters that
own its object): code 0 where the device accepts it.
-/
namespace Sys2Proof.Machine

/-! ### What a record says -/

/-- Argument words an opcode uses (R138). -/
def usedArgs (op : Nat) : Nat := [0, 1, 4, 1, 3, 1, 2, 5, 3, 3, 2, 3, 6, 4, 1, 2, 2].getD op 0

/-- Opcodes whose effect is due at a commit point (R138). -/
def commitOp (op : Nat) : Bool := [1, 2, 3, 4, 5, 0x0D, 0x0F].contains op

/-- Opcodes that leave OBJECT zero (R138). -/
def zeroObject (op : Nat) : Bool := [0, 0x0A, 0x0B, 0x0C, 0x10].contains op

/-- The X opcodes (R138). -/
def xOp (op : Nat) : Bool := [5, 0x0B, 0x0C].contains op

/-- The deferring commit clock of a record (R136). -/
def CmdRec.defer (r : CmdRec) : Option Nat := if r.clock ≤ 7 then some r.clock else none

/-- FENCE value of a record: A0 and A1. -/
def CmdRec.value (r : CmdRec) : DWord := BitVec.ofNat 64 (r.arg 0 % 2 ^ 32 + r.arg 1 * 2 ^ 32)

/-- Frame clock of node `n`: that of the running structure, or, where only a pending delta brings the node, that of the
structure after it. -/
def State.clockSoon (s : State) (n : Nat) : Nat :=
  if (s.node n).isSome then s.nodeClock n else clockOf s.deltaBase.1 257 n

/-- The slot that external input `i` of ensemble `k` is mapped to (R34, R58): member node, bit 15 and CASCADE_ID on
another member (R535), and slot. -/
def State.inputSlot (s : State) (k i : Nat) : Option (Nat × Nat) :=
  match s.body RT.ENSEMBLE k with
  | some b => ((ensInputs b)[i]?).map fun e => (e.1, e.2.1)
  | none => none

/-- The slot that a layer command names by an ensemble's external input (R34): OBJECT with bits [15:14] 0b10, the kind
of an ensemble in a source entry (R59), the ensemble in [9:4] and the input in [3:0] (DESIGN CHOICE, assumption 46). -/
def State.cmdInput (s : State) (r : CmdRec) : Option (Nat × Nat) :=
  if 1 ≤ r.op ∧ r.op ≤ 4 ∧ r.obj / 1024 = 0x20 then s.inputSlot (r.obj / 16 % 64) (r.obj % 16) else none

/-- The record with the object it acts on: a layer command on an external input acts on the mapped member slot (R34). -/
def State.slotCmd (s : State) (r : CmdRec) : CmdRec :=
  match s.cmdInput r with
  | some e => if remoteNode e.1 then r else { r with obj := e.1 * 16 + e.2 }
  | none => r

/-- The commit clock that R138 names for a record. -/
def State.cmdClock (s : State) (r0 : CmdRec) : Nat :=
  let r := s.slotCmd r0
  match r.op with
  | 1 | 2 | 3 | 4 => s.clockSoon (r.obj / 16)
  | 0x0D => match s.headRec r.obj with
    | some h => s.outClock h.output
    | none => 0
  | 0x0F => s.encClock r.obj
  | _ => 0

/-- The object whose removal discards a command (R49). -/
def CmdRec.object (r : CmdRec) : Nat × Nat :=
  match r.op with
  | 1 | 2 | 3 | 4 => (RT.LAYER, r.obj)
  | 5 => (RT.STREAM, r.obj)
  | _ => (0, 0)

/-- The change that a command with a commit point makes there (R138, R454, R482). -/
def CmdRec.change (r : CmdRec) : Change :=
  let e := ldtBase r.obj
  let a := fun i => w32 (r.arg i)
  match r.op with
  | 1 => .words [(e, 0x0000_FFFF, a 0)]
  | 2 => .words [(e + 4, 0xFFFF_FFFF, a 0), (e + 8, 0xFFFF_FFFF, a 1), (e + 12, 0xFFFF_FFFF, a 2), (e + 16, 0xFFFF_FFFF, a 3)]
  | 3 => .words [(e, 0xFFFF_0000, w32 (r.arg 0 % 256 * 2 ^ 24 + r.arg 0 / 256 % 16 * 2 ^ 16))]
  | 4 => .words ((if r.arg 0 % 4 = 3 then [] else [(e + 20, (0x3 : Word), a 0)])
      ++ (if r.arg 1 = 0 then [] else [(e + 24, (0x00FF_FFFF : Word), a 1)])
      ++ (if r.arg 2 = 0 then [] else [(e + 28, (0x00FF_FFFF : Word), a 2)]))
  | 5 => .words [(streamBase r.obj + 4, 0x0001_0000, w32 (r.arg 0 % 2 * 2 ^ 16))]
  | 0x0D => .zone r.obj (r.arg 0 % 256) (r.arg 0 / 256 % 256) (r.arg 1 % 65536) (r.arg 1 / 65536) (r.arg 2 % 65536)
      (r.arg 2 / 65536) (r.arg 3)
  | _ => .encCtrl r.obj (r.arg 0) (r.arg 1)

/-! ### The checks -/

/-- The first failing check of a list: condition that must hold, code. -/
def firstCode : List (Bool × Nat) → Nat
  | [] => 0
  | (ok, c) :: t => if ok then firstCode t else c

/-- Guarded layers of the raster-timed node above node `n` stay within R396. -/
def guardedOk (l : List Rec) (n : Nat) : Bool :=
  match rasterNode l 257 n with
  | some g => decide (guardedUnder l 257 g ≤ 128)
  | none => true

/-- INLINE nodes that a source entry leads to still have their one consumer (R31). -/
def inlineKept (l : List Rec) (e : Nat) : Bool :=
  match entryNode l e with
  | some n => match nodeRec l n with
    | some x => inlineOk l n x
    | none => true
  | none => true

/-- SOURCE entries that layer `i` may take at level B (R59). -/
def selectOf (l : List Rec) (i : Nat) : List Nat :=
  match recBody l RT.SELECT i with
  | some b => (List.range (leAt b 0 2)).map fun k => leAt b (4 + 2 * k) 2
  | none => []

/-- A layer's descriptor obeys R331, R334, R335, R339, R369 and the rules of R364 about its own source. A command that
leaves SCALER and the sets as they are creates no other case of R364. -/
def State.layerSound (t : State) (i : Nat) : Bool :=
  descFieldsOk (t.windowBytes (ldtBase i) 16) t.policy && descSourceOk (t.layerDesc i) (resolve t.records (t.layerDesc i).source)

/-- SET_SOURCE (R27, R31, R43, R16, R39): a source that would close a cycle, and one that takes an INLINE node's one
consumer away or adds another, is refused with BAD_ARG (DESIGN CHOICE, assumption 44); `p` the structure it finds, `t`
with it applied, `x` X access. -/
def sourceCode (p t : State) (x : Bool) (i : Nat) (r : CmdRec) : Nat :=
  let e := r.arg 0 % 65536
  let l := t.records
  firstCode
    [(decide (r.arg 0 < 65536) && SrcRef.ofEntry e != .invalid, 2), (x || (selectOf l i).contains e, 4),
     (entryExists l e && !namesGlass l e && !namesBare l e, 2), (strictOk l (t.layerDesc i), 6),
     (t.layerSound i, 2), (acyclicAt l (i / 16) && inlineKept l (p.layerDesc i).source && inlineKept l e, 2), (t.budgetNow == 0, t.budgetNow)]

/-- SET_GEOMETRY (R331, R334, R335, R39). -/
def geometryCode (t : State) (i : Nat) : Nat := firstCode [(t.layerSound i, 2), (t.budgetNow == 0, t.budgetNow)]

/-- SET_BLEND (R331, R334). -/
def blendCode (t : State) (i : Nat) (r : CmdRec) : Nat := firstCode [(decide (r.arg 0 < 4096) && t.layerSound i, 2)]

/-- SET_GUARD (R43, R331, R333, R396, R27): GUARD_RULE also where the layer would be STRICT with a threshold looser than
the image's. -/
def guardCode (p t : State) (i : Nat) (r : CmdRec) : Nat :=
  let d := t.layerDesc i
  let pol := t.policy
  let img := match t.body RT.LAYER i with
    | some b => LayerDesc.ofBody b
    | none => d
  let looser := ageOf img.aLive pol.aLive < ageOf d.aLive pol.aLive ∨ ageOf img.aStale pol.aStale < ageOf d.aStale pol.aStale
  firstCode
    [(decide (r.arg 0 < 4) && decide (r.arg 1 < 2 ^ 24) && decide (r.arg 2 < 2 ^ 24), 2),
     ((p.layerDesc i).guard != 2 || d.guard == 2, 5), (t.layerSound i, 2), (d.guard != 2 || !decide looser, 5),
     (guardedOk t.records (i / 16), 2), (strictOk t.records d, 6)]

/-- The change of a command, held from now on. -/
def State.heldFor (s : State) (r : CmdRec) (origin : Origin) (epoch : Option Nat) (least : Nat) : Held :=
  { seq := s.cmd.nextSeq, origin := origin, clock := s.cmdClock r, defer := r.defer, object := (s.slotCmd r).object,
    epoch := epoch, least := least, change := (s.slotCmd r).change }

/-- The structure at the commit point of a command (R39). -/
def State.atCommit (s : State) (r : CmdRec) (least : Nat) : State :=
  s.preview (s.dueIn (s.cmdClock r) r.defer s.ridden least)

/-- A layer command against the structure at its commit point (R39): a layer that will have gone by then passes, and the
command is discarded there (R49). -/
def State.layerCode (s : State) (x : Bool) (r : CmdRec) (least : Nat) : Nat :=
  let i := (s.slotCmd r).obj
  let p := s.atCommit r least
  if !p.layerOn i then (if s.layerOn i then 0 else 2)
  else
    let h := s.heldFor r (.internal 32 r.op) none least
    let t := p.applyChange h
    match r.op with
    | 1 => sourceCode p t x i r
    | 2 => geometryCode t i
    | 3 => blendCode t i r
    | _ => guardCode p t i r

/-- SET_FREEZE (R43, R431). -/
def State.freezeCode (s : State) (r : CmdRec) (least : Nat) : Nat :=
  let p := s.atCommit r least
  firstCode
    [(decide (r.arg 0 ≤ 1) && ((p.stream r.obj).on || (s.stream r.obj).on), 2), (r.arg 0 == 1 || !p.feedsStrict r.obj, 5)]

/-- Bytes of a raw line of a stream: raw bits per pixel b (R329). -/
def StreamSt.lineBytes (x : StreamSt) : Nat := cdiv (x.width * Fmt.bits x.format) 8

/-- Source address of line `k` of a DMA. -/
def CmdRec.dmaLine (r : CmdRec) (k : Nat) : Nat := r.arg 0 % 2 ^ 32 + r.arg 1 % 64 * 2 ^ 32 + k * r.arg 2

/-- DMA (R138, R140, R77). -/
def State.dmaCode (s : State) (r : CmdRec) : Nat :=
  let x := s.stream r.obj
  let first := r.arg 3 % 65536
  let count := r.arg 3 / 65536
  firstCode
    [(x.on && x.kind == 3 && decide (r.arg 1 < 64) && decide (r.arg 4 < 512) && decide (1 ≤ count)
       && decide (first + count ≤ x.height), 2),
     ((List.range count).all fun k => s.hostRange (r.dmaLine k) x.lineBytes, 9)]

/-- Why a FLIP of queue `q` is refused as it executes (R140): DMA_FAILED, NO_BUFFER, NO_DATA. -/
def State.flipCode (s : State) (q : Nat) (i : Nat) : Nat :=
  let x := s.stream i
  firstCode [(!(s.queue q).dmaFailed.contains i, 0x0B), (!x.dmaDropped, 0x0F), (x.dmaDone && x.cur.isSome, 0x10)]

/-- A DMA of queue `q` to stream `i` is in progress (R140). -/
def State.dmaBusy (s : State) (q i : Nat) : Bool := s.cmd.dmas.any fun d => d.queue == q && d.stream == i

/-- REG_WRITE and TABLE_WRITE may reach the word at `off` (R139): not in CMD, not SYS.LEVEL_KEY or LEVEL_STATUS,
aligned, mapped. -/
def targetOk (off : Nat) : Bool :=
  off % 4 == 0 && Reg.blockOf off != 6 && off != Reg.SYS_LEVEL_KEY && off != Reg.SYS_LEVEL_STATUS && mapped off

/-- TABLE_WRITE: its words lie in the table windows. -/
def tableCode (r : CmdRec) : Nat :=
  let n := r.arg 5
  firstCode
    [(decide (1 ≤ n) && decide (n ≤ 4) && (List.range 4).all fun i => decide (i < n) || r.arg (1 + i) == 0, 2),
     ((List.range n).all fun j =>
        let o := r.arg 0 + 4 * j
        decide (0x20_0000 ≤ o) && decide (o < 0x40_0000) && targetOk o, 0x0E)]

/-- TOUCH_ZONE (R482). -/
def State.zoneCode (s : State) (r : CmdRec) : Nat :=
  match s.headRec r.obj with
  | none => 2
  | some h =>
    let kind := r.arg 0 / 256 % 256
    let x0 := r.arg 1 % 65536
    let y0 := r.arg 1 / 65536
    let x1 := r.arg 2 % 65536
    let y1 := r.arg 2 / 65536
    firstCode
      [(decide (r.arg 0 < 65536) && decide (r.arg 0 % 256 ≤ 63) && decide (kind ≤ 3), 2),
       (kind == 0 || (decide (x0 < x1) && decide (y0 < y1) && decide (x1 ≤ h.panelW) && decide (y1 ≤ h.panelH)), 2),
       ((kind != 1 && kind != 3) || r.arg 3 == 0, 2)]

/-- ENC_CTRL (R451, R452): a start is checked against the encoder as it will stand, with its enc term in the demand. -/
def State.encCode (s : State) (r : CmdRec) (least : Nat) : Nat :=
  let e := r.obj
  let p := s.atCommit r least
  let target := if r.arg 1 = 0 then p.fld (Reg.ENC_RC e) 19 0 else r.arg 1
  let start := r.arg 0 == 1
  let code := p.encStartCode e target 2 9
  let extra := Frac.add (p.extraDemand p.records) (if p.encState e = 0 then p.encDemand p.records e else (0, 1))
  let d := (demand p.records extra).ceil
  firstCode
    [(decide (e ≤ 3) && decide (r.arg 0 ≤ 2) && decide (r.arg 1 < 2 ^ 20), 2), (!start || code == 0, code),
     (!start || decide (d ≤ dramLimit p.records), 0x18)]

/-- The checks of R138 that hold for every opcode: known opcode, X access, unused fields, CLOCK. -/
def State.formCode (s : State) (x : Bool) (r : CmdRec) : Nat :=
  let run := fun k => (s.fclkOf k).on
  firstCode
    [(decide (r.op ≤ 0x10), 1), (!xOp r.op || x, 3),
     (decide (r.flags < 2) && (List.range 6).all (fun i => decide (i < usedArgs r.op) || r.arg i == 0)
       && (!zeroObject r.op || r.obj == 0), 2),
     (r.clock == 0xFF || (decide (r.clock ≤ 7) && commitOp r.op), 2),
     (!commitOp r.op || (run (s.cmdClock r) && (r.clock == 0xFF || run r.clock)), 8)]

/-- The checks of an opcode's own arguments and object. -/
def State.ownCode (s : State) (x : Bool) (q : Nat) (r : CmdRec) (least : Nat) : Nat :=
  match r.op with
  | 0 | 0x10 => 0
  | 1 | 2 | 3 | 4 => s.layerCode x r least
  | 5 => s.freezeCode r least
  | 6 =>
    firstCode [((s.stream r.obj).on && (s.stream r.obj).kind == 3 && decide (r.arg 1 < 65536), 2),
      (s.flipCode q r.obj == 0, s.flipCode q r.obj)]
  | 7 => s.dmaCode r
  | 8 => firstCode [(decide (r.obj ≤ 63) && decide (r.arg 2 ≤ 1), 2)]
  | 9 => firstCode [(decide (r.obj ≤ 63), 2)]
  | 0x0A => firstCode [(decide (r.arg 0 ≤ 7) && inR (r.arg 1) 1 255, 2), ((s.fclkOf (r.arg 0)).on, 8)]
  | 0x0B => firstCode [(targetOk (r.arg 0), 0x0E)]
  | 0x0C => tableCode r
  | 0x0D => s.zoneCode r
  | 0x0E => firstCode [((s.ctxBody r.obj).isSome && decide (r.arg 0 ≤ 2), 2)]
  | _ => s.encCode r least

/-- The code of the check of record `r` of queue `q` with X access `x` (R138 to R141), 0 where it is accepted; `least`:
FCLK0 count of the earliest commit point (R536). -/
def State.checkCmd (s : State) (x : Bool) (q : Nat) (r : CmdRec) (least : Nat) : Nat :=
  firstCode [(s.formCode x r == 0, s.formCode x r), (s.ownCode x q r least == 0, s.ownCode x q r least)]

end Sys2Proof.Machine
end

