-- ==== Sys2Proof/Machine/Queue.lean ====
section
/-!
DEFINITION. Machine/Queue.lean: the commands of the queues (R132 to R141, R146 to R150, R536). What an accepted command
does is one function of the queue it belongs to: 0 to 15 a host queue, 16 + q the twin-mirror queue with a command of
host queue q, 32 the supervisor queue.
-/
namespace Sys2Proof.Machine

/-! ### Effects -/

/-- Where the change of a command comes from. -/
def originOf (q index : Nat) (r : CmdRec) : Origin :=
  if q < 16 then .queue q index r.op r.tag r.obj (r.flags.testBit 0) else .internal q r.op

/-- The number of the next accepted command is used. -/
def State.nextCmd (s : State) : State := { s with cmd := { s.cmd with nextSeq := s.cmd.nextSeq + 1 } }

/-- Hold a command's change until its commit point (R144 to R146). -/
def State.holdCmd (s : State) (q index : Nat) (r : CmdRec) (least : Nat) : State :=
  let h := s.heldFor r (originOf q index r) s.ridden least
  State.nextCmd { s with cmd := { s.cmd with held := s.cmd.held ++ [h] } }

/-- The earlier accepted commands of queue `q` that have not taken effect, by number (R148). -/
def State.outstanding (s : State) (q : Nat) : List Nat :=
  let mine := fun (o : Origin) => match o with
    | .queue k _ _ _ _ _ => k == q
    | .internal k _ => k == q
    | .direct => false
  ((s.cmd.held.filter fun h => mine h.origin).map (·.seq)).eraseDups
    ++ (s.cmd.dmas.filter fun d => d.queue == q).map (·.seq) ++ (s.cmd.decs.filter fun d => d.queue == q).map (·.seq)
    ++ (s.cmd.fences.filter fun f => f.queue == q).map (·.seq)

/-- FENCE_SIGNAL (R147, R148): at once in ACCEPT mode or with nothing outstanding, else once the last has taken
effect. -/
def State.fenceSignal (s : State) (q index : Nat) (r : CmdRec) : State :=
  let after := s.outstanding q
  if r.arg 2 = 0 ∨ after.isEmpty then (s.signalFence r.obj r.value).cmdEvent q index 0 0 false r
  else
    let p : FencePend := { seq := s.cmd.nextSeq, queue := q, index := index, cmd := r, fence := r.obj, value := r.value,
                           after := after, epoch := s.ridden }
    State.nextCmd { s with cmd := { s.cmd with fences := s.cmd.fences ++ [p] } }

/-- The frame a HOST stream's first DMA starts (R140, R22). -/
def StreamSt.hostFrame (x : StreamSt) : Incoming :=
  { alive := 0, cap := 0, ptp := false, epoch := 0, w := x.width, h := x.height, fmt := x.format }

/-- DMA (R140): a transfer starts; the first one after a FLIP takes the buffer of the frame, or the frame is dropped.
The MPU window counts as it stands now (BMX.MPU_BASE), for the source lines it reads and for the tile groups it stores
(R104: DEDUCED, assumption 72). -/
def State.dmaStart (s : State) (q index : Nat) (r : CmdRec) : State :=
  let i := r.obj
  let s1 := if (s.stream i).dmaStarted then s
    else
      let t := s.startFrame i (s.stream i).hostFrame
      let x := t.stream i
      let dropped := match x.cur with
        | some f => f.dropped
        | none => false
      t.setStream i { x with dmaStarted := true, dmaDropped := dropped }
  let x := s1.stream i
  let count := r.arg 3 / 65536
  let reads := ((List.range count).map r.dmaLine).find? fun a => !s.dmaWindowOk (r.arg 4 % 16) false a x.lineBytes
  let writes := ((x.storeRanges (r.arg 3 % 65536) count).find? fun e => !s.dmaWindowOk (r.arg 4 % 16) true e.1 e.2).map (·.1)
  let d : Dma :=
    { seq := s.cmd.nextSeq, queue := q, index := index, tag := r.tag, event := r.flags.testBit 0, stream := i,
      src := r.dmaLine 0, pitch := r.arg 2, first := r.arg 3 % 65536, count := count, window := r.arg 4 % 16,
      qos := r.arg 4 / 16 % 16, engine := r.arg 4 / 256 % 2, dropped := x.dmaDropped
      stray := reads.or writes, strayWrite := reads.isNone && writes.isSome }
  State.nextCmd { s1 with cmd := { s1.cmd with dmas := s1.cmd.dmas ++ [d] } }

/-- The writer of stream `i` begins anew: the next DMA is a frame start (R140). -/
def State.hostRestart (s : State) (i : Nat) : State :=
  s.setStream i { s.stream i with dmaStarted := false, dmaDropped := false, dmaDone := false }

/-- FLIP of a stream that has a frame (R140): it is offered with the TS32 of A0, 0 for now, and the counter of A1. -/
def State.hostFlip (s : State) (r : CmdRec) : State :=
  let i := r.obj
  match (s.stream i).cur with
  | some f =>
    (s.offerFrame i { alive := r.arg 1 % 65536, cap := if r.arg 0 = 0 then s.ts else w32 (r.arg 0), ptp := false,
                      epoch := s.fld Reg.TIM_EPOCH 7 0, img := f.img }).hostRestart i
  | none => s.hostRestart i

/-- What a refused FLIP ends (R140): the failed or dropped frame is over, the next DMA is a frame start. -/
def State.flipRefused (s : State) (q i code : Nat) : State :=
  if code = 0x0B then (s.setQueue q { s.queue q with dmaFailed := (s.queue q).dmaFailed.filter (· != i) }).hostRestart i
  else if code = 0x0F then (s.discardFrame i).hostRestart i
  else s

/-- A FLIP as a standby's mirror queue executes it (R140, R493): after its own earlier DMAs, on its own frame; what
would refuse it there goes to the MRAM history. -/
def State.mirrorFlip (s : State) (q : Nat) (r : CmdRec) : State :=
  let code := s.flipCode q r.obj
  if s.dmaBusy q r.obj then { s with cmd := { s.cmd with flips := s.cmd.flips ++ [(q, r)] } }
  else if code = 0 then s.hostFlip r
  else (s.flipRefused q r.obj code).history 0x0B code []

/-- REG_WRITE and TABLE_WRITE (R138, R139): every word is written with X access; its shadowed bits wait for their commit
points under the command's number, and with none it has taken effect. A standby that applies a mirrored command
(`q` 16 and up) leaves its own local state alone (R302, R494). -/
def State.cmdWrites (s : State) (q index : Nat) (r : CmdRec) (l : List (Nat × Word × Word)) : State :=
  let seq := s.cmd.nextSeq
  let sh : ShadowWrite := fun t off mask v =>
    { t with cmd := { t.cmd with held := t.cmd.held ++
        [{ seq := seq, origin := originOf q index r, clock := t.shadowClock off, defer := none,
           object := shadowObject off, epoch := s.ridden, change := .words [(off, mask, v)] }] } }
  let mine := if q < 16 then l else
    (l.map fun e => (e.1, e.2.1 &&& mirroredMask e.1, e.2.2)).filter fun e => e.2.1 != 0
  let all := fun (t : State) => mine.foldl (fun (t : State) (e : Nat × Word × Word) => t.write 2 true sh e.1 e.2.1 e.2.2) t
  let s1 := if q < 16 then all s else s.onMirrorChan all
  let s2 : State := { s1 with cmd := { s1.cmd with nextSeq := seq + 1 } }
  if s2.cmd.held.any fun h => h.seq == seq then s2 else s2.cmdEvent q index 0 0 false r

/-- The words of a TABLE_WRITE. -/
def CmdRec.tableWords (r : CmdRec) : List (Nat × Word × Word) :=
  (List.range (r.arg 5)).map fun j => (r.arg 0 + 4 * j, BitVec.allOnes 32, w32 (r.arg (1 + j)))

/-- DEC_CTRL (R226): at the context's next picture boundary. -/
def State.decCmd (s : State) (q index : Nat) (r : CmdRec) : State :=
  if s.ctxBusy r.obj then
    let t := s.decCtrl r.obj (r.arg 0)
    let p : DecPend := { seq := t.cmd.nextSeq, queue := q, index := index, cmd := r }
    State.nextCmd { t with cmd := { t.cmd with decs := t.cmd.decs ++ [p] } }
  else (s.decCtrl r.obj (r.arg 0)).cmdEvent q index 0 0 false r

/-- A host queue waits (R149, R150). -/
def State.qWaitFor (s : State) (q index : Nat) (w : QWait) : State :=
  (s.setQueue q { s.queue q with wait := w, waitIndex := index }).setQState q 2

/-- FENCE_WAIT (R149): a satisfied wait is over at once. -/
def State.fenceWait (s : State) (q index : Nat) (r : CmdRec) : State :=
  if r.value.toNat ≤ (s.fence r.obj).toNat then s.cmdEvent q index 0 0 false r
  else
    s.qWaitFor q index (.fence r.obj r.value (if r.arg 2 = 0 then none else some (s.uptime + r.arg 2 * cyclesPerMs)) r)

/-- MARK (R138, R155): its record, and a DONE record with EVENT. -/
def State.markCmd (s : State) (q index : Nat) (r : CmdRec) : State :=
  if q < 16 then
    (s.evWrite q { evRecord 4 0 r.tag r.op r.obj 0xFF index s.ts with data0 := r.value.toNat }).cmdEvent q index 0 0 false r
  else s

/-- The effect of an accepted command (R138): nothing of it is checked again (R509). -/
def State.cmdEffect (s : State) (q index : Nat) (r : CmdRec) (least : Nat) : State :=
  match r.op with
  | 0 => s.cmdEvent q index 0 0 false r
  | 6 => if q < 16 then (s.hostFlip r).cmdEvent q index 0 0 false r else s.mirrorFlip q r
  | 7 => s.dmaStart q index r
  | 8 => s.fenceSignal q index r
  | 9 => if q < 16 then s.fenceWait q index r else s
  | 0x0A => if q < 16 then s.qWaitFor q index (.commits (r.arg 0) (r.arg 1) r) else s
  | 0x0B => s.cmdWrites q index r [(r.arg 0, w32 (r.arg 2), w32 (r.arg 1))]
  | 0x0C => s.cmdWrites q index r r.tableWords
  | 0x0E => s.decCmd q index r
  | 0x10 => s.markCmd q index r
  | _ => s.holdCmd q index r least

/-! ### Fetching, accepting, refusing -/

/-- HEAD of queue `q` goes past the record. -/
def State.qAdvance (s : State) (q : Nat) : State := s.setFld (Reg.CMD_Q_STATUS q) 15 0 (s.qHead q + 1)

/-- A command is refused (R141, R155, R13): a REFUSED record and CMD_REFUSED; nothing changes but what a refused FLIP
ends. -/
def State.qRefuse (s : State) (q index code : Nat) (r : CmdRec) : State :=
  let s1 := if code = 3 then s.refuseX 2 true r.op else s
  let s2 := if r.op = 6 then s1.flipRefused q r.obj code else s1
  ((s2.qAdvance q).cmdEvent q index 1 code true r).raise .cmdRefused

/-- The offsets that a REG_WRITE or TABLE_WRITE writes. -/
def CmdRec.writeOffs (r : CmdRec) : List Nat :=
  if r.op = 0x0B then [r.arg 0] else if r.op = 0x0C then r.tableWords.map (·.1) else []

/-- A command is accepted (R134, R146, R494): an active mirrors it; HEAD passes it. -/
def State.qAccept (s : State) (q index : Nat) (r : CmdRec) : State :=
  let t := (r.writeOffs.filter chkWindow).take 1 |>.foldl State.mirrorChan s
  ((t.mirror (.command q r)).qAdvance q).cmdEffect q index r 0

/-- The check of a local command ends (R134): refused, accepted, or, where it would be the 1,025th held command, left
where it stands with its queue WAITING (R135). -/
def State.qCheck (s : State) (q index : Nat) (r : CmdRec) : State :=
  let code := s.checkCmd s.xOpen q r 0
  if code ≠ 0 then s.qRefuse q index code r
  else
    let t := s.qAccept q index r
    if 1024 < t.heldCommands then s.setQState q 2 else t

/-- The answer to a forwarded command goes to the device that its TAG names (R536, assumption 38). -/
def State.answerCmd (s : State) (tag code : Nat) : State := s.sendRing 7 (tag % 8) (tag / 8 % 2) tag (leBytes 1 code)

/-- A forwarded command is checked here, where its slot is held (R536, R138 to R141): refused, accepted for FCLK0 count
a + 2, or kept until there is room where it would be the 1,025th held command (R135). `a` is this device's count, which
R529 keeps equal to the submitting device's (DEDUCED, assumption 76). -/
def State.forwardCheck (s : State) (tag : Nat) (r : CmdRec) : State :=
  let a := s.twin.fclk0 + 2
  let code := s.checkCmd s.xOpen 32 r a
  if code ≠ 0 then s.answerCmd tag code
  else
    let t := (s.mirror (.command 16 r)).cmdEffect 32 0 r a
    if 1024 < t.heldCommands then { s with cas := { s.cas with forwarded := s.cas.forwarded ++ [(tag, r)] } }
    else t.answerCmd tag 0

/-- Forwarded commands that waited for room are checked again, in the order they came (R135). -/
def State.forwardsGo (s : State) : State :=
  s.cas.forwarded.foldl (fun t e => t.forwardCheck e.1 e.2) { s with cas := { s.cas with forwarded := [] } }

/-- A forwarded command has been accepted by the member that holds its slot (R536): it takes effect there, and counts here
as taking effect at the first FCLK0 commit point at count a + 2 or later (R148, R155; DEDUCED, assumption 76). -/
def State.holdRemote (s : State) (q index : Nat) (r : CmdRec) : State :=
  let h : Held := { seq := s.cmd.nextSeq, origin := originOf q index r, clock := 0, defer := r.defer, object := (0, 0),
                    epoch := none, least := s.twin.fclk0 + 2, change := .remote }
  State.nextCmd { s with cmd := { s.cmd with held := s.cmd.held ++ [h] } }

/-- A layer command on an external input mapped to a slot that another member of the ring holds (R535, R536). -/
def State.remoteSlot (s : State) (r : CmdRec) : Bool :=
  match s.cmdInput r with
  | some e => remoteNode e.1
  | none => false

/-- The command goes to the member that holds its slot as CMD_FWD, OBJECT rewritten to the mapped layer; the queue waits
for the answer (R536). -/
def State.forward (s : State) (q index : Nat) (r : CmdRec) : State :=
  let e := (s.cmdInput r).getD (0, 0)
  let t := s.sendRing 6 (bitsN e.1 14 12) 2 s.ringTag { r with obj := e.1 % 256 * 16 + e.2 }.bytes
  (t.nextTag.qAdvance q).qWaitFor q index (.forward s.ringTag r)

/-- What a queue fetches next (R132, R133, R137, R294). -/
inductive Fetched where
  /-- nothing: the queue does not run, or holds no record -/
  | none
  /-- poison -/
  | poison
  /-- a record whose SEQ does not match its index -/
  | stale (r : CmdRec)
  | record (r : CmdRec)
  deriving DecidableEq, Repr

/-- The fetch of queue `q`. -/
def State.qFetch (s : State) (q : Nat) : Fetched :=
  let head := s.qHead q
  if q < 16 ∧ s.ready ∧ s.qState q = 1 ∧ head ≠ s.qTail q then
    match s.dramFetch (ringSlot (s.reg (Reg.CMD_Q_RING q)) head) 32 with
    | some b => let r := CmdRec.ofBytes b
                if r.seq = head % 256 then .record r else .stale r
    | none => .poison
  else .none

/-- The state once queue `q` has read its next record: a read of DRAM (R287, R294). -/
def State.qRead (s : State) (q : Nat) : State := (s.portRead 6 (ringSlot (s.reg (Reg.CMD_Q_RING q)) (s.qHead q)) 32).1

/-- A row of the command table: queue `q` fetches its next record and, where it is one of the row's, executes it. A
fetch that fails halts the queue with RING_SEQ whatever the row. -/
def State.queueRow (s : State) (q : Nat) (mine : CmdRec → Bool) (go : State → Nat → CmdRec → State) : Res :=
  match s.qFetch q with
  | .none => .next s
  | .poison => .next ((s.qRead q).qHalt q 0x0D none 0)
  | .stale r => .next ((s.qRead q).qHalt q 0x0D (some r) (s.qHead q))
  | .record r => if mine r then .next (go (s.qRead q) (s.qHead q) r) else .next s

/-- A row whose record has opcode `op` and passes a further test. -/
def State.opRow (s : State) (q op : Nat) (mine : CmdRec → Bool) : Res :=
  s.queueRow q (fun r => r.op == op && mine r) fun t i r => t.qCheck q i r

/-- A row of a layer opcode: it may go to another member (R536). -/
def State.layerRow (s : State) (q op : Nat) : Res :=
  s.queueRow q (fun r => r.op == op) fun t i r =>
    if t.remoteSlot r then
      let code := t.formCode t.xOpen r
      if code = 0 then t.forward q i r else t.qRefuse q i code r
    else t.qCheck q i r

/-- NOP (R138). -/
def execCmdNop (q : Nat) (s : State) : Res := s.opRow q 0 fun _ => true

/-- SET_SOURCE (R139). -/
def execSetSource (q : Nat) (s : State) : Res := s.layerRow q 1

/-- SET_GEOMETRY (R138). -/
def execSetGeometry (q : Nat) (s : State) : Res := s.layerRow q 2

/-- SET_BLEND (R138). -/
def execSetBlend (q : Nat) (s : State) : Res := s.layerRow q 3

/-- SET_GUARD (R43). -/
def execSetGuard (q : Nat) (s : State) : Res := s.layerRow q 4

/-- SET_FREEZE (R431). -/
def execSetFreeze (q : Nat) (s : State) : Res := s.opRow q 5 fun _ => true

/-- FLIP (R140): it executes once every earlier DMA of the queue to the stream has completed. -/
def execFlip (q : Nat) (s : State) : Res := s.opRow q 6 fun r => !s.dmaBusy q r.obj

/-- DMA (R140). -/
def execDma (q : Nat) (s : State) : Res := s.opRow q 7 fun _ => true

/-- FENCE_SIGNAL in ACCEPT mode (R148). -/
def execFenceSignalAccept (q : Nat) (s : State) : Res := s.opRow q 8 fun r => r.arg 2 % 2 == 0

/-- FENCE_SIGNAL in COMMIT mode (R148). -/
def execFenceSignalCommit (q : Nat) (s : State) : Res := s.opRow q 8 fun r => r.arg 2 % 2 == 1

/-- FENCE_WAIT (R149). -/
def execFenceWait (q : Nat) (s : State) : Res := s.opRow q 9 fun _ => true

/-- WAIT_COMMIT (R150). -/
def execWaitCommit (q : Nat) (s : State) : Res := s.opRow q 0x0A fun _ => true

/-- REG_WRITE (R139). -/
def execCmdRegWrite (q : Nat) (s : State) : Res := s.opRow q 0x0B fun _ => true

/-- TABLE_WRITE (R139). -/
def execTableWrite (q : Nat) (s : State) : Res := s.opRow q 0x0C fun _ => true

/-- TOUCH_ZONE (R482). -/
def execTouchZone (q : Nat) (s : State) : Res := s.opRow q 0x0D fun _ => true

/-- DEC_CTRL stop (R226). -/
def execDecCtrlStop (q : Nat) (s : State) : Res := s.opRow q 0x0E fun r => r.arg 0 == 0

/-- DEC_CTRL start (R226). -/
def execDecCtrlStart (q : Nat) (s : State) : Res := s.opRow q 0x0E fun r => r.arg 0 == 1

/-- DEC_CTRL discard (R226); a record whose A0 names no action is refused here. -/
def execDecCtrlDiscard (q : Nat) (s : State) : Res := s.opRow q 0x0E fun r => decide (2 ≤ r.arg 0)

/-- ENC_CTRL stop (R454). -/
def execEncCtrlStop (q : Nat) (s : State) : Res := s.opRow q 0x0F fun r => r.arg 0 == 0

/-- ENC_CTRL start (R451). -/
def execEncCtrlStart (q : Nat) (s : State) : Res := s.opRow q 0x0F fun r => r.arg 0 == 1

/-- ENC_CTRL IRAP (R454); a record whose A0 names no action is refused here. -/
def execEncCtrlIrap (q : Nat) (s : State) : Res := s.opRow q 0x0F fun r => decide (2 ≤ r.arg 0)

/-- MARK (R138). -/
def execMark (q : Nat) (s : State) : Res := s.opRow q 0x10 fun _ => true

/-- A record with an opcode outside R138 (R141). -/
def execCmdBadOp (q : Nat) (s : State) : Res :=
  s.queueRow q (fun r => decide (0x10 < r.op)) fun t i r => t.qCheck q i r

/-! ### What ends later -/

/-- The record of a DMA, for its events. -/
def Dma.cmd (d : Dma) : CmdRec :=
  { op := 7, flags := if d.event then 1 else 0, tag := d.tag, obj := d.stream, clock := 0xFF, seq := 0, a := [] }

/-- One raw line into an image: the components in the order of R196, A, R, G, B for ARGB, the index for INDEX8. How a
4:2:0 line lies in memory the spec does not say, so its samples stay open (assumption 36). -/
def Img.rawLine (i : Img) (y : Nat) (b : List Byte) : Img :=
  if i.fmt = 0x09 ∨ i.fmt = 0x0A then i
  else if i.fmt = 0x0B then
    (List.range i.w).foldl (fun (t : Img) x =>
      (List.range 4).foldl (fun (u : Img) p => u.set p x y (leAt b (4 * x + p) 1)) t) i
  else if i.fmt = 0x0C then i.setRun 0 0 y (unpackBits 8 i.w b)
  else i.unwire 0 y (unpackBits (Fmt.depth i.fmt) (Fmt.wireCount i.fmt i.w) b)

/-- The lines of a DMA reach the buffer (R140): a line that reads as poison delivers open bytes. -/
def State.dmaLines (s : State) (d : Dma) : State :=
  (List.range d.count).foldl (fun t k =>
    let x := t.stream d.stream
    match x.cur with
    | some f =>
      let u := t.takeBytes (d.src + k * d.pitch) x.lineBytes
      let g := { f with img := f.img.rawLine (d.first + k) u.2, segs := (d.first + k, 0, f.w) :: f.segs }
      (u.1.setStream d.stream { u.1.stream d.stream with cur := some g }).storeLine d.stream (d.first + k) g.img
    | none => t) s

/-- A DMA completes (R140): its code, and the state after it. -/
def State.dmaEnd (s : State) (d : Dma) : Nat × State :=
  let i := d.stream
  if d.dropped then (0x0F, s)
  else match d.stray with
    | some a =>
      let t := (s.busError 3 (2 + d.engine) d.qos d.strayWrite true a d.window).discardFrame i
      (0x0A, t.setQueue d.queue { t.queue d.queue with dmaFailed := (t.queue d.queue).dmaFailed.filter (· != i) ++ [i] })
    | none =>
      let t := s.dmaLines d
      (0, t.setStream i { t.stream i with dmaDone := true })

/-- FLIPs of a standby's mirror queue that waited for the last DMA to a stream (R140). -/
def State.flipsAfter (s : State) (q i : Nat) : State :=
  if s.dmaBusy q i then s
  else
    let ripe := s.cmd.flips.filter fun e => e.1 == q && e.2.obj == i
    let s1 : State := { s with cmd := { s.cmd with flips := s.cmd.flips.filter fun e => !(e.1 == q && e.2.obj == i) } }
    ripe.foldl (fun t e => t.mirrorFlip e.1 e.2) s1

/-- DMA_COMPLETE (R140): the `n`-th DMA in progress completes with OK, NO_BUFFER, whose DONE record is always written,
or MPU; vector 56 is sent. -/
def execDmaComplete (n : Nat) (s : State) : Res :=
  match s.cmd.dmas[n]? with
  | none => .next s
  | some d =>
    let s1 : State := { s with cmd := { s.cmd with dmas := s.cmd.dmas.eraseIdx n } }
    let e := s1.dmaEnd d
    let s2 := (e.2.cmdEvent d.queue d.index 0 e.1 (e.1 == 0x0F) d.cmd).sendVector 56
    .next ((s2.effectDone d.seq).flipsAfter d.queue d.stream)

/-- FENCE_WAIT_SATISFIED (R149): the fence that queue `q` waits for has reached its value. -/
def execFenceWaitSatisfied (q : Nat) (s : State) : Res :=
  match (s.queue q).wait with
  | .fence f v _ r =>
    if q < 16 ∧ v.toNat ≤ (s.fence f).toNat then .next ((s.qResume q).cmdEvent q (s.queue q).waitIndex 0 0 false r)
    else .next s
  | _ => .next s

/-- WAIT_TIMEOUT (R149): the FENCE_WAIT of queue `q` has timed out: the queue halts with its record. -/
def execWaitTimeout (q : Nat) (s : State) : Res :=
  match (s.queue q).wait with
  | .fence f v (some _) r =>
    if q < 16 ∧ (s.fence f).toNat < v.toNat then .next (s.qHalt q 0x0C (some r) (s.queue q).waitIndex) else .next s
  | _ => .next s

/-- WAIT_COMMIT_DONE (R150): the commit points that queue `q` waits for have passed. -/
def execWaitCommitDone (q : Nat) (s : State) : Res :=
  match (s.queue q).wait with
  | .commits _ 0 r =>
    if q < 16 then .next ((s.qResume q).cmdEvent q (s.queue q).waitIndex 0 0 false r) else .next s
  | _ => .next s

end Sys2Proof.Machine
end

