-- ==== Sys2Proof/Machine/TwinApply.lean ====
section
/-!
DEFINITION. Machine/TwinApply.lean: mirrored items as a standby applies them (R494, R509), the snapshot of a resync
(R515), the exchange of roles (R514), and the commit of epochs at an FCLK0 commit point (R146, R508, R509).
-/
namespace Sys2Proof.Machine

/-! ### Items (R505, R509) -/

/-- CMD.FCLK_COUNT of the eight clocks. -/
def State.fclkCounts (s : State) : List Nat := fclks.map fun k => s.fld (Reg.CMD_FCLK_COUNT k) 31 0

/-- A command record as the standby executes it: a deferring clock that has had a commit point since the command arrived
defers no longer (R138). -/
def State.pastDefer (s : State) (counts : List Nat) (r : CmdRec) : CmdRec :=
  if r.clock ≤ 7 ∧ counts.getD r.clock 0 ≠ s.fld (Reg.CMD_FCLK_COUNT r.clock) 31 0 then { r with clock := 0xFF } else r

/-- FCLK0 count at which an item arrived. -/
def State.countAt (s : State) (counts : List Nat) : Nat :=
  s.twin.fclk0 - (s.fld (Reg.CMD_FCLK_COUNT 0) 31 0 + 2 ^ 32 - counts.getD 0 0) % 2 ^ 32

/-- A mirrored write (R494, R98): it has the active's acceptance, and is an X write where it reaches X bits; shadowed
bits wait for their own commit points. -/
def State.mirrorWrite (s : State) (off : Nat) (m v : Word) : State :=
  let x := (Reg.find off).isNone || decide (m &&& Reg.xBits off ≠ 0)
  let go := fun (t : State) => t.write 0 x (fun u o k a => u.stage o k a) off m v
  if off = Reg.CHK_SEL then { s with twin := { s.twin with mirrorSel := v.toNat % 64 } }
  else if !mapped off then s
  else if chkWindow off then s.onMirrorChan go
  else go s

/-- An image that this device has checked takes effect as an accepted one (R510). -/
def State.applyImage (s : State) (gen : Nat) (delta : Bool) : State :=
  match s.twin.checked.find? fun e => e.1 == gen with
  | some (_, b) =>
    let s1 : State := { s with twin := { s.twin with checked := s.twin.checked.filter fun e => e.1 != gen } }
    if delta then { s1 with ld := { s1.ld with deltas := s1.ld.deltas ++ [deltaOfImage b none] } }
    else { s1 with ld := { s1.ld with next := some (planOfImage b .accepted none) } }
  | none => s

/-- One item takes effect on the standby. A command of queue number 16 was forwarded by another member (R536): its
commit point is that of FCLK0 count a + 2, a counted as the item arrived. -/
def State.applyItem (s : State) (x : RxItem) : State :=
  match x.item with
  | .command q r => s.cmdEffect (16 + q) 0 (s.pastDefer x.counts r) (if q = 16 then s.countAt x.counts + 2 else 0)
  | .write off m v => s.mirrorWrite off m v
  | .image g d => s.applyImage g d
  | .handover => s

/-- Fences rise to at least the trailer's values (R509). -/
def State.raiseFences (s : State) (t : Trailer) : State :=
  (List.range 64).foldl (fun u f => u.signalFence f (t.fences.getD f 0)) s

/-! ### Exchange of roles (R514) -/

/-- What the peer sent before the exchange tells nothing of its role after it: its MAYPOLE pattern counts again once two
further periods agree, and a beat by its T_SEND (DESIGN CHOICE, assumption 40). -/
def State.newRoles (s : State) : State :=
  let s1 := if s.maypole = 0 then s else s.setFld Reg.TWN_PATHS 29 28 3
  { s1 with twin := { s1.twin with mpLast := .undefined, since := some s.ts } }

/-- The active becomes the standby of its QUALIFIED peer. -/
def State.handOut (s : State) : State :=
  (((s.becomeStandby.dropEpochs).setSync 0).history 0x05 0 []).newRoles.twinLinkAlarm

/-- The standby becomes the active beside its QUALIFIED peer. -/
def State.handIn (s : State) : State := ((s.becomeActive.setSync 0).history 0x05 0 []).newRoles.twinLinkAlarm

/-! ### The snapshot (R515) -/

/-- The bits of a mirrored word that a snapshot carries: what writes leave standing in it. -/
def snapMask (off : Nat) : Word :=
  match Reg.find off with
  | some d => d.rw ||| d.sh
  | none => if tableMapped off && !romMapped off then tableMask off else 0

/-- A mirrored word of the registers and tables whose value stands in `State.regs`. -/
def snapWord (off : Nat) : Bool :=
  mirroredOff off && decide (snapMask off ≠ 0) && decide (off ≠ Reg.STM_PROG_DATA) && !(decide (0x20_0000 ≤ off) && decide (off < 0x24_0000))

/-- Every mirrored word whose value stands in `State.regs`. -/
def snapOffs : List Nat := ((List.range 0x10_0000).map fun k => 4 * k).filter snapWord

/-- The program words of machine `m` (R130): its PROG_SEL, PROG_ADDR and PROG_DATA writes. -/
def State.snapProg (s : State) (m : Nat) : List Item :=
  (List.range 512).flatMap fun a =>
    [.write Reg.STM_PROG_SEL 0x7F (w32 m), .write Reg.STM_PROG_ADDR 0x1FF (w32 a),
     .write Reg.STM_PROG_DATA (BitVec.allOnes 32) (Cells.get (fun _ => (0 : Word)) (s.machine m).prog a)]

/-- The X fields of check channel `c` (R494). -/
def State.snapChan (s : State) (c : Nat) : List Item :=
  let x := s.chan c
  let full : Word := BitVec.allOnes 32
  let pair := fun (lo : Nat) (v : DWord) => [Item.write lo full (w32 v.toNat), Item.write (lo + 4) full (w32 (v.toNat / 2 ^ 32))]
  [.write Reg.CHK_SEL full (w32 c), .write Reg.CHK_PARAM full x.param] ++ pair Reg.CHK_POLY_LO x.poly
    ++ pair Reg.CHK_INIT_LO x.init

/-- A command record with an opcode, object and arguments, for a snapshot. -/
def snapCmd (op obj : Nat) (a : List Nat) : Item :=
  .command 0 { op := op, flags := 0, tag := 0, obj := obj, clock := 0xFF, seq := 0, a := (a ++ List.replicate 6 0).take 6 }

/-- TOUCH_ZONE as an item. -/
def zoneItem (h z kind x0 y0 x1 y1 hold : Nat) : Item :=
  snapCmd 0x0D h [z + kind * 256, x0 + y0 * 65536, x1 + y1 * 65536, hold]

/-- The zones in force of head `h`. -/
def State.snapZones (s : State) (h : Nat) : List Item :=
  ((List.range 64).filter fun z => ((s.head h).zone z).kind != 0).map fun z =>
    let v := (s.head h).zone z
    zoneItem h z v.kind v.x0 v.y0 v.x1 v.y1 v.hold

/-- Changes that are committed and still wait for their clocks. -/
def State.snapHeld (s : State) : List Item :=
  (s.cmd.held.filter fun h => s.epochDone h.epoch).flatMap fun h => match h.change with
    | .words l => l.map fun e => .write e.1 e.2.1 e.2.2
    | .zone hd z k x0 y0 x1 y1 hold => [zoneItem hd z k x0 y0 x1 y1 hold]
    | .encCtrl e act rate => [snapCmd 0x0F e [act, rate]]
    | .remote => []

/-- The snapshot of the mirrored state as it stands, every word of it (R515). The first WRITE of a word gives its value in force; a later
one is a change that still waits for its clock (DESIGN CHOICE, assumption 66). -/
def State.snapItems (s : State) : List Item :=
  let held := s.snapHeld
  (List.range 65).flatMap s.snapProg ++ (snapOffs.map fun o => Item.write o (snapMask o) (s.reg o))
    ++ (s.streamIds.map fun i => .write (streamBase i + 4) 0xFF01_0000 (s.streamWord (streamBase i + 4)))
    ++ ((List.range 24).map fun n => .write (Reg.OUT_STATUS n) 0xFFFF (w32 (s.output n).nextNo))
    ++ ((List.range 64).map fun c => .write (Reg.CHK_CTRL c) chkCtrlX (s.reg (Reg.CHK_CTRL c)))
    ++ (List.range 64).flatMap s.snapChan
    ++ s.headIds.flatMap s.snapZones
    ++ (encoders.map fun e => snapCmd 0x0F e [if s.encState e = 0 then 0 else 1, 0])
    ++ ((recIds s.ld.recs RT.DECODER_CONTEXT).map fun c => snapCmd 0x0E c [if (s.ctx c).st = 0 then 0 else 1]) ++ held

/-- Send the snapshot (R515): SNAPSHOT packets, and a SEAL whose INDEX counts them, whose EPOCH is the last one
committed, and whose trailer names the FCLK0 count k. -/
def State.sendSnapshot (s : State) : State :=
  let e := s.fld Reg.TWN_LAST_EPOCH 31 0
  let items := s.snapItems
  let t := s.trailer s.twin.fclk0 (items.flatMap Item.bytes)
  (s.sendItems 8 e 0 items).sendMirror 1 e (cdiv items.length itemsPerPacket) 1 t.bytes

/-- A ring pointer of touch or of an encoder: a standby writes no records, so WR goes with RD (assumption 80). -/
def ringPtr (off : Nat) : Bool :=
  (elemOf off (Reg.TCH_RING_PTR 0) 16 24).isSome || encoders.any fun e => Reg.ENC_RING_PTR e == off

/-- A word in force that the snapshot gives. -/
def State.restoreWord (s : State) (off : Nat) (m v : Word) : State :=
  let new := merge (s.reg off) m v
  if ringPtr off then s.setReg off (w32 (wbits new 15 0 * 65537))
  else match elemOf off (Reg.STM_CTRL 0) 4 65, elemOf off (Reg.OUT_STATUS 0) 0x20 24 with
  | some n, _ => (s.setReg off new).stmSetRun n (wbit new 31)
  | none, some n =>
    let late := (s.fld (Reg.CMD_FCLK_COUNT (s.outClock n)) 31 0 + 2 ^ 32 - s.twin.snapCounts.getD (s.outClock n) 0) % 2 ^ 32
    s.setOutput n { s.output n with nextNo := (wbits v 15 0 + late) % 65536 }
  | none, none =>
    if off = Reg.STM_PROG_DATA then
      let k := s.progMachine
      let a := s.fld Reg.STM_PROG_ADDR 8 0
      s.setMachine k { s.machine k with prog := Cells.put (fun _ => (0 : Word)) (s.machine k).prog a v }
    else if 0x20_0000 ≤ off ∧ off < 0x28_0000 then s.applyWord false off m v
    else if Reg.CHK_CTRL 0 ≤ off ∧ off < Reg.CHK_CTRL 64 then s.applyWord false off m v
    else s.setReg off new

/-- The words of a snapshot that are given once more although they are in force: those that address others. -/
def steering (off : Nat) : Bool :=
  [Reg.STM_PROG_SEL, Reg.STM_PROG_ADDR, Reg.STM_PROG_DATA].contains off || Reg.blockOf off == 22

/-- One item of a snapshot; `seen`: the words already given. -/
def State.restoreItem (a : State × List Nat) (i : Item) : State × List Nat :=
  match i with
  | .write off m v =>
    if Reg.blockOf off = 22 ∧ off < Reg.CHK_CTRL 0 then (a.1.write 0 true (fun u o k w => u.stage o k w) off m v, a.2)
    else if a.2.contains off && !steering off then (a.1.mirrorWrite off m v, a.2)
    else (a.1.restoreWord off m v, off :: a.2)
  | .command q r => (a.1.cmdEffect (16 + q) 0 r 0, a.2)
  | _ => a

/-- The FCLK0 count of the active at this commit point, as its beat gives it (R496, R497): the pending edge that the beat
names is the one after its count, and edges before or after that lie whole periods away. -/
def State.activeCount (s : State) : Option Nat :=
  match s.beat with
  | some b =>
    let edge := b.fclkNext.getD 0 0
    if b.role ≠ 1 ∨ edge = 0 then none
    else
      let p : Int := ((max 1 (s.periodNs 0) : Nat) : Int)
      let d := tsDiff (edge + BitVec.ofInt 32 s.peerOffset) (s.reg (Reg.CMD_FCLK_LAST 0))
      some (s.countOf (((b.fclk0 : Int) + 1 + (2 * d + p) / (2 * p)) % 2 ^ 32).toNat)
  | none => none

/-- The snapshot takes effect (R515): the mirrored state is that of the active as of its FCLK0 count k; the FCLK0 count
and FRAME_NO go on from there by the commit points since the trailer arrived. -/
def State.applySnapshot (s : State) (t : Trailer) : State :=
  let items := (sortBy (fun (a b : Nat × List Item) => decide (a.1 < b.1)) s.twin.snap).flatMap (·.2)
  let given := items.filterMap fun (i : Item) => match i with
    | .write off _ _ => some off
    | _ => none
  let late := (s.fld (Reg.CMD_FCLK_COUNT 0) 31 0 + 2 ^ 32 - s.twin.snapCounts.getD 0 0) % 2 ^ 32
  let sel := s.reg Reg.CHK_SEL
  let s0 : State := { s with cmd := { s.cmd with held := s.cmd.held.filter (·.change == .remote), flips := [], fences := [] } }
  let s1 := s0.headIds.foldl (fun u h => u.setHead h { u.head h with zones := [] }) s0
  let s2 := (items.foldl State.restoreItem (s1, [])).1
  let s3 := ((s2.setReg Reg.CHK_SEL sel).afterWords given).raiseFences t
  let s4 := s3.setReg Reg.TWN_LAST_EPOCH (w32 s3.twin.snapEpoch)
  { s4 with twin := { s4.twin with fclk0 := s4.activeCount.getD ((t.target + late) % 2 ^ 32), applied := some t, snap := [], snapTrailer := none,
                                      fetched := [], snapCard := false, qual := [],
                                      rxSealed := s4.twin.rxSealed.filter fun x => decide (s4.twin.snapEpoch < x.num) } }

/-! ### Epochs at an FCLK0 commit point (R146, R508, R509) -/

/-- The active's sealed epoch commits at its target (R508); a handover that rides it exchanges the roles, unless the
epoch commits alone (R514). -/
def State.commitSealed (s : State) : State :=
  match s.twin.sealed with
  | some e =>
    if s.active && e.decided && decide (e.target ≤ s.twin.fclk0) then
      let s1 := (s.setReg Reg.TWN_LAST_EPOCH (w32 e.num)).setFld Reg.TWN_SLIPS 15 8 0
      let s2 : State := { s1 with twin := { s1.twin with sealed := none, applied := some e.trailer } }
      if s.twin.handover = some e.num then
        if e.alone then { s2 with twin := { s2.twin with handover := none } } else s2.handOut
      else s2
    else s
  | none => s

/-- The items of an epoch take effect in order. The epoch is committed, so their changes ride no other: those held now
wait for their own commit points alone (R146, R520). -/
def State.applyItems (s : State) (l : List RxItem) : State :=
  let t := l.foldl State.applyItem s
  { t with cmd := { t.cmd with held := t.cmd.held.map fun h => if s.cmd.nextSeq ≤ h.seq then { h with epoch := none } else h } }

/-- A committed epoch is applied on the standby (R509): its items in order, its fences; the device adopts the active's
FCLK0 count (R496). On a device that has taken over meanwhile the host queues move to its trailer's positions (R520). -/
def State.applyEpoch (s : State) (e : RxEpoch) : State :=
  let s1 := s.applyItems e.items
  let s2 := (s1.raiseFences e.trailer).setReg Reg.TWN_LAST_EPOCH (w32 e.num)
  let s3 : State := { s2 with twin := { s2.twin with applied := some e.trailer, fclk0 := s2.activeCount.getD s2.twin.fclk0,
                                                     rxSealed := s2.twin.rxSealed.filter fun x => x.num != e.num } }
  if s.active then s3.releaseQueues
  else if e.items.any fun x => x.item == .handover then s3.handIn else s3

/-- The held epochs that are committed and due, in order (R509); none while a resync is under way (R515). `fuel` bounds
them. -/
def State.applyEpochs (s : State) : Nat → State
  | 0 => s
  | fuel + 1 =>
    match s.twin.rxSealed with
    | e :: _ =>
      if (s.active || (s.standby && s.sync != 2)) && e.committed && decide (e.target ≤ s.twin.fclk0) then (s.applyEpoch e).applyEpochs fuel
      else s
    | [] => s

/-- Held images of a resync: the full image first, then the deltas that followed it. -/
def State.resyncImage (s : State) : Option (List Byte × List (List Byte)) :=
  match s.twin.fetched with
  | b :: rest => some (b, rest)
  | [] => none

/-- The generation the peer runs, as its beat says; its own where none is heard. -/
def State.peerGen (s : State) : Nat :=
  match s.beat with
  | some b => b.gen.toNat
  | none => s.ld.gen

/-- The transfer of a resync is complete: a trailer whose SNAPSHOT packets are all here, and, where the peer runs
another generation, its images. -/
def State.snapReady (s : State) : Option Trailer :=
  match s.twin.snapTrailer with
  | some t =>
    if s.peerGen = s.ld.gen ∨ !s.twin.fetched.isEmpty then some t else none
  | none => none

/-- What stands once the snapshot has been applied: QUALIFYING (R515, R516). -/
def State.resynced (s : State) (t : Trailer) : State :=
  let s1 := (s.applySnapshot t).setFld Reg.TWN_RESYNC 31 28 3
  s1.setSync 1

/-- A resync at an FCLK0 commit point (R515): with the active's generation running, the snapshot at once; else the
startup card first, and at the next point the structure start (R68) with the deltas that the active runs, the deltas
that it holds pending, and the snapshot. -/
def State.resyncStep (s : State) : State :=
  if !(s.standby && s.sync == 2) then s
  else match s.snapReady with
    | none => s
    | some t =>
      match s.resyncImage with
      | none => s.resynced t
      | some (b, rest) =>
        if !s.twin.snapCard then
          { s with twin := { s.twin with snapCard := true }, ld := { s.ld with startCard := true } }
        else
          let run := rest.filter fun d => decide (imgGen d ≤ s.peerGen)
          let wait := rest.filter fun d => decide (s.peerGen < imgGen d)
          let s1 := s.structureStart (imgGen b) (carried (imgRecs b)) [b] false
          let s2 := run.foldl (fun (u : State) d => u.applyActs (actsOf (carried (imgRecs d)) (removesOf (imgRecs d)))) s1
          let s3 : State := { s2 with ld := { s2.ld with gen := (run.map imgGen).getLastD s2.ld.gen, images := b :: run,
                                                         deltas := wait.map fun d => deltaOfImage d none } }
          s3.resynced t

end Sys2Proof.Machine
end

