-- ==== Sys2Proof/Machine/Commit.lean ====
section
/-!
DEFINITION. Machine/Commit.lean: commit points (R142 to R146, R46, R49, R68, R174, R175, R537) and MEMORY nodes (R33).
Coincident commit points of several clocks are one instant whose clocks are commanded one after another: what one of
them releases for a clock that has had its point at this instant takes effect there too
(DESIGN CHOICE, assumption 11).
-/
namespace Sys2Proof.Machine

/-! ### What an FCLK0 commit point does first -/

/-- A standby that is to become ACTIVE does so (R174, R500). -/
def State.promotion (s : State) : State :=
  if s.twin.promote && s.standby then
    let t := s.becomeActive
    { t.setFld Reg.TWN_STATUS 29 27 (if s.hornpipeAny then s.sync else 5) with twin := { t.twin with promote := false } }
  else { s with twin := { s.twin with promote := false } }

/-- Pending deltas are discarded, each with a LOAD entry (R68). -/
def State.dropDeltas (s : State) : State :=
  let t := s.ld.deltas.foldl (fun (u : State) _ => u.history 0x0A 0x20 []) s
  { t with ld := { t.ld with deltas := [] } }

/-- A full image on its way to running (R68, R175): accepted and committed, the startup card; with the card shown, or
loaded at boot, the structure starts. A delta accepted after the card is discarded as the ones before it are (DESIGN
CHOICE, assumption 48). -/
def State.startStep (s : State) : State :=
  match s.ld.next with
  | none => s
  | some n =>
    match n.phase with
    | .accepted =>
      if s.epochDone n.epoch then
        let t := s.dropDeltas
        { t with ld := { t.ld with startCard := true } }.toPhase n (s.startPhase n.recs)
      else s
    | .card => s.dropDeltas.structureStart n.gen n.recs [n.image] true
    | .cascadeWait => s

/-- The FCLK0 count goes on, epochs commit, roles change, structures start, DRAM training begins. -/
def State.fclk0Step (s : State) : State :=
  let s1 := if s.fld Reg.SYS_BOOT_STAGE 3 0 = 2 then s.trainingStart else s
  let s2 : State := { s1 with twin := { s1.twin with fclk0 := s1.twin.fclk0 + 1 } }
  let s3 := s2.promotion.commitSealed.resyncStep
  (s3.applyEpochs (s3.twin.rxSealed.length + 1)).startStep

/-! ### Deltas and held changes -/

/-- Clocks other than `k` whose last commit point is at the instant of clock `k`'s. -/
def State.coincident (s : State) (k : Nat) : List Nat :=
  fclks.filter fun c => c != k && (s.fclkOf c).on && s.fld (Reg.CMD_FCLK_COUNT c) 31 0 != 0
    && s.reg (Reg.CMD_FCLK_LAST c) == s.reg (Reg.CMD_FCLK_LAST k)

/-- A pending delta may take effect in state `s` but for its clock. -/
def State.deltaFree (s : State) (d : Delta) : Bool :=
  s.epochDone d.epoch && match s.deltaLeast d with
    | some n => decide (n ≤ s.twin.fclk0)
    | none => false

/-- The due deltas, from the oldest on (R46, R145). `old`: the state before the commit point. -/
def State.dueDeltas (s old : State) (k : Nat) : List Delta :=
  s.ld.deltas.takeWhile fun d => s.deltaFree d
    && (s.deltaClock d == k
        || ((s.coincident k).contains (s.deltaClock d) && !(old.deltaFree d && old.ld.deltas.contains d)))

/-- A ring commit has been applied (R537): COMMIT_GEN, COMMITS, LATE. -/
def State.ringCommitted (s : State) (ds : List Delta) : State :=
  if !s.inRing || ds.isEmpty then s
  else
    let late := match s.cas.ring with
      | some (_, n) => decide (n < s.twin.fclk0)
      | none => false
    let s1 := (s.setReg Reg.CAS_COMMIT_GEN (w32 ((ds.map fun d => d.gen).getLastD 0))).incWrap Reg.CAS_COMMIT_INFO 15 0
    if late then s1.addSat Reg.CAS_COMMIT_INFO 23 16 1 else s1

/-- What applied deltas left for the clocks of this instant takes effect (R46). -/
def State.applyLates (s : State) (k : Nat) : State := (k :: s.coincident k).foldl State.applyLate s

/-- What earlier deltas left for this clock takes effect, then the due deltas one after another, each with what it has
for the clocks of this instant: acceptance order (R46, R49). -/
def State.applyDeltas (s old : State) (k : Nat) : State :=
  let ds := s.dueDeltas old k
  let s1 := { s with ld := { s.ld with deltas := s.ld.deltas.drop ds.length } }.applyLates k
  (ds.foldl (fun (t : State) d => (t.applyDelta { d with fclk := t.deltaClock d }).applyLates k) s1).ringCommitted ds

/-- A held change may take effect in state `s` but for its clock (R138, R146, R536). -/
def State.heldFree (s : State) (h : Held) : Bool :=
  h.defer.isNone && s.epochDone h.epoch && decide (h.least ≤ s.twin.fclk0)

/-- The held change was already free before this commit point. -/
def State.wasFree (old : State) (h : Held) : Bool :=
  old.cmd.held.any fun x => x.seq == h.seq && x.clock == h.clock && x.change == h.change && old.heldFree x

/-- The held changes due at a commit point of clock `k`, in acceptance order (R144, R145). -/
def State.dueHeld (s old : State) (k : Nat) : List Held :=
  let also := s.coincident k
  s.cmd.held.filter fun h => s.heldFree h && (h.clock == k || (also.contains h.clock && !old.wasFree h))

/-- Due changes, already taken out, take effect one after another, or are discarded with their objects (R145, R49,
R155). -/
def State.takeHeld (s : State) (ts : Word) : List Held → State
  | [] => s
  | h :: rest =>
    (if s.objectAlive h then (s.applyChange h).endHeld rest h 0 ts else s.endHeld rest h 2 ts).takeHeld ts rest

/-- A commit point of clock `k` releases what waited for it as the deferring clock (R138). -/
def State.releaseDefer (s : State) (k : Nat) : State :=
  { s with cmd := { s.cmd with held := s.cmd.held.map fun h => if h.defer = some k then { h with defer := none } else h } }

/-- Deltas, then commands and shadowed writes in one order of acceptance (R145). -/
def State.applyDue (s old : State) (k : Nat) : State :=
  let s1 := (s.releaseDefer k).applyDeltas old k
  let due := s1.dueHeld old k
  let s2 : State := { s1 with cmd := { s1.cmd with held := s1.cmd.held.filter fun h => !due.contains h } }
  let s3 := s2.takeHeld (s1.reg (Reg.CMD_FCLK_LAST k)) due
  s3.afterChanges (due.filter s1.objectAlive)

/-- WAIT_COMMIT counts a commit point of its clock (R150). -/
def State.countWaits (s : State) (k : Nat) : State :=
  (List.range 16).foldl (fun t q => match (t.queue q).wait with
    | .commits c n r => if c = k then t.setQueue q { t.queue q with wait := .commits c (n - 1) r } else t
    | _ => t) s

/-- A snapshot that waited for an epoch to commit alone goes out (R508, R515). -/
def State.snapOwed (s : State) : State :=
  if s.twin.wantSnap && s.active && s.twin.sealed.isNone then
    { s with twin := { s.twin with wantSnap := false } }.sendSnapshot
  else s

/-- A commit point of clock `k`: its edge, its vector, what FCLK0 does first, the changes, and the work that starts
here. -/
def State.commitPoint (s : State) (k : Nat) : State :=
  let s1 := (s.clockEdge k).sendVector (19 + k)
  let s2 := if k = 0 then s1.fclk0Step else s1
  let s3 := s2.applyDue s k
  let also := s3.coincident k
  let s4 := also.foldl (State.settle true) (s3.settle false k)
  let s5 := (((s4.outputsCommit k).encCommit s k also).memoryNodes k also).countWaits k |>.forwardsGo
  if k = 0 then s5.snapOwed else s5

/-- COMMIT_POINT (R145): the pending edge of clock `k` is due. -/
def execCommitPoint (k : Nat) (s : State) : Res :=
  if s.clockDue k && s.ready then .next (s.commitPoint k) else .next s

/-! ### MEMORY nodes (R33) -/

/-- MEMORY_NODE_FLIP (R33): MEMORY node `n` completes what is left of its frame, segment after segment, and flips its
surface. -/
def State.memoryFlip (s : State) (n : Nat) : State :=
  match (s.nodeSt n).frame with
  | none => s
  | some f =>
    let todo := (List.range f.h).flatMap fun y => (List.range (cdiv f.w 1024)).map fun k => (y, k)
    todo.foldl (fun (t : State) e => match (t.nodeSt n).frame with
      | some f => t.memorySegment n f e.1 e.2
      | none => t) s

/-- MEMORY_NODE_FLIP (R33). -/
def execMemoryNodeFlip (n : Nat) (s : State) : Res :=
  match s.node n with
  | some r => if r.dest = 1 ∧ (s.nodeSt n).frame.isSome then .next (s.memoryFlip n) else .next s
  | none => .next s

end Sys2Proof.Machine
end

