-- ==== Sys2Proof/Machine/TwinPath.lean ====
section
/-!
DEFINITION. Machine/TwinPath.lean: the twin's liveness paths (R496 to R503), the start of a twin structure (R174) and the
health self-test (R514, R517, R518).
-/
namespace Sys2Proof.Machine

/-! ### Sending (R497, R498) -/

/-- The 80 bytes of a HEARTBEAT on TWNi (R497). -/
def State.heartbeat (s : State) (i : Nat) : List Byte :=
  let b := fun (x : Bool) (n : Nat) => if x then 2 ^ n else 0
  let echo := match s.twin.beats.getD i none with
    | some e => (e.tSend, e.rx)
    | none => (0, 0)
  let flags := b (s.sync == 0) 0 + b s.svp.restarting 1 + b (s.condOn 27 2) 2 + b (s.bit Reg.TWN_STATUS 25) 3
    + b (s.bit Reg.TWN_STATUS 23) 4
  let next := fun k => if (s.fclkOf k).on then (s.reg (Reg.TIM_FCLK_NEXT k)).toNat else 0
  leBytes 1 (if s.active then 1 else 0) ++ leBytes 1 s.sideStrap ++ leBytes 1 s.sync ++ leBytes 1 flags
    ++ leBytes 4 (s.twin.beatNo % 2 ^ 32) ++ leBytes 4 s.ts.toNat ++ leBytes 4 echo.1.toNat ++ leBytes 4 echo.2.toNat
    ++ leBytes 4 s.ld.gen ++ leBytes 4 (s.fld Reg.TWN_LAST_EPOCH 31 0) ++ leBytes 4 (s.twin.fclk0 % 2 ^ 32)
    ++ leBytes 8 Config.uid.toNat ++ leBytes 4 (s.twin.health.getD 0 0).toNat ++ leBytes 4 0
    ++ fclks.flatMap fun k => leBytes 4 (next k)

/-- The health content that beats carry is that of the last beat while the supervisor restarts (R116). -/
def State.freshHealth (s : State) : State :=
  if s.svp.restarting then s else { s with twin := { s.twin with health := s.twin.health.set 0 s.health0 } }

/-- HEARTBEAT_SEND (R497): one beat on both twin ports. -/
def execHeartbeatSend (s : State) : Res :=
  if s.ready && s.paired then
    let s1 := { s with twin := { s.twin with beatNo := s.twin.beatNo + 1 } }.freshHealth
    .next ((s1.sendPacket 120 0x21 0 0 (s1.heartbeat 0)).sendPacket 121 0x21 0 0 (s1.heartbeat 1))
  else .next s

/-- MAYPOLE_TOGGLE (R498): one period of 100 µs on MAYPOLE_OUT; HALTED and NONE drive no edges. -/
def execMaypoleToggle (s : State) : Res :=
  let high := if s.active then 75000 else if s.standby then 25000 else 0
  let s1 : State := { s with twin := { s.twin with mpHigh := high } }
  if s.ready && high != 0 then .next (s1.emit (.maypole high)) else .next s1

/-! ### Receiving a beat (R496, R497, R501, R502) -/

/-- A beat read from its payload. -/
def Beat.ofBytes (b : List Byte) (rx : Word) (up : Nat) : Beat :=
  let w := fun off => w32 (leAt b off 4)
  { role := leAt b 0 1, side := leAt b 1 1, sync := leAt b 2 1, bflags := leAt b 3 1, beat := leAt b 4 4, tSend := w 8,
    tEcho := w 12, tEchoRx := w 16, gen := w 20, epoch := w 24, fclk0 := leAt b 28 4, uid := BitVec.ofNat 64 (leAt b 32 8),
    health := w 40, fclkNext := fclks.map fun k => w (48 + 4 * k), rx := rx, upAt := up }

/-- The offset of R496 from one beat: local TS32 minus peer TS32, every difference a signed 32-bit number;
none before the peer has a beat to echo (an echo of 0: DESIGN CHOICE, assumption 66). -/
def Beat.offset (b : Beat) : Option Int :=
  if b.tEcho = 0 ∧ b.tEchoRx = 0 then none
  else some ((BitVec.ofInt 32 (tsDiff b.tSend b.rx - tsDiff b.tEcho b.tEchoRx)).toInt / 2)

/-- TWN.PEER_OFFSET follows (R496). -/
def State.showOffset (s : State) : State := s.setReg Reg.TWN_PEER_OFFSET (satS32 s.peerOffset)

/-- Beats missed between two beat numbers; a number that went back, of a peer that has started again, counts none
(DESIGN CHOICE, assumption 66). -/
def beatsMissed (last now : Nat) : Nat :=
  let d := (now + 2 ^ 32 - last) % 2 ^ 32
  if d < 2 ^ 31 then d - 1 else 0

/-- A beat arrives on TWNi: paths, offset, what is known of the peer, the side in effect. -/
def State.recordBeat (s : State) (i : Nat) (b : Beat) : State :=
  let missed := match s.twin.beats.getD i none with
    | some l => beatsMissed l.beat b.beat
    | none => 0
  let offs := match b.offset with
    | some o => s.twin.offsets.set i ((o :: s.twin.offsets.getD i []).take 8)
    | none => s.twin.offsets
  let t : Twin := { s.twin with beats := s.twin.beats.set i (some b), offsets := offs, met := true,
                                since := if b.role = 1 then s.twin.since else none }
  let s1 := (({ s with twin := t }.setBit Reg.TWN_PATHS (31 - i) true).setBit Reg.TWN_PATHS 27 (b.role == 1)).addSat
    Reg.TWN_PATHS (15 - 8 * i) (8 - 8 * i) missed
  let s2 := ((s1.setReg Reg.TWN_PEER_GEN b.gen).setPair Reg.TWN_PEER_UID_LO b.uid).showOffset
  let s3 := if b.side = s2.sideStrap then s2.setBit Reg.TWN_STATUS 25 true else s2
  let side := if s3.bit Reg.TWN_STATUS 25 then (if Config.uid.toNat < b.uid.toNat then 0 else 1) else s3.sideStrap
  (s3.setFld Reg.TWN_STATUS 26 26 side).healthAlarm

/-- Frame clock `k` follows another device's (R496, R529), whose pending edge falls at own TS32 `theirs`: its own
pending edge takes the error against the nearest of the other's edges, in one step above 1 µs, else by 100 ppm of the
period an edge; locked within ±50 ns. Answers how many edges before the other's pending one the own pending edge is.
-/
def State.followEdge (s : State) (k : Nat) (theirs : Word) : State × Int :=
  let c := s.fclkOf k
  let p : Int := ((max 1 (s.periodNs k) : Nat) : Int)
  let raw := tsDiff (s.reg (Reg.TIM_FCLK_NEXT k)) theirs
  let d := raw % p
  let e := if p < 2 * d then d - p else d
  let s1 := if 1000 < e.natAbs then
      (s.setFclk k { c with err := 0, locked := false }).setReg (Reg.TIM_FCLK_NEXT k)
        (s.reg (Reg.TIM_FCLK_NEXT k) + BitVec.ofInt 32 e)
    else s.setFclk k { c with err := e, locked := decide (e.natAbs ≤ 50) }
  (s1, (raw - e) / p)

/-- Clock `k` of a standby follows the active's by its beat (R496). -/
def State.followClock (s : State) (b : Beat) (k : Nat) : State :=
  let theirs := b.fclkNext.getD k 0
  if !(s.fclkOf k).on ∨ theirs = 0 then s else (s.followEdge k (theirs + BitVec.ofInt 32 s.peerOffset)).1

/-- A standby's clocks follow its ACTIVE peer; STATUS.FCLK_LOCK. -/
def State.followClocks (s : State) (i : Nat) (b : Beat) : State :=
  if !(s.standby && b.role == 1 && s.beatPort == i) then s
  else
    let s1 := fclks.foldl (fun t k => t.followClock b k) s
    s1.setBit Reg.TWN_STATUS 24 (fclks.all fun k => !(s1.fclkOf k).on || (s1.fclkOf k).locked)

/-- A beat of an ACTIVE peer tells an active of dual activity (R501), unless it was sent before the roles were
exchanged. -/
def State.dualBeat (s : State) (b : Beat) : Bool :=
  b.role == 1 && match s.twin.since with
    | some t => tsReached (b.tSend + BitVec.ofInt 32 s.peerOffset) t
    | none => true

/-- SYNC of an active follows what its standby reports, but for what the active itself has decided and the standby has
not heard of yet: QUALIFIED over QUALIFYING, FAULTED over QUALIFIED and QUALIFYING. -/
def State.syncOfPeer (s : State) (b : Beat) : State :=
  if b.role ≠ 0 ∨ 4 < b.sync then s
  else if (s.sync = 0 ∧ b.sync = 1) ∨ (s.sync = 4 ∧ b.sync ≤ 1) then s
  else s.setSync b.sync

/-- The standby holds an ACKed epoch whose target has passed with neither COMMIT nor SLIP, and the active is at or
beyond it (R509). -/
def State.lostCommit (s : State) (b : Beat) : Bool :=
  s.twin.rxSealed.any fun x => x.answer == .ack && !x.committed && decide (x.target ≤ s.twin.fclk0)
    && decide (x.num ≤ b.epoch.toNat)

/-- The cause of a fault that the active's SYNC shows the standby (R508, R513): NACK where its last answer was one, STALL
where an epoch it holds uncommitted has slipped SLIP_MAX times, SIG otherwise; a beat says no cause (DEDUCED, assumption
66). -/
def State.faultHeard (s : State) : Nat :=
  if s.twin.nacked then 2 else if s.twin.rxSealed.any fun x => !x.committed && decide (s.slipMax ≤ x.slips) then 3 else 1

/-- What a standby learns from a beat of the active: its resync, its qualification, its faults (R501, R509, R513, R515,
R516). -/
def State.syncOfActive (s : State) (b : Beat) : State :=
  if b.role ≠ 1 then s
  else if s.sync = 3 then s.requestResync (s.fld Reg.TWN_RESYNC 27 24)
  else if 1 < s.sync then s
  else if s.lostCommit b then s.standbyFault 7
  else if b.sync = 4 then s.standbyFault s.faultHeard
  else if s.sync = 1 ∧ b.bflags.testBit 0 = true then (s.setSync 0).history 0x07 0 []
  else s

/-- The active's beat says for the first time that it has learned of dual activity: a handover that rides an epoch held
here is dropped, as the active drops it (R514; BFLAGS tells it, DEDUCED, assumption 66). -/
def State.dualHeard (s : State) (i : Nat) (b : Beat) : Bool :=
  b.role == 1 && b.bflags.testBit 4 && match s.twin.beats.getD i none with
    | some l => !l.bflags.testBit 4
    | none => true

/-- An accepted beat on TWNi. -/
def State.beatIn (s : State) (i : Nat) (b : Beat) : State :=
  let s0 := if s.standby && s.dualHeard i b then s.dropHandover else s
  let s1 := (s0.recordBeat i b).followClocks i b
  let s2 := if s1.active then (if s1.dualBeat b then s1.learnDual else s1.syncOfPeer b)
    else if s1.standby then s1.syncOfActive b else s1
  s2.twinLinkAlarm

/-- A HEARTBEAT packet on TWNi (R496): one of another length than 80 bytes is no beat. -/
def State.heartbeatIn (s : State) (i : Nat) (p : RxPacket) : State :=
  if p.payload.length = 80 then s.beatIn i (Beat.ofBytes p.payload s.ts s.uptime) else s

/-- HEARTBEAT_RX (R496). -/
def execHeartbeatRx (i : Nat) (b : List Byte) (s : State) : Res :=
  s.packetRow (decide (i < 2)) (120 + i) 0x21 b fun t p => t.heartbeatIn i p

/-! ### Losing paths (R497, R498, R503) -/

/-- Hornpipe is lost on both ports: an active commits alone, a standby is UNSYNCED. -/
def State.hornpipeGone (s : State) : State :=
  if s.active then s.setSync (if s.maypole = 0 then 5 else 3)
  else if s.standby && s.sync != 3 then
    let s1 := (s.setSync 3).setReg Reg.TWN_RESYNC 0x0400_0000
    { s1 with twin := { s1.twin with snap := [], snapTrailer := none, fetched := [], image := [], imageLen := 0, snapCard := false } }
  else s

/-- HORNPIPE_LOST (R497): no beat has been accepted on TWNi for HB_MISS × HB_PERIOD. -/
def execHornpipeLost (i : Nat) (s : State) : Res :=
  if s.ready && decide (i < 2) then
    let s1 := (s.setBit Reg.TWN_PATHS (31 - i) false).showOffset
    .next (if s1.hornpipeAny then s1.twinLinkAlarm else s1.hornpipeGone.twinLinkAlarm)
  else .next s

/-- The pattern of one high time in ns (R498). -/
def Maypole.ofHigh (ns : Nat) : Maypole :=
  if 60000 ≤ ns ∧ ns ≤ 90000 then .active else if 10000 ≤ ns ∧ ns ≤ 40000 then .standby else .undefined

/-- A falling edge of MAYPOLE_IN ends a high time; its pattern counts once two consecutive periods agree (R498). -/
def State.maypoleFall (s : State) (ns : Nat) : State :=
  let p := Maypole.ofHigh ns
  let s1 := { s with twin := { s.twin with mpLast := p } }
  if s.twin.mpLast = p then
    let s2 := s1.setFld Reg.TWN_PATHS 29 28 p.code
    if p = .active ∧ s2.active = true then s2.learnDual else s2
  else s1

/-- MAYPOLE_EDGE (R498): an edge on MAYPOLE_IN, rising or falling. The first edge after silence ends it; until two
periods agree the pattern is UNDEFINED. A peer that was ABSENT is alive again, and its standby UNSYNCED (R503). -/
def execMaypoleEdge (rise : Bool) (s : State) : Res :=
  if !s.ready then .next s
  else
  let s1 := if s.maypole = 0 then s.setFld Reg.TWN_PATHS 29 28 3 else s
  let s1 := if s1.active && s1.sync == 5 && !s1.hornpipeAny then s1.setSync 3 else s1
  let s2 : State := { s1 with twin := { s1.twin with mpAlive := true, met := true } }
  let s3 := if rise then { s2 with twin := { s2.twin with mpRise := some s2.ts } }
    else match s2.twin.mpRise with
      | some t => { s2 with twin := { s2.twin with mpRise := none } }.maypoleFall (tsDiff t s2.ts).toNat
      | none => s2
  .next s3.twinLinkAlarm

/-- MAYPOLE_SILENT (R498): no edge on MAYPOLE_IN for MP_SILENT × 100 µs. -/
def execMaypoleSilent (s : State) : Res :=
  if !s.ready then .next s
  else
  let t : Twin := { s.twin with mpAlive := false, mpRise := none, mpLast := .silent }
  let s1 := { s with twin := t }.setFld Reg.TWN_PATHS 29 28 0
  let s2 := if s1.active && !s1.hornpipeAny then s1.setSync 5 else s1
  .next s2.twinLinkAlarm

/-! ### Decisions (R174, R500) -/

/-- The peer's role as the paths show it: 0 STANDBY, 1 ACTIVE, 2 alive without a role, 3 silent (R500). Hornpipe
decides over MAYPOLE. -/
def State.peerRole (s : State) : Nat :=
  if s.hornpipeAny then (if s.bit Reg.TWN_PATHS 27 then 1 else 0)
  else match s.maypole with
    | 0 => 3
    | 1 => 1
    | 2 => 0
    | _ => 2

/-- Whether the standby is to become ACTIVE at the next FCLK0 commit point. -/
def State.setPromote (s : State) (b : Bool) : State := { s with twin := { s.twin with promote := b } }

/-- PATH_EVALUATION (R500): the rows of the table, after the listen of R174. A peer that has never been heard is the
business of R174. -/
def execPathEvaluation (s : State) : Res :=
  if !s.standby then .next s
  else match s.peerRole with
    | 0 => .next (if s.twin.listened then s.setPromote (s.sideNow == 0) else s)
    | 3 => .next (if s.twin.met then s.takeover else s)
    | _ => .next (s.setPromote false)

/-- TWIN_LISTEN_END (R174): 10 ms after the structure start a standby that sees no active peer is to become ACTIVE on
SIDE A. -/
def execTwinListenEnd (s : State) : Res :=
  if !s.standby || s.twin.listened then .next s
  else
    let s1 := { s with twin := { s.twin with listened := true } }
    .next (if s.peerRole = 0 ∨ s.peerRole = 3 then s1.setPromote (s.sideNow == 0) else s1)

/-- SIDE_B_SILENCE_EXPIRE (R174): 30 ms of silence since the structure start let a SIDE B device become ACTIVE. -/
def execSideBSilenceExpire (s : State) : Res :=
  if s.standby && s.sideNow == 1 && !s.twin.met && s.peerRole == 3 then .next (s.setPromote true) else .next s

/-! ### HEAD_STATUS (R499, R501) -/

/-- What a head's report tells an active (R501): both sides on air, or the peer's side on glass in a frame to which this
device set ON_AIR; the first tells the target of a handover, too (R520); its region CRCs are kept for the verdict (R513). -/
def State.headTwin (s : State) (n : Nat) (b : List Byte) : State :=
  let no := leAt b 0 2
  let even := s.evenPort n
  let crcs := (List.range (leAt b 10 1)).map fun r => w32 (leAt b (16 + 4 * r) 4)
  let s1 : State := if even = n then { s with twin := { s.twin with reports := ((n, no, crcs) :: s.twin.reports).take 96 } } else s
  let sent := (s1.twin.own.any fun f => f.out == even && f.frame == no && f.onAir) || match (s1.output even).cur with
    | some f => f.no == no && f.onAir
    | none => false
  let theirs := leAt b 2 1 == 2 - s1.sideStrap
  let both := (leAt b 3 1).testBit 0
  if (s1.active && (both || (theirs && sent))) || (s1.standby && s1.handTarget && both) then s1.learnDual else s1

/-- HEAD_STATUS_RX (R209): on the return lane of OUTn. A payload whose length does not hold its regions is no
HEAD_STATUS. -/
def State.headStatusIn (s : State) (port : Nat) (p : RxPacket) : State :=
  if p.payload.length = 16 + 4 * leAt p.payload 10 1 then
    (s.headStatus (port - 64) p.payload).headTwin (port - 64) p.payload
  else s

/-- HEAD_STATUS_RX (R209). -/
def execHeadStatusRx (n : Nat) (b : List Byte) (s : State) : Res :=
  s.packetRow (decide (n < 24)) (64 + n) 0x11 b fun t p => t.headStatusIn (64 + n) p

/-! ### Health (R514, R517, R518) -/

/-- The items whose failure is FAILED and marked for handover: SRAM, PIPES, SCALERS, ACCUMULATORS. -/
def handoverItems : BitVec 16 := 0x132

/-- Replace word `i` of the health report. -/
def State.setHealth (s : State) (i : Nat) (v : Word) : State :=
  { s with twin := { s.twin with health := s.twin.health.set i v } }

/-- Set bits of word `i` of the health report. -/
def State.orHealth (s : State) (i n : Nat) : State := s.setHealth i (s.twin.health.getD i 0 ||| w32 (2 ^ n))

/-- An item becomes or stops being FAILED; a new failure enters the history (R519). -/
def State.itemFailed (s : State) (item : Nat) : State :=
  if s.twin.failed.getLsbD item then s
  else (({ s with twin := { s.twin with failed := s.twin.failed ||| BitVec.ofNat 16 (2 ^ item) } }).history 0x08 item []).healthAlarm

/-- An item is DEGRADED or UNTESTED, or no longer. -/
def State.itemDegraded (s : State) (item : Nat) (on : Bool) : State :=
  let bit := BitVec.ofNat 16 (2 ^ item)
  if on && !s.twin.degraded.getLsbD item then
    ({ s with twin := { s.twin with degraded := s.twin.degraded ||| bit } }).history 0x08 (item + 2 ^ 16) []
  else if on then s
  else { s with twin := { s.twin with degraded := s.twin.degraded &&& ~~~bit } }

/-- The worst lane of the margins sampled last, 0.15 UI being 38.4 / 256 UI (R517, R518). -/
def State.worstLane (s : State) : State :=
  match s.twin.margins with
  | [] => s.itemDegraded 3 false
  | e :: rest =>
    let w := rest.foldl (fun (a b : Nat × Nat) => if b.2 < a.2 then b else a) e
    (s.setHealth 5 (w32 (w.1 / 1024 % 256 * 2 ^ 24 + w.1 / 8 % 128 * 2 ^ 16 + w.1 % 8 * 2 ^ 13 + min w.2 255))).itemDegraded 3
      (decide (w.2 ≤ 38))

/-- Unit `u` of an item carries no work that keeps its test from running: a decoder core decodes no picture, a prescaler
works no band (R384), an accumulator serves no region of the set in force (R420). -/
def State.unitIdle (s : State) (item u : Nat) : Bool :=
  match item with
  | 6 => (s.core u).job.isNone
  | 7 => !s.preBusy u
  | 8 => decide ((s.output (u / 64)).regions.length ≤ u % 64)
  | _ => true

/-- A known-vector test has run on a prescaler: SCL.PRE_TEST and PRE_TEST_CNT (R384). -/
def State.preTested (s : State) (item u : Nat) (failed : Bool) : State :=
  if item = 7 ∧ u < 40 then
    (s.setReg Reg.SCL_PRE_TEST (w32 ((if failed then 2 ^ 31 else 0) + u))).setReg Reg.SCL_PRE_TEST_CNT
      (s.reg Reg.SCL_PRE_TEST_CNT + 1)
  else s

/-- What the failure of unit `u` of an item does (R517). -/
def State.testFailed (s : State) (item u : Nat) : State :=
  match item with
  | 1 => s.itemFailed 1
  | 4 => if u < 12 then (s.orHealth 1 u).itemFailed 4 else s
  | 5 => if u < 32 then (s.orHealth 2 u).itemFailed 5 else s
  | 6 => if u < 8 then (s.orHealth 1 (16 + u)).setBit (Reg.DEC_CORE_STATUS u) 30 true else s
  | 7 =>
    if u < 40 then
      let s1 := { s with pre := { s.pre with out := if s.pre.out.contains u then s.pre.out else s.pre.out ++ [u] } }
      if u < 32 then s1.orHealth 3 u else s1.orHealth 4 (u - 32)
    else s
  | 8 =>
    if u < 1536 then
      let bad := if s.twin.accBad.contains u then s.twin.accBad else s.twin.accBad ++ [u]
      let s1 : State := { s with twin := { s.twin with accBad := bad } }
      (s1.setHealth 4 (wput (s1.twin.health.getD 4 0) 31 16 (min bad.length 65535))).itemFailed 8
    else s
  | _ => s

/-- A test of an item has run: it is not UNTESTED, and a pass over all items may be complete (R518, DATA7). -/
def State.testRan (s : State) (item : Nat) : State :=
  let p := if s.twin.passed.contains item then s.twin.passed else item :: s.twin.passed
  let full := (List.range 10).all fun k => k = 0 || p.contains k
  let t : Twin := { s.twin with untested := Cells.put (fun _ => 0) s.twin.untested item 0, passed := if full then [] else p }
  let s1 := if Cells.get (fun _ => 0) s.twin.untested item < 10 then { s with twin := t }
    else { s with twin := t }.itemDegraded item false
  if full then s1.setHealth 7 s1.ts else s1

/-- A period of an item in which its test could not run; after 10 the item is UNTESTED (R517). -/
def State.testMissed (s : State) (item : Nat) : State :=
  let n := Cells.get (fun _ => 0) s.twin.untested item + 1
  let s1 : State := { s with twin := { s.twin with untested := Cells.put (fun _ => 0) s.twin.untested item n } }
  if 10 ≤ n then s1.itemDegraded item true else s1

/-- An active requests a handover by itself while its report shows a FAILED item marked for it (R514). -/
def State.autoHand (s : State) : State :=
  if s.active && s.autoHandover && decide (s.twin.failed &&& handoverItems ≠ 0) && s.twin.handover.isNone then
    s.requestHandover
  else s

/-- HEALTH_TEST (R517): one run of the test of an item on unit `u`: pipe, scaler, decoder core, prescaler or accumulator
64 * output + region. A unit that carries work takes no test. -/
def execHealthTest (item u : Nat) (r : Health) (s : State) : Res :=
  if !s.ready || decide (9 < item) then .next s
  else
    let s1 := match r with
      | .notRun => s.testMissed item
      | .pass => if s.unitIdle item u then (s.testRan item).preTested item u false else s
      | .fail => if s.unitIdle item u then ((s.testRan item).preTested item u true).testFailed item u else s
      | .corrected n => if item = 1 then (s.testRan 1).setHealth 6 (w32 (min ((s.twin.health.getD 6 0).toNat + n) (2 ^ 32 - 1)))
          else s
      | .margin b p l m =>
        if item = 3 then
          let t := s.testRan 3
          ({ t with twin := { t.twin with margins := Cells.put (fun _ => 65535) t.twin.margins (b * 1024 + p * 8 + l) m } }).worstLane
        else s
    .next s1.autoHand

end Sys2Proof.Machine
end

