-- ==== Sys2Proof/Machine/TwinMirror.lean ====
section
/-!
DEFINITION. Machine/TwinMirror.lean: mirror epochs between the twins (R504 to R510), the resync transfer (R515) and the
signature compare (R512, R513, R516).
-/
namespace Sys2Proof.Machine

/-! ### Packets (R504) -/

/-- A TWIN_MIRROR packet: its header fields and body. -/
structure MirrorPkt where
  kind  : Nat
  epoch : Nat
  index : Nat
  aux   : Nat
  body  : List Byte
  deriving DecidableEq, Repr

/-- A TWIN_MIRROR packet read from its payload, none where the header is not whole. -/
def mirrorOf (b : List Byte) : Option MirrorPkt :=
  if b.length < 16 then none
  else some { kind := leAt b 0 1, epoch := leAt b 4 4, index := leAt b 8 4, aux := leAt b 12 4, body := b.drop 16 }

/-- The second copy of a (KIND, EPOCH, INDEX), the one that comes on the other twin port, is discarded (R504). -/
def State.firstCopy (s : State) (i : Nat) (m : MirrorPkt) : State × Bool :=
  let other := (m.kind, m.epoch, m.index, 1 - i)
  if s.twin.seen.contains other then ({ s with twin := { s.twin with seen := s.twin.seen.erase other } }, false)
  else ({ s with twin := { s.twin with seen := ((m.kind, m.epoch, m.index, i) :: s.twin.seen).take 256 } }, true)

/-! ### Sealing and deciding (R506, R508) -/

/-- The active seals the epoch it is filling, for the next FCLK0 boundary (R506). -/
def State.sealEpoch (s : State) : State :=
  let s1 := s.sendData
  let items := s1.twin.items.reverse
  let t := s1.trailer (s1.twin.fclk0 + 1) (items.flatMap Item.bytes)
  let s2 := s1.sendMirror 1 s1.twin.filling s1.twin.dataNo 0 t.bytes
  let e : Sealed := { num := s1.twin.filling, items := items, trailer := t, target := s1.twin.fclk0 + 1, slips := 0,
                      answer := .none, decided := false, alone := false }
  { s2 with twin := { s2.twin with filling := s1.twin.filling + 1, items := [], sentItems := 0, dataNo := 0, sealed := some e } }

/-- SEAL_POINT (R506): SEAL_LEAD before an FCLK0 boundary; nothing while the previous epoch has not committed. -/
def execSealPoint (s : State) : Res :=
  if s.active && s.twin.sealed.isNone && (s.fclkOf 0).on then .next s.sealEpoch else .next s

/-- Replace the sealed epoch. -/
def State.setSealed (s : State) (e : Sealed) : State := { s with twin := { s.twin with sealed := some e } }

/-- The fate of a sealed epoch at B − 1 ms (R508): the first row of the table that holds; without Hornpipe an epoch
commits alone whatever SYNC shows (R503). -/
def State.decideEpoch (s : State) (e : Sealed) : State :=
  let alone := s.setSealed { e with decided := true, alone := true }
  match e.answer with
  | .ack => (s.setSealed { e with decided := true }).sendMirror 4 e.num (e.target % 2 ^ 32) 0 []
  | .nack _ => alone.shadowFault 2
  | .none =>
    if !s.hornpipeAny || s.sync == 3 then alone.addSat Reg.TWN_SLIPS 7 0 1
    else if s.slipMax ≤ e.slips then alone.shadowFault 3
    else
      let e1 := { e with target := e.target + 1, slips := e.slips + 1 }
      let s1 := ((s.setSealed e1).addSat Reg.TWN_SLIPS 31 16 1).setFld Reg.TWN_SLIPS 15 8 e1.slips
      (s1.raise .commitSlip).sendMirror 5 e.num (e1.target % 2 ^ 32) 0 []

/-- EPOCH_DECISION (R508): 1 ms before the target of the sealed epoch. -/
def execEpochDecision (s : State) : Res :=
  match s.twin.sealed with
  | some e => if s.active && !e.decided && e.target == s.twin.fclk0 + 1 then .next (s.decideEpoch e) else .next s
  | none => .next s

/-- The lead of an ACK before its target in 10 µs (TWN.FILL.ACK_LEAD). -/
def State.ackLead (s : State) (e : Sealed) : Nat :=
  let edge := tsDiff s.ts (s.reg (Reg.TIM_FCLK_NEXT 0)) + ((e.target - s.twin.fclk0 - 1) * s.periodNs 0 : Nat)
  min (edge.toNat / 10000) 65535

/-- The standby's answer to the sealed epoch reaches the active (R508, R520: a NACK decides). -/
def State.answered (s : State) (epoch : Nat) (a : Answer) : State :=
  match s.twin.sealed with
  | some e =>
    if s.active && e.num == epoch && !e.decided then
      let s1 := s.setSealed { e with answer := a }
      if a = .ack then s1.setFld Reg.TWN_FILL 15 0 (s.ackLead e) else s1
    else s
  | none => s

/-! ### The standby's side of an epoch (R505, R507, R509) -/

/-- A DATA packet is kept until its epoch seals (R505); a malformed one is as one that never came (DESIGN CHOICE,
assumption 66). -/
def State.dataIn (s : State) (m : MirrorPkt) : State :=
  match itemsOf (m.body.length + 1) m.body with
  | some items =>
    if s.standby && decide (s.fld Reg.TWN_LAST_EPOCH 31 0 < m.epoch)
        && !(s.twin.rxData.any fun d => d.epoch == m.epoch && d.index == m.index) then
      let d : RxData := { epoch := m.epoch, index := m.index, body := m.body,
                          items := items.map fun x => { counts := s.fclkCounts, item := x } }
      { s with twin := { s.twin with rxData := s.twin.rxData ++ [d] } }
    else s
  | none => s

/-- The record type of the object that a command's OBJECT names, none where it names none (R138). -/
def CmdRec.objectType (r : CmdRec) : Option Nat :=
  match r.op with
  | 1 | 2 | 3 | 4 => some RT.LAYER
  | 5 | 6 | 7 => some RT.STREAM
  | 0x0D => some RT.TOUCH_HEAD
  | 0x0E => some RT.DECODER_CONTEXT
  | _ => none

/-- The objects that a command names lie in a set of records (R138): that of its OBJECT, and the source of SET_SOURCE. -/
def CmdRec.namesIn (r : CmdRec) (l : List Rec) : Bool :=
  (match r.objectType with
    | some ty => (recBody l ty r.obj).isSome
    | none => true)
    && (r.op != 1 || entryExists l (r.arg 0 % 65536))

/-- The standby holds what an item names (R507): an object of its structure, of a delta that waits or of an image it has
checked, a word of BAR0, a checked image. A command that another member forwarded names its objects there. -/
def State.holdsItem (s : State) : Item → Bool
  | .command q r0 => let r := s.slotCmd r0
    q == 16 || r.namesIn s.ld.recs || r.namesIn s.deltaBase.1
      || s.twin.checked.any fun e => r.namesIn (imgRecs e.2) || r.namesIn (s.deltaBase.1 ++ imgRecs e.2)
  | .write off _ _ => mapped off
  | .image g _ => s.twin.checked.any fun e => e.1 == g
  | .handover => true

/-- The DATA packets of an epoch in INDEX order. -/
def State.epochData (s : State) (e : Nat) : List RxData :=
  sortBy (fun (a b : RxData) => decide (a.index < b.index)) (s.twin.rxData.filter fun d => d.epoch == e)

/-- The answer to a SEAL (R507): two sealed epochs held already; else packets that are missing, a CRC that differs, an
item that names what is not held. During a resync every whole epoch is ACKed and held (R515). -/
def State.answerTo (s : State) (m : MirrorPkt) (t : Trailer) (ds : List RxData) : Answer :=
  if s.sync ≠ 2 ∧ 2 ≤ (s.twin.rxSealed.filter fun x => x.answer == .ack).length then .nack 4
  else if ds.map (·.index) ≠ List.range m.index then .nack 2
  else if Crc.value Crc.crc32c (ds.flatMap (·.body)) ≠ t.crc.toNat then .nack 1
  else if s.sync ≠ 2 ∧ !(ds.all fun d => d.items.all fun x => s.holdsItem x.item) then .nack 3
  else .ack

/-- Send an answer. -/
def State.sendAnswer (s : State) (epoch : Nat) : Answer → State
  | .ack => s.sendMirror 2 epoch 0 0 []
  | .nack c => s.sendMirror 3 epoch c 0 []
  | .none => s

/-- A SEAL of an epoch (R507). -/
def State.sealIn (s : State) (m : MirrorPkt) : State :=
  if !s.standby || decide (m.epoch ≤ s.fld Reg.TWN_LAST_EPOCH 31 0) || s.twin.rxSealed.any (fun x => x.num == m.epoch) then s
  else
    let t := Trailer.ofBytes m.body
    let ds := s.epochData m.epoch
    let a := s.answerTo m t ds
    let e : RxEpoch := { num := m.epoch, items := if a = .ack then ds.flatMap (·.items) else [], trailer := t,
                         target := s.countOf t.target, answer := a, committed := false }
    let w : Twin := { s.twin with rxData := s.twin.rxData.filter fun d => decide (m.epoch < d.epoch),
                                  rxSealed := s.twin.rxSealed ++ [e], nacked := a != .ack }
    { s with twin := w }.sendAnswer m.epoch a

/-- The trailer of a snapshot (R515): the transfer is complete where its SNAPSHOT packets are all here with their CRC;
else the standby asks again. -/
def State.snapEnd (s : State) (m : MirrorPkt) : State :=
  if !(s.standby && s.sync == 2) then s
  else
    let t := Trailer.ofBytes m.body
    let l := sortBy (fun (a b : Nat × List Item) => decide (a.1 < b.1)) s.twin.snap
    let whole := decide (l.map (·.1) = List.range m.index)
      && decide (Crc.value Crc.crc32c ((l.flatMap (·.2)).flatMap Item.bytes) = t.crc.toNat)
    if !whole then s.requestResync (s.fld Reg.TWN_RESYNC 27 24)
    else
      let w : Twin := { s.twin with snapTrailer := some t, snapCounts := s.fclkCounts, snapEpoch := m.epoch,
                                    rxData := s.twin.rxData.filter fun d => decide (m.epoch < d.epoch),
                                    rxSealed := s.twin.rxSealed.filter fun x => decide (m.epoch < x.num) }
      { s with twin := w }.setFld Reg.TWN_RESYNC 31 28 2

/-- Change the held epoch `e`. -/
def State.mapHeld (s : State) (e : Nat) (f : RxEpoch → RxEpoch) : State :=
  { s with twin := { s.twin with rxSealed := s.twin.rxSealed.map fun x => if x.num = e then f x else x } }

/-- COMMIT (R509): it counts where it comes before the target; while a resync is under way the target's place is not
known yet, and it counts. -/
def State.commitIn (s : State) (m : MirrorPkt) : State :=
  if s.standby then
    s.mapHeld m.epoch fun x =>
      if x.answer = .ack ∧ (s.sync = 2 ∨ s.twin.fclk0 < x.target) then { x with committed := true } else x
  else s

/-- SLIP (R507): the epoch's target moves, and the standby repeats its answer. -/
def State.slipIn (s : State) (m : MirrorPkt) : State :=
  if s.standby then
    match s.twin.rxSealed.find? fun x => x.num == m.epoch with
    | some x => (s.mapHeld m.epoch fun y => { y with target := s.countOf m.index, slips := y.slips + 1 }).sendAnswer m.epoch x.answer
    | none => s
  else s

/-! ### Resync (R515) -/

/-- RESYNC_REQ on the active: images where the peer runs another generation, then the snapshot; it waits for a sealed
epoch that commits on the active alone. -/
def State.resyncIn (s : State) (m : MirrorPkt) : State :=
  if !s.active then s
  else
    let s1 := s.setSync 2
    let s2 := if [1, 2, 3, 7].contains m.aux && !s1.condOn 25 2 then (s1.hold .shadowFault true).history 0x06 m.aux [] else s1
    let s3 : State := { s2 with twin := { s2.twin with qual := [] } }
    let pend := (s3.ld.deltas.filter fun d => s3.epochDone d.epoch).map (·.image)
    let s4 := if s3.peerGen = s3.ld.gen then s3 else (s3.ld.images ++ pend).foldl (fun t b => t.sendImage 0 b) s3
    match s4.twin.sealed with
    | some e =>
      if e.alone || (e.answer != .ack && e.answer != .none) then { s4 with twin := { s4.twin with wantSnap := true } }
      else s4.sendSnapshot
    | none => s4.sendSnapshot

/-- Count the bytes of a resync transfer (TWN.RESYNC.KIB). -/
def State.countXfer (s : State) (n : Nat) : State :=
  let x := s.twin.xfer + n
  ({ s with twin := { s.twin with xfer := x } }.setFld Reg.TWN_RESYNC 23 0 (min (x / 1024) (2 ^ 24 - 1))).setFld
    Reg.TWN_RESYNC 31 28 2

/-- A packet of the snapshot (R515). -/
def State.snapIn (s : State) (m : MirrorPkt) : State :=
  match itemsOf (m.body.length + 1) m.body with
  | some items =>
    if s.standby && s.sync == 2 && !(s.twin.snap.any fun e => e.1 == m.index) then
      { s with twin := { s.twin with snap := s.twin.snap ++ [(m.index, items)] } }.countXfer (m.body.length)
    else s
  | none => s

/-! ### Images and verdicts (R510) -/

/-- An IMAGE packet joins the image in transfer: offset 0 begins one, others follow without a gap; a gap loses it. -/
def State.joinImage (s : State) (m : MirrorPkt) : State × Option (List Byte) :=
  let old := if m.index = 0 then [] else s.twin.image
  if m.index ≠ old.length ∨ (m.index ≠ 0 ∧ s.twin.imageLen ≠ m.aux) then
    ({ s with twin := { s.twin with image := [], imageLen := 0 } }, none)
  else
    let b := old ++ m.body
    if b.length < m.aux then ({ s with twin := { s.twin with image := b, imageLen := m.aux } }, none)
    else ({ s with twin := { s.twin with image := [], imageLen := 0 } }, some (b.take m.aux))

/-- A whole image on the standby: one of a resync is kept for it; one that awaits a verdict is checked, and the verdict
answered; where it passed it is kept for its APPLY_IMAGE item. -/
def State.imageIn (s : State) (resync : Bool) (b : List Byte) : State :=
  if resync then
    if s.sync = 2 then { s with twin := { s.twin with fetched := s.twin.fetched ++ [b] } } else s
  else
    let v := s.checkImage b
    let s1 : State := if v.code = 0 then
        { s with twin := { s.twin with checked := s.twin.checked.filter (fun e => e.1 != imgGen b) ++ [(imgGen b, b)] } }
      else s
    s1.sendMirror 9 (s1.fld Reg.TWN_LAST_EPOCH 31 0) (leAt b 12 4) v.code []

/-- An IMAGE packet (R510); EPOCH 0 marks an image of a resync (DESIGN CHOICE, assumption 66). -/
def State.imagePart (s : State) (m : MirrorPkt) : State :=
  if s.standby then
    let r := s.joinImage m
    let u := if m.epoch = 0 ∧ r.1.sync = 2 then r.1.countXfer m.body.length else r.1
    match r.2 with
    | some img => u.imageIn (m.epoch == 0) img
    | none => u
  else s

/-- The image that awaits a verdict: its bytes. -/
def State.awaited (s : State) : Option (List Byte) :=
  match s.ld.deltaVerdict, s.ld.nextVerdict with
  | some d, _ => some d.image
  | none, some n => some n.image
  | none, none => none

/-- The open check ends with a code (R510): an image that passed both checks is accepted, and the result follows. -/
def State.endVerdict (s : State) (r : LoadResult) (code : Nat) : State :=
  let img := s.awaited
  let c := if code = 0 ∧ img = none then 0x32 else code
  let s1 : State := { s with
    twin := { s.twin with verdict := none }
    ld := { s.ld with deltaVerdict := none, nextVerdict := none } }
  let bad : LoadResult := { r with code := c, unprov := false }
  match img with
  | some b => if c = 0 then (s1.acceptImage b).postLoad r else s1.postLoad bad
  | none => s1.postLoad bad

/-- The standby's verdict (R510): INDEX GEN, AUX its code. -/
def State.verdictIn (s : State) (m : MirrorPkt) : State :=
  match s.twin.verdict with
  | some r => if r.gen = m.index then s.endVerdict r m.aux else s
  | none => s

/-- VERDICT_TIMEOUT (R510): 2 s without a VERDICT; STRUCT_REFUSED. -/
def execVerdictTimeout (s : State) : Res :=
  match s.twin.verdict with
  | some r => .next (s.endVerdict r 0x32)
  | none => .next s

/-! ### Signature compare (R512, R513, R516) -/

/-- The body of a SIG packet (R512). -/
def SigFrame.bytes (f : SigFrame) : List Byte :=
  leBytes 1 f.sigs.length ++ leBytes 1 (if f.settling then 1 else 0) ++ [0, 0] ++ f.sigs.flatMap fun w => leBytes 4 w.toNat

/-- The standby sends its signatures of the frame that output `n` has just ended. -/
def State.sendSig (s : State) (n : Nat) : State :=
  match s.twin.own with
  | f :: _ => if s.standby && f.out == n then s.sendMirror 6 (s.fld Reg.TWN_LAST_EPOCH 31 0) n f.frame f.bytes else s
  | [] => s

/-- The standby's signatures of a frame reach the active (R512). -/
def State.sigIn (s : State) (m : MirrorPkt) : State :=
  if s.active then
    let f : SigFrame := { out := m.index, frame := m.aux % 65536, settling := leAt m.body 1 1 != 0,
                          sigs := (List.range (leAt m.body 0 1)).map fun r => w32 (leAt m.body (4 + 4 * r) 4) }
    { s with twin := { s.twin with peer := (f :: s.twin.peer).take 96 } }
  else s

/-- The verdict on one differing region (R513): 0 against the standby, 1 ACTIVE_DOUBT, 2 no head report. -/
def regionVerdict (a p : Word) (head : Option Word) : Nat :=
  match head with
  | none => 2
  | some h => if h = a then 0 else if h = p then 1 else 0

/-- The differing regions of a frame with their verdicts: region, verdict, active's, standby's and head's signature. -/
def State.verdictsOf (s : State) (n : Nat) (mine his : SigFrame) : List (Nat × Nat × Word × Word × Word) :=
  let head := s.twin.reports.find? fun e => e.1 == n && e.2.1 == mine.frame
  ((List.range (min mine.sigs.length his.sigs.length)).filter fun r =>
      mine.sigs.getD r 0 != his.sigs.getD r 0 || s.twin.accBad.contains (64 * n + r)).map fun r =>
    let a := mine.sigs.getD r 0
    let p := his.sigs.getD r 0
    let h := match head with
      | some e => e.2.2[r]?
      | none => none
    (r, regionVerdict a p h, a, p, h.getD 0)

/-- CMP_LAST and the three signatures (R513). -/
def State.showVerdict (s : State) (n f : Nat) (v : Nat × Nat × Word × Word × Word) : State :=
  (((s.setReg Reg.TWN_CMP_LAST (w32 (v.2.1 * 2 ^ 30 + v.1 * 2 ^ 24 + n * 2 ^ 16 + f))).setReg Reg.TWN_CMP_SIG_A v.2.2.1).setReg
    Reg.TWN_CMP_SIG_S v.2.2.2.1).setReg Reg.TWN_CMP_SIG_H v.2.2.2.2

/-- Consecutive frames of ACTIVE_DOUBT of an output. -/
def State.doubts (s : State) (n : Nat) : Nat := Cells.get (fun _ => 0) s.twin.doubt n

/-- Record the runs of an output: OUT_CMP.RUN and the frames of doubt among them. -/
def State.setRuns (s : State) (n run doubt : Nat) : State :=
  { s with twin := { s.twin with doubt := Cells.put (fun _ => 0) s.twin.doubt n doubt } }.setFld (Reg.TWN_OUT_CMP n) 15 8 (min run 255)

/-- A frame of evidence against the standby (R513). A standby that is FAULTED, RESYNCING or UNSYNCED already is faulted
no second time: its run goes on (DESIGN CHOICE, assumption 66). -/
def State.againstStandby (s : State) (n : Nat) : State :=
  let run := (if s.doubts n = 0 then s.fld (Reg.TWN_OUT_CMP n) 15 8 else 0) + 1
  let s1 : State := { s with twin := { s.twin with qual := [] } }
  if s.sigN ≤ run ∧ s.sync ≤ 1 then ((s1.setRuns n 0 0).addSat (Reg.TWN_OUT_CMP n) 7 0 1).shadowFault 1 else s1.setRuns n run 0

/-- A frame of ACTIVE_DOUBT (R513). -/
def State.doubtActive (s : State) (n : Nat) : State :=
  let d := s.doubts n + 1
  let s1 := { s with twin := { s.twin with qual := [] } }.setRuns n d d
  if s.sigN ≤ d ∧ s.bit Reg.TWN_STATUS 22 = false then (s1.setBit Reg.TWN_STATUS 22 true).history 0x0C 0 [] else s1

/-- Matching verdict frames of output `n` in a row. -/
def State.matches_ (s : State) (n : Nat) : Nat := Cells.get (fun _ => 0) s.twin.qual n

/-- A frame whose every region matched (R516): a QUALIFYING standby is QUALIFIED once every running output has had
QUAL_N of them in a row. -/
def State.matchedFrame (s : State) (n : Nat) : State :=
  let s1 := (s.setRuns n 0 0).incWrap (Reg.TWN_OUT_CMP n) 31 16
  if s.sync ≠ 1 then s1
  else
    let s2 : State := { s1 with twin := { s1.twin with qual := Cells.put (fun _ => 0) s1.twin.qual n (s1.matches_ n + 1) } }
    if s2.rasterOuts.all fun o => decide (s2.qualN ≤ s2.matches_ o) then
      { s2 with twin := { s2.twin with qual := [] } }.setSync 0
    else s2

/-- The verdict for frame `f` of output `n` (R512): none for a settling frame, or without its SIG. -/
def State.frameVerdict (s : State) (n f : Nat) : State :=
  let pick := fun (l : List SigFrame) => l.find? fun x => x.out == n && x.frame == f
  match pick s.twin.own, pick s.twin.peer with
  | some mine, some his =>
    if !s.active || mine.settling || his.settling then s
    else
      let vs := s.verdictsOf n mine his
      let s1 := vs.foldl (fun t v => t.showVerdict n f v) s
      if vs.isEmpty then s1.matchedFrame n
      else if vs.any fun v => v.2.1 != 1 then s1.againstStandby n
      else s1.doubtActive n
  | _, _ => s

/-- What a raster line brings the twin: at the latch of frame f + 2 the verdict for f; after the last line the SIG. -/
def State.rasterTwin (before s : State) (n : Nat) : State :=
  match (before.output n).cur, (s.output n).cur with
  | none, some f => s.frameVerdict n ((f.no + 65534) % 65536)
  | some _, none => s.sendSig n
  | _, _ => s

/-- RASTER_LINE (R389): raster line `j` of output `n` begins. -/
def execRasterLine (n j : Nat) (s : State) : Res :=
  .next (if s.ready then State.rasterTwin s (s.rasterLine n j) n else s)

/-! ### The rows of TWIN_MIRROR packets (R504) -/

/-- What a mirror packet does, by its KIND (R504); AUX 1 marks a SEAL that ends a snapshot (DESIGN CHOICE, assumption
66). -/
def State.mirrorAct (s : State) (m : MirrorPkt) : State :=
  match m.kind with
  | 0 => s.dataIn m
  | 1 => if m.aux = 1 then s.snapEnd m else s.sealIn m
  | 2 => s.answered m.epoch .ack
  | 3 => s.answered m.epoch (.nack m.index)
  | 4 => s.commitIn m
  | 5 => s.slipIn m
  | 6 => s.sigIn m
  | 7 => s.resyncIn m
  | 8 => s.snapIn m
  | 9 => s.verdictIn m
  | 10 => s.imagePart m
  | _ => s

/-- A TWIN_MIRROR packet on TWNi; `ok`: the KINDs that act. The second copy is discarded. -/
def State.mirrorIn (s : State) (i : Nat) (ok : Nat → Bool) (p : RxPacket) : State :=
  match mirrorOf p.payload with
  | some m =>
    if ok m.kind then
      let r := s.firstCopy i m
      if r.2 then r.1.mirrorAct m else r.1
    else s
  | none => s

/-- A row of the command table: a TWIN_MIRROR packet on TWNi of one KIND. -/
def State.mirrorRow (s : State) (i kind : Nat) (b : List Byte) : Res :=
  s.packetRow (decide (i < 2)) (120 + i) 0x20 b fun t p => t.mirrorIn i (· == kind) p

/-- MIRROR_DATA (R505). -/
def execMirrorData (i : Nat) (b : List Byte) (s : State) : Res := s.mirrorRow i 0 b

/-- SEAL (R507). -/
def execSeal (i : Nat) (b : List Byte) (s : State) : Res := s.mirrorRow i 1 b

/-- MIRROR_ACK (R508). -/
def execMirrorAck (i : Nat) (b : List Byte) (s : State) : Res := s.mirrorRow i 2 b

/-- MIRROR_NACK (R508). -/
def execMirrorNack (i : Nat) (b : List Byte) (s : State) : Res := s.mirrorRow i 3 b

/-- COMMIT (R509). -/
def execCommit (i : Nat) (b : List Byte) (s : State) : Res := s.mirrorRow i 4 b

/-- SLIP (R507). -/
def execSlip (i : Nat) (b : List Byte) (s : State) : Res := s.mirrorRow i 5 b

/-- SIG (R512). -/
def execSig (i : Nat) (b : List Byte) (s : State) : Res := s.mirrorRow i 6 b

/-- RESYNC_REQ (R515). -/
def execResyncReq (i : Nat) (b : List Byte) (s : State) : Res := s.mirrorRow i 7 b

/-- SNAPSHOT (R515). -/
def execSnapshot (i : Nat) (b : List Byte) (s : State) : Res := s.mirrorRow i 8 b

/-- VERDICT (R510). -/
def execVerdict (i : Nat) (b : List Byte) (s : State) : Res := s.mirrorRow i 9 b

/-- MIRROR_IMAGE (R510). -/
def execMirrorImage (i : Nat) (b : List Byte) (s : State) : Res := s.mirrorRow i 10 b

end Sys2Proof.Machine
end

