-- ==== Sys2Proof/Machine/Cascade.lean ====
section
/-!
DEFINITION. Machine/Cascade.lean: CASCADE_TIME, ring time and ring commits (R524 to R529, R537, R538, R540, R541), ring
control messages (R526, R530, R536, R539) and surfaces that arrive over the ring (R533, R534).
-/
namespace Sys2Proof.Machine

/-! ### CASCADE_TIME packets (R524) -/

/-- A CASCADE_TIME packet read from its payload. -/
def CasTime.ofBytes (b : List Byte) (rx : Word) (up : Nat) : CasTime :=
  let n := fun off => leAt b off 4
  { cid := leAt b 0 1, side := leAt b 1 1, role := leAt b 2 1, hops := leAt b 3 1, beat := n 8, tSend := w32 (n 12),
    tEcho := w32 (n 16), tEchoRx := w32 (n 20), epoch := w32 (n 24), fclk0 := n 28, fclk0Next := w32 (n 32),
    almTai := BitVec.ofNat 64 (leAt b 36 8), almTs := w32 (n 44), pendGen := n 48, commitGen := n 52, commitCount := n 56,
    rx := rx, upAt := up }

/-- PEND_GEN: the highest GEN of a delta that is pending here and, on a twin, committed (R524, R537); 0 none. -/
def State.pendGen (s : State) : Nat := ((s.ld.deltas.filter fun d => s.epochDone d.epoch).map (·.gen)).foldl max 0

/-- COMMIT_GEN and COMMIT_COUNT that the master announces; 0 and 0 of any other device, or with nothing to announce. -/
def State.announcement (s : State) : Nat × Nat :=
  if !s.ringMaster then (0, 0)
  else match s.cas.abort, s.cas.ring with
    | some g, _ => (g, 0xFFFF_FFFF)
    | none, some (g, k) => (g, k % 2 ^ 32)
    | none, none => (0, 0)

/-- The 64 bytes of a CASCADE_TIME packet on cascade port `i`, as made here. -/
def State.casTime (s : State) (i : Nat) : List Byte :=
  let echo := s.cas.echo.getD i (0, 0)
  let a := s.announcement
  leBytes 1 s.cascadeId ++ leBytes 1 s.ringSide ++ leBytes 1 (if s.active then 1 else if s.role = 0 then 2 else 0)
    ++ leBytes 1 s.ownHops ++ [0, 0, 0, 0] ++ leBytes 4 (s.cas.beat % 2 ^ 32) ++ leBytes 4 s.ts.toNat
    ++ leBytes 4 echo.1.toNat ++ leBytes 4 echo.2.toNat ++ leBytes 4 (s.fld Reg.TIM_EPOCH 31 0)
    ++ leBytes 4 (s.twin.fclk0 % 2 ^ 32) ++ leBytes 4 (s.reg (Reg.TIM_FCLK_NEXT 0)).toNat
    ++ leBytes 8 (s.pair Reg.ETH_ALM_TAI_LO).toNat ++ leBytes 4 (s.reg Reg.ETH_ALM_TS32).toNat ++ leBytes 4 s.pendGen
    ++ leBytes 4 a.1 ++ leBytes 4 a.2 ++ leBytes 4 (Config.uid.toNat % 2 ^ 32)

/-- The cascade ports' numbers. -/
abbrev casPortNo : List Nat := [0, 1, 2, 3]

/-! ### Ring commits (R537, R538) -/

/-- Pending deltas of GEN `g` and above are discarded (R538). -/
def State.ringAbort (s : State) (g : Nat) : State :=
  let s1 : State := { s with
    ld := { s.ld with deltas := s.ld.deltas.filter fun d => decide (d.gen < g) }
    cas := { s.cas with ring := s.cas.ring.filter fun r => decide (r.1 < g) } }
  s1.addSat Reg.CAS_COMMIT_INFO 31 24 1

/-- A new announcement of the master reaches a member (R537, R538). -/
def State.hearCommit (s : State) (g k : Nat) : State :=
  if g = 0 then { s with cas := { s.cas with heard := none } }
  else if s.cas.heard = some (g, k) then s
  else
    let s1 : State := { s with cas := { s.cas with heard := some (g, k) } }
    if k = 0xFFFF_FFFF then s1.ringAbort g else { s1 with cas := { s1.cas with ring := some (g, s1.countOf k) } }

/-- Is GEN `g` beyond the ring commits announced? -/
def State.ringNew (s : State) (g : Nat) : Bool :=
  match s.cas.ring with
  | some (h, _) => decide (h < g)
  | none => decide (0 < g)

/-- The master looks at what its members have reported (R537, R538): the first report starts COMMIT_WAIT; once every
member has reported GEN g or more, it announces g for three commit points on; an abort is announced until no member
reports the GEN. -/
def State.ringCommit (s : State) : State :=
  if !s.ringMaster then s
  else
    let gens := (List.range s.members).map fun m => if m = 0 then s.pendGen else s.fld (Reg.CAS_MEMBER_GEN m) 31 0
    match s.cas.abort with
    | some a => if gens.all fun g => decide (g < a) then { s with cas := { s.cas with abort := none } } else s
    | none =>
      let g := gens.foldl min (gens.foldl max 0)
      let new := gens.filter s.ringNew
      if s.ringNew g && (List.range s.members).all s.memberAlive then
        { s with cas := { s.cas with ring := some (g, s.twin.fclk0 + 3),
                                     first := s.cas.first.filter fun f => decide (g < f.1) } }
      else match s.cas.first, new with
        | none, h :: t => { s with cas := { s.cas with first := some (t.foldl min h, s.uptime) } }
        | _, _ => s

/-- COMMIT_WAIT_EXPIRE (R538): the GEN first reported has not been reported by every member in time. -/
def execCommitWaitExpire (s : State) : Res :=
  match s.cas.first with
  | some (g, _) =>
    if s.ringMaster && s.cas.abort.isNone then
      .next ({ s with cas := { s.cas with abort := some g, first := none } }.ringAbort g)
    else .next s
  | none => .next s

/-! ### Sending (R524) -/

/-- The device last seen as master changes (CAS.STATUS.MASTER_CHANGES). -/
def State.seeMaster (s : State) (dev : Nat) : State :=
  let s1 : State := { s with cas := { s.cas with master := some dev } }
  match s.cas.master with
  | some d => if d = dev then s1 else s1.addSat Reg.CAS_STATUS 7 0 1
  | none => s1

/-- CASCADE_TIME_SEND (R524): a packet on each enabled cascade port of a device in a ring, one whose structure waits for
CASCADE_TIME too (R175). -/
def execCascadeTimeSend (s : State) : Res :=
  if s.ready && s.inRing then
    let s1 := { s with cas := { s.cas with beat := s.cas.beat + 1 } }
    let s2 := (if s1.ringMaster then s1.seeMaster s1.ringSide else s1).ringCommit
    let s3 := s2.setReg (Reg.CAS_MEMBER_GEN s2.cascadeId) (w32 s2.pendGen)
    .next (casPortNo.foldl (fun t i => t.sendPacket (112 + i) 0x30 0 0 (t.casTime i)) s3)
  else .next s

/-! ### Upstream (R527 to R529, R541) -/

/-- Cascade port `i` delivers: it is up and aligned (R525). -/
def State.casLive (s : State) (i : Nat) : Bool := s.casUp i && s.aligned (112 + i)

/-- The upstream port of R527: an up port with the lowest HOPS below n, in the order W, WX, E, EX. -/
def State.bestUpstream (s : State) : Option Nat :=
  if !s.ringFollower then none
  else
    let l := [1, 3, 0, 2].filterMap fun i => match s.cas.direct.getD i none with
      | some t => if s.casLive i && decide (t.hops < s.members) then some (i, t.hops) else none
      | none => none
    match l with
    | [] => none
    | e :: t => some (t.foldl (fun (a b : Nat × Nat) => if b.2 < a.2 then b else a) e).1

/-- Time comes from upstream port `new`, or from none (R527, R541): another device is a new master; without one the
master is lost, and PTP takes over where PTP_FALLBACK is set. The servo waits while the supervisor restarts (R116). -/
def State.setUpstream (s : State) (new : Option Nat) : State :=
  if s.cas.upstream = new ∨ !s.svpUp then s
  else
    let dev := fun (o : Option Nat) => o.map s.neighbour
    let s1 := casPortNo.foldl (fun t i => t.setBit (Reg.CAS_LINK i) 29 (new == some i))
      { s with cas := { s.cas with upstream := new } }
    match new with
    | none =>
      let s2 := { s1 with cas := { s1.cas with upEpoch := none } }.loseMaster
      if s2.ptpFallback then s2.selectMaster else s2
    | some _ =>
      if dev new = dev s.cas.upstream then s1
      else
        let s2 : State := { s1 with tim := { s1.tim with master := none }, cas := { s1.cas with upEpoch := none } }
        let s3 := (s2.setBit Reg.TIM_STATUS 28 true).setFld Reg.TIM_STATUS 27 24 0
        if s3.servo = 0 ∧ !s3.servoHeld then s3.servoTo 1 else s3

/-- Choose the upstream again. -/
def State.chooseUpstream (s : State) : State := s.setUpstream s.bestUpstream

/-- The offset of R527 of a direct packet; none before the neighbour has one to echo. -/
def CasTime.offset (t : CasTime) : Option Int :=
  if t.tEcho = 0 ∧ t.tEchoRx = 0 then none
  else some ((tsDiff t.tSend t.rx - tsDiff t.tEcho t.tEchoRx) / 2)

/-- FCLK0 takes its edges and its count from the upstream (R529), on any device but a standby. -/
def State.followUpstream (s : State) (t : CasTime) (off : Int) : State :=
  if s.standby || !(s.fclkOf 0).on then s
  else
    let r := s.followEdge 0 (t.fclk0Next + BitVec.ofInt 32 off)
    let n := s.countOf (unsignedN 32 ((t.fclk0 : Int) - r.2))
    { r.1 with twin := { r.1.twin with fclk0 := n } }

/-- The echo of a packet is no older than 16 CT_PERIOD: what R255 asks of a path delay, with CT_PERIOD for the Sync interval
(R527). -/
def State.echoFresh (s : State) (t : CasTime) : Bool := decide (tsDiff t.tEchoRx t.tSend ≤ (16 * s.ctPeriod * 1000 : Nat))

/-- A sample from an upstream that had been lost is one of a new master (R259, R527). -/
def State.regainUpstream (s : State) : State :=
  if s.bit Reg.TIM_STATUS 28 || !s.svpUp then s
  else
    let s1 := (s.setBit Reg.TIM_STATUS 28 true).setFld Reg.TIM_STATUS 27 24 0
    if s1.servo = 0 ∧ !s1.servoHeld then s1.servoTo 1 else s1

/-- A direct packet from the upstream is a sample of the servo (R527, R528): a new EPOCH arms a step first. -/
def State.upstreamSample (s0 : State) (t : CasTime) : State :=
  match t.offset with
  | none => s0
  | some off =>
    if !s0.echoFresh t then s0
    else
    let s := s0.regainUpstream
    let armed := match s.cas.upEpoch with
      | some e => e != t.epoch
      | none => false
    let s1 := if armed then s.armStep else s
    let s2 := { s1 with cas := { s1.cas with upEpoch := some t.epoch, off := BitVec.ofInt 32 off } }.setReg Reg.CAS_RING_OFFSET (satS32 off)
    let s3 := if s2.svpUp then s2.sample off else s2
    s3.followUpstream t (off + tsDiff s2.ts s3.ts)

/-- A structure that waits for ring time starts once the servo is in TRACK on it and FCLK0 is locked (R175). -/
def State.alignedStart (s : State) : State :=
  match s.ld.next with
  | some n =>
    if n.phase = .cascadeWait && s.ringAligned then
      { s with ld := { s.ld with next := some { n with phase := .card } } }
    else s
  | none => s

/-! ### Receiving CASCADE_TIME (R525) -/

/-- A packet made by the neighbour itself: the port is up where R522 expects that device; it may be the upstream's
sample. -/
def State.directIn (s : State) (i : Nat) (t : CasTime) : State :=
  let good := t.cid == (s.neighbour i).1 && t.side == (s.neighbour i).2
  let was := s.casUp i
  let s1 := (((s.setFld (Reg.CAS_LINK i) 26 23 (t.cid * 2 + t.side)).setBit (Reg.CAS_LINK i) 30 (!good)).setBit
    (Reg.CAS_LINK i) 31 good)
  let s2 := if was && !good then s1.addSat (Reg.CAS_LINK i) 15 0 1 else s1
  let c : Cascade :=
    { s2.cas with direct := s2.cas.direct.set i (if good then some t else none), echo := s2.cas.echo.set i (t.tSend, t.rx) }
  let s3 : State := { s2 with cas := c }
  let s4 := s3.chooseUpstream.ringAlarms
  if s4.cas.upstream = some i then s4.upstreamSample t else s4

/-- The device of another member, or of this one, that a packet comes from. -/
def CasTime.dev (t : CasTime) : Nat := t.cid * 2 + t.side % 2

/-- A device of which nothing has been heard. -/
abbrev CasDev.unheard : CasDev := { beats := [], role := 0, pendGen := 0, upAt := 0 }

/-- What has been heard of a device. -/
def State.casDev (s : State) (d : Nat) : CasDev := Cells.get (fun _ => CasDev.unheard) s.cas.devs d

/-- Replace it. -/
def State.setCasDev (s : State) (d : Nat) (x : CasDev) : State :=
  { s with cas := { s.cas with devs := Cells.put (fun _ => CasDev.unheard) s.cas.devs d x } }

/-- A copy of a packet, whichever it is, has come in on port `i`: the way there is whole (R534). -/
def State.heardVia (s : State) (i : Nat) (t : CasTime) : State :=
  let x := s.casDev t.dev
  s.setCasDev t.dev (if i % 2 = 0 then { x with east := some s.uptime } else { x with west := some s.uptime })

/-- The first copy of a packet: the member lives, what it reports, what the master announces (R525, R537, R540). What a
member reports reaches the others by such copies alone, so a forwarded one counts here too (DEDUCED, assumption 77). -/
def State.heardOf (s0 : State) (t : CasTime) : State :=
  let y := s0.casDev t.dev
  let s := s0.setCasDev t.dev { y with beats := (t.beat :: y.beats).take 16, role := t.role, pendGen := t.pendGen, upAt := s0.uptime }
  let c : Cascade := { s.cas with lost := s.cas.lost.filter fun m => m != t.cid }
  let s1 := { s with cas := c }.ringAlarms
  let s2 := if t.role ≠ 0 ∧ t.cid < 8 then s1.setReg (Reg.CAS_MEMBER_GEN t.cid) (w32 t.pendGen) else s1
  let s3 := if t.cid = 0 ∧ t.role ≠ 0 ∧ !s2.ringMaster then (s2.seeMaster t.dev).hearCommit t.commitGen t.commitCount else s2
  s3.ringCommit

/-- A CASCADE_TIME packet on cascade port `i`: the neighbour's own packet first, then its first copy from whatever port,
forwarded to the far side while FWD + 1 stays below n (R525). -/
def State.casTimeIn (s : State) (i : Nat) (b : List Byte) : State :=
  if !s.inRing ∨ b.length ≠ 64 then s
  else
    let t := CasTime.ofBytes b s.ts s.uptime
    let fwd := leAt b 4 1
    let s1 := (if fwd = 0 then s.directIn i t else s).heardVia i t
    if (s1.casDev t.dev).beats.contains t.beat || (t.cid == s1.cascadeId && t.side == s1.ringSide) then s1.alignedStart
    else
      let s2 := s1.heardOf t
      let s3 := if t.cid ≠ s2.cascadeId ∧ fwd + 1 < s2.members then
          (dirPorts (1 - i % 2)).foldl (fun u q => u.sendPacket q 0x30 0 0 (b.set 4 (BitVec.ofNat 8 (fwd + 1)))) s2
        else s2
      s3.alignedStart

/-- CASCADE_TIME_RX (R527): a CASCADE_TIME packet on cascade port `i`: 0 E, 1 W, 2 EX, 3 WX. -/
def execCascadeTimeRx (i : Nat) (b : List Byte) (s : State) : Res :=
  s.packetRow (decide (i < 4)) (112 + i) 0x30 b fun t p => if p.chan = 0 then t.casTimeIn i p.payload else t

/-- MEMBER_LOST (R540): nothing of member `m` has arrived for CT_MISS periods. -/
def execMemberLost (m : Nat) (s : State) : Res :=
  if s.has RT.CASCADE 0 && decide (m < s.members) && m != s.cascadeId && !s.cas.lost.contains m then
    let c : Cascade := { s.cas with lost := s.cas.lost ++ [m], devs := s.cas.devs.filter fun e => e.1 / 2 != m }
    .next (({ s with cas := c }.addSat (Reg.CAS_MEMBER m) 15 0 1).ringAlarms)
  else .next s

/-! ### The Almanac of a member (R265, R528) -/

/-- ALMANAC (R265): the supervisor publishes a new Almanac, that of its upstream on a ring member with one, and aligned
clocks are corrected. -/
def execAlmanac (s : State) : Res :=
  if s.ready && s.tim.running && s.svpUp then
    .next (fclks.foldl State.trimClock s.publish)
  else .next s

/-! ### Ring control messages (R526) -/

/-- A ring control message: KIND, destination, TAG, content. -/
structure RingMsg where
  kind : Nat
  cid  : Nat
  side : Nat
  tag  : Nat
  body : List Byte
  deriving DecidableEq, Repr

/-- A message read from the payload of a CHAN 1 packet. -/
def RingMsg.ofBytes (b : List Byte) : RingMsg :=
  { kind := leAt b 0 1, cid := leAt b 1 1, side := leAt b 2 1, tag := leAt b 3 1, body := b.drop 4 }

/-- Answer a message: to the device that its TAG names. -/
def State.answerRing (s : State) (m : RingMsg) (kind : Nat) (body : List Byte) : State :=
  s.sendRing kind (m.tag % 8) (m.tag / 8 % 2) m.tag body

/-! ### Subscriptions (R530, R532) -/

/-- Link rate of a send in bit/s (R532). -/
def sendLink (l : List Rec) (i : Nat) : Frac :=
  match streamRec l i with
  | some x =>
    let img : Img := { w := x.width, h := x.height, fmt := x.format }
    let bytes := (List.range (Fmt.planes img.fmt)).foldl (fun (a : Nat) p =>
      let w := Fmt.planeW img.fmt p img.w
      a + Fmt.planeH img.fmt p img.h * ((List.range (cdiv w 4096)).foldl (fun (c : Nat) k =>
        c + cdiv (min 4096 (w - 4096 * k) * Fmt.depth img.fmt) 8 + 31) 0)) 0
    let f := sendRate l i x
    Frac.norm (f.1 * 8 * bytes) f.2
  | none => (0, 1)

/-- The sends of one direction keep within LINK_SHARE of 26.784 Gb/s (R523, R530). -/
def State.linkFits (s : State) (d : Nat) : Bool :=
  let l := s.cas.sends.filter fun e => s.dirTo e.member == d
  let r := Frac.sum (l.map fun e => sendLink s.records e.strm)
  decide (r.1 * 100 ≤ s.linkShare * 26784000000 * r.2)

/-- The code of a subscription of member `m` to stream `i` (R530, R542): OBJECT_GONE without the stream, BAD_ARG for one
without a surface, which no cascade transmission takes (R317; the code: DESIGN CHOICE, assumption 62), a budget of R39
with the send in it, BUDGET_DRAM beyond LINK_SHARE. -/
def State.subscribeCode (s : State) (m i : Nat) : Nat :=
  let t : State := { s with cas := { s.cas with sends := s.cas.sends ++ [{ member := m, strm := i }] } }
  if !(s.stream i).on then 7
  else if (s.stream i).mode = 0 then 2
  else if t.budgetNow ≠ 0 then t.budgetNow
  else if t.linkFits (t.dirTo m) then 0 else 0x18

/-- SUBSCRIBE arrives (R530): a send begins, or the refusal counts; one that runs already is confirmed. -/
def State.subscribeIn (s : State) (m : RingMsg) : State :=
  let i := leAt m.body 0 2
  let member := m.tag % 8
  let runs := s.cas.sends.any fun e => e.member == member && e.strm == i
  let code := if runs then 0 else s.subscribeCode member i
  let s1 := if runs then s
    else if code = 0 then { s with cas := { s.cas with sends := s.cas.sends ++ [{ member := member, strm := i }] } }
    else s.addSat Reg.CAS_SUBS 15 8 1
  s1.countSubs.answerRing m 3 (leBytes 2 i ++ leBytes 1 code)

/-- UNSUBSCRIBE arrives (R530). -/
def State.unsubscribeIn (s : State) (m : RingMsg) : State :=
  State.countSubs { s with cas := { s.cas with
    sends := s.cas.sends.filter fun e => !(e.member == m.tag % 8 && e.strm == leAt m.body 0 2) } }

/-- SUB_ANS arrives (R530): the subscription whose TAG it carries learns the code. -/
def State.subAnsIn (s : State) (m : RingMsg) : State :=
  let i := leAt m.body 0 2
  let code := leAt m.body 2 1
  let c : Cascade := { s.cas with subs := s.cas.subs.map fun (x : CasSub) =>
    if x.src = i ∧ x.tag = m.tag then (if code = 0 then { x with ok := true } else { x with refused := true }) else x }
  let s1 := State.countSubs { s with cas := c }
  if code = 0 then s1 else s1.addSat Reg.CAS_SUBS 15 8 1

/-- SUBSCRIBE_RETRY (R530): once per second every refused subscription is sent again. -/
def execSubscribeRetry (s : State) : Res :=
  let l := s.cas.subs.filter (·.refused)
  let c : Cascade := { s.cas with subs := s.cas.subs.map fun (x : CasSub) => { x with refused := false } }
  .next (l.foldl (fun (t : State) x => t.sendSubscribe x) { s with cas := c })

/-! ### Register relay (R539) -/

/-- RELAY_REQ arrives (R539): the relay master performs the access as a host access with the requester's X state. A
write that is not relayed (R114, R302) is answered ERROR (DESIGN CHOICE, assumption 60). -/
def State.relayIn (s : State) (m : RingMsg) : State :=
  let flags := leAt m.body 0 1
  let x := flags.testBit 1
  let off := leAt m.body 1 3
  let v := w32 (leAt m.body 4 4)
  let ans := fun (t : State) (code : Nat) (d : Word) => t.answerRing m 5 (leBytes 1 code ++ leBytes 4 d.toNat)
  if flags.testBit 0 && notRelayed off v then ans s 5 0
  else if flags.testBit 0 then
    let r := s.busWrite 5 0 x off 4 v
    ans r.1 (if !r.2 then 5 else if writeRefused x off then 4 else 0) 0
  else
    let r := s.busRead 5 0 x off 4
    match r.2 with
    | .error => ans r.1 5 0
    | .data d => if Reg.isX off && !x then ans r.1 4 0 else ans r.1 0 d

/-- RELAY_ANS arrives (R539). -/
def State.relayAnsIn (s : State) (m : RingMsg) : State :=
  match s.cas.relay with
  | some r => if r.tag = m.tag then s.relayResult (leAt m.body 0 1) (w32 (leAt m.body 1 4)) else s
  | none => s

/-- RELAY_TIMEOUT (R539). -/
def execRelayTimeout (s : State) : Res :=
  match s.cas.relay with
  | some _ => .next (s.relayResult 3 0)
  | none => .next s

/-! ### Forwarded commands (R536) -/

/-- CMD_FWD arrives at the device that holds the slot (R536, R138 to R141); a standby leaves it to its active. The X
state is the holder's (DESIGN CHOICE, assumption 66). -/
def State.cmdFwdIn (s : State) (m : RingMsg) : State :=
  if s.standby ∨ m.body.length < 32 then s
  else if s.cas.forwarded.isEmpty then s.forwardCheck m.tag (CmdRec.ofBytes m.body)
  else { s with cas := { s.cas with forwarded := s.cas.forwarded ++ [(m.tag, CmdRec.ofBytes m.body)] } }

/-- The wait of queue `q` for an answer ends with a code (R536, R141): a queue that waits for it goes on, one that an ABORT
or an error has stopped meanwhile stays so (R152). -/
def State.endForward (s : State) (q code : Nat) (r : CmdRec) : State :=
  let index := (s.queue q).waitIndex
  let t0 := s.qUnwait q
  let t := if t0.qState q = 2 then t0.qGo q else t0
  if code = 0 then t.holdRemote q index r else (t.cmdEvent q index 1 code true r).raise .cmdRefused

/-- CMD_ANS arrives: the queue whose forwarded command carries the TAG goes on. -/
def State.cmdAnsIn (s : State) (m : RingMsg) : State :=
  (List.range 16).foldl (fun t q => match (t.queue q).wait with
    | .forward tag r => if tag = m.tag then t.endForward q (leAt m.body 0 1) r else t
    | _ => t) s

/-- CMD_FWD_TIMEOUT (R536): queue `q` has had no answer within RELAY_TIMEOUT. -/
def execCmdFwdTimeout (q : Nat) (s : State) : Res :=
  match (s.queue q).wait with
  | .forward _ r => if q < 16 then .next (s.endForward q 7 r) else .next s
  | _ => .next s

/-! ### The rows of ring messages -/

/-- What a message does at its destination, by its KIND (R526). -/
def State.ringAct (s : State) (m : RingMsg) : State :=
  match m.kind with
  | 1 => s.subscribeIn m
  | 2 => s.unsubscribeIn m
  | 3 => s.subAnsIn m
  | 4 => s.relayIn m
  | 5 => s.relayAnsIn m
  | 6 => s.cmdFwdIn m
  | 7 => s.cmdAnsIn m
  | _ => s

/-- A message on cascade port `i` (R526): it acts here, or goes on toward its member in the direction it travels. -/
def State.ringIn (s : State) (i : Nat) (ok : Nat → Bool) (p : RxPacket) : State :=
  let m := RingMsg.ofBytes p.payload
  if !s.inRing ∨ p.chan ≠ 1 ∨ p.payload.length < 4 ∨ !ok m.kind then s
  else if m.cid ≠ s.cascadeId then s.passRing (1 - i % 2) m.cid m.side p.payload
  else if !s.has RT.CASCADE 0 then s
  else if m.side = 2 ∨ m.side = s.ringSide then s.ringAct m else s

/-- A row of the command table: a ring control message of one KIND on cascade port `i`. -/
def State.ringRow (s : State) (i kind : Nat) (b : List Byte) : Res :=
  s.packetRow (decide (i < 4)) (112 + i) 0x30 b fun t p => t.ringIn i (· == kind) p

/-- SUBSCRIBE (R530). -/
def execSubscribe (i : Nat) (b : List Byte) (s : State) : Res := s.ringRow i 1 b

/-- UNSUBSCRIBE (R530). -/
def execUnsubscribe (i : Nat) (b : List Byte) (s : State) : Res := s.ringRow i 2 b

/-- SUB_ANS (R530). -/
def execSubAns (i : Nat) (b : List Byte) (s : State) : Res := s.ringRow i 3 b

/-- RELAY_REQ (R539). -/
def execRelayReq (i : Nat) (b : List Byte) (s : State) : Res := s.ringRow i 4 b

/-- RELAY_ANS (R539). -/
def execRelayAns (i : Nat) (b : List Byte) (s : State) : Res := s.ringRow i 5 b

/-- CMD_FWD (R536). -/
def execCmdFwd (i : Nat) (b : List Byte) (s : State) : Res := s.ringRow i 6 b

/-- CMD_ANS (R536). -/
def execCmdAns (i : Nat) (b : List Byte) (s : State) : Res := s.ringRow i 7 b

/-! ### Surfaces (R533, R534) -/

/-- A SURFACE_SEG segment header with its body (R531). -/
structure Segment where
  kind  : Nat
  cid   : Nat
  side  : Nat
  onAir : Bool
  dst   : Nat
  plane : Nat
  strm  : Nat
  frame : Nat
  line  : Nat
  first : Nat
  count : Nat
  body  : List Byte
  deriving DecidableEq, Repr

/-- A segment read from its payload. -/
def Segment.ofBytes (b : List Byte) : Segment :=
  let src := leAt b 1 1
  { kind := leAt b 0 1, cid := src % 8, side := src / 8 % 2, onAir := src.testBit 4, dst := leAt b 2 1, plane := leAt b 3 1,
    strm := leAt b 4 2, frame := leAt b 6 2, line := leAt b 8 2, first := leAt b 10 2, count := leAt b 12 2, body := b.drop 16 }

/-- The frame that arrives for stream `i` here from the sending device of SIDE `side`. -/
def State.copy (s : State) (i side : Nat) : Option CasCopy := Cells.get (fun _ => none) s.cas.copies (2 * i + side)

/-- Replace it. -/
def State.setCopy (s : State) (i side : Nat) (c : Option CasCopy) : State :=
  { s with cas := { s.cas with copies := Cells.put (fun _ => none) s.cas.copies (2 * i + side) c } }

/-- A frame discarded on cascade port `p` (DROP.RX). -/
def State.dropRx (s : State) (p : Nat) : State := s.addSat (Reg.CAS_DROP p) 15 0 1

/-- FRAME `f` of stream `i` has been taken. -/
def State.hasTaken (s : State) (i f : Nat) : Bool := Cells.get (fun _ => 0) s.cas.taken i == f + 1

/-- A copy of FRAME `f` of stream `i` is arriving, or waits. -/
def State.arriving (s : State) (i f : Nat) : Bool :=
  [0, 1].any fun side => match s.copy i side with
    | some c => c.inc.alive == f
    | none => false

/-- FS of a frame for stream `i` on port `p`: a new copy begins (R533); the first copy of a frame brings the frame's first
byte to its STREAM channels (R415). -/
def State.surfaceBegin (s : State) (p i : Nat) (g : Segment) : State :=
  let x := s.stream i
  let b := g.body
  let w := leAt b 2 2
  let h := leAt b 4 2
  let fmt := leAt b 6 1
  let inc : Incoming := { alive := g.frame, cap := w32 (leAt b 8 4), ptp := false, epoch := s.fld Reg.TIM_EPOCH 7 0,
                          w := w, h := h, fmt := fmt, img := { w := w, h := h, fmt := fmt, tag := s.free },
                          bad := !(w == x.width && h == x.height && fmt == x.format && b.length == 32) }
  let fl := leAt b 22 1
  let c : CasCopy := { onAir := g.onAir, inc := inc, state := leAt b 16 1, age := leAt b 17 3, new := fl.testBit 4,
                       fault := fl.testBit 3, latch := w32 (leAt b 12 4), port := p }
  let t := s.nextFree.setCopy i g.side (some c)
  if s.hasTaken i g.frame || s.arriving i g.frame then t else t.chkStreamStart i

/-- DATA of a frame in progress: its samples, each of them once (R531, R533). -/
def CasCopy.data (c : CasCopy) (g : Segment) : CasCopy :=
  let f := c.inc
  let key := g.plane * 16384 + g.line
  let fits := decide (g.frame = f.alive) && decide (g.plane < Fmt.planes f.fmt) && decide (g.line < Fmt.planeH f.fmt g.plane f.h)
    && decide (1 ≤ g.count) && decide (g.count ≤ 4096) && decide (g.first + g.count ≤ Fmt.planeW f.fmt g.plane f.w)
    && decide (g.body.length = cdiv (g.count * Fmt.depth f.fmt) 8)
    && f.segs.all fun e => e.1 != key || decide (e.2.1 + e.2.2 ≤ g.first) || decide (g.first + g.count ≤ e.2.1)
  let inc := if fits && !f.bad then
      { f with img := f.img.setRun g.plane g.first g.line (unpackBits (Fmt.depth f.fmt) g.count g.body),
               segs := (key, g.first, g.count) :: f.segs }
    else { f with bad := true }
  { c with inc := inc, count := c.count + 1 }

/-- FE of a frame: it passes the test of R533. -/
def CasCopy.whole (c : CasCopy) (g : Segment) : Bool :=
  let f := c.inc
  let all := (List.range (Fmt.planes f.fmt)).foldl (fun (a : Nat) p => a + Fmt.planeW f.fmt p f.w * Fmt.planeH f.fmt p f.h) 0
  !f.bad && decide (g.frame = f.alive) && decide (f.segs.foldl (fun (a : Nat) e => a + e.2.2) 0 = all)
    && decide (c.count = leAt g.body 0 4) && decide (f.img.frameCrc = w32 (leAt g.body 4 4))

/-- A whole frame is taken by stream `i` (R533, R439). The frame start carries no sub-cause of a composite state: it is
taken as 0 (DESIGN CHOICE, assumption 52). -/
def State.surfaceTake (s : State) (i : Nat) (c : CasCopy) : State :=
  let f := c.inc
  let age := c.age + ((tsDiff c.latch s.ts) / 100000).toNat
  let st : Stated := { age := satN 24 age, state := if c.state = 0xFF then .live else Fresh.ofCode c.state, sub := 0, new := c.new,
                       fault := c.fault, composite := c.state != 0xFF, latchAge := satN 24 age, latch := s.ts }
  let s1 : State := { s with cas := { s.cas with taken := Cells.put (fun _ => 0) s.cas.taken i (f.alive + 1) } }
  let s2 := s1.openFrame i { f with segs := [] }
  match (s2.stream i).cur with
  | some e =>
    if e.dropped then s2.discardFrame i
    else s2.offerFrame i { alive := f.alive, cap := f.cap, ptp := f.ptp, epoch := f.epoch, img := f.img, stated := some st }
  | none => s2

/-- The copy from SIDE `side` leaves: taken where it is whole and its FRAME has not been taken, else discarded. -/
def State.takeCopy (s : State) (i side : Nat) (c : CasCopy) : State :=
  let s1 := s.setCopy i side none
  if s1.hasTaken i c.inc.alive then s1.dropRx c.port else s1.surfaceTake i c

/-- The copy from SIDE `side` fails the test of R533: it is discarded, and where it was the ON_AIR copy, the other
device's copy of the FRAME is taken if it is whole. -/
def State.failCopy (s : State) (i side : Nat) (c : CasCopy) : State :=
  let s0 := (s.setCopy i side none).dropRx c.port
  let s1 := if ([0, 1].all fun d => (s0.copy i d).isNone) then s0.chkStreamDrop i else s0
  if !c.onAir then s1
  else
    let s2 : State := { s1 with cas := { s1.cas with failed := Cells.put (fun _ => 0) s1.cas.failed i (c.inc.alive + 1) } }
    match s2.copy i (1 - side) with
    | some o => if o.done && o.inc.alive == c.inc.alive then s2.takeCopy i (1 - side) o else s2
    | none => s2

/-- The ON_AIR copy of the FRAME of a whole copy without ON_AIR may still come (R533): it has not failed, and the other
device is not beyond it and still reaches this one. -/
def State.awaitsOnAir (s : State) (i side : Nat) (c : CasCopy) : Bool :=
  Cells.get (fun _ => 0) s.cas.failed i != c.inc.alive + 1 && match s.copy i (1 - side) with
    | some o => !o.onAir || (s.aligned (112 + o.port) && decide ((o.inc.alive + 65536 - c.inc.alive) % 65536 % 32768 = 0
        ∨ 32768 < (o.inc.alive + 65536 - c.inc.alive) % 65536))
    | none => true

/-- FE of a frame for stream `i` from SIDE `side` (R533): what fails is discarded; a whole ON_AIR copy is taken, and the
other device's copy of the FRAME discarded; a whole copy without ON_AIR waits for the ON_AIR copy. -/
def State.surfaceEnd (s : State) (i : Nat) (g : Segment) : State :=
  match s.copy i g.side with
  | none => s
  | some c =>
    if c.done then s
    else if !c.whole g then s.failCopy i g.side c
    else if c.onAir then
      let s1 := s.takeCopy i g.side c
      match s1.copy i (1 - g.side) with
      | some o => if o.done && o.inc.alive == c.inc.alive then (s1.setCopy i (1 - g.side) none).dropRx o.port else s1
      | none => s1
    else if s.hasTaken i c.inc.alive || !s.awaitsOnAir i g.side c then s.takeCopy i g.side c
    else s.setCopy i g.side (some { c with done := true })

/-- FS of a frame for stream `i` (R533): a copy of that device that is still open fails, and one that waits for an
ON_AIR copy that never came is taken (DESIGN CHOICE, assumption 67); a new copy begins. -/
def State.surfaceStart (s : State) (p i : Nat) (g : Segment) : State :=
  (match s.copy i g.side with
    | some c => if c.done then s.takeCopy i g.side c else s.failCopy i g.side c
    | none => s).surfaceBegin p i g

/-- Cascade port `i` is down: the copies that were arriving on it fail (R542). -/
def State.failPort (s : State) (i : Nat) : State :=
  (s.cas.copies.filterMap fun e => e.2.map fun c => (e.1, c)).foldl (fun t e =>
    if e.2.port = i ∧ !e.2.done then t.failCopy (e.1 / 2) (e.1 % 2) e.2 else t) s

/-- A segment for this member, for every stream that subscribes to the sender's stream. -/
def State.surfaceFor (s : State) (p : Nat) (g : Segment) : State :=
  (s.cas.subs.filter fun (x : CasSub) => x.member == g.cid && x.src == g.strm).foldl (fun t x =>
    match g.kind with
    | 0 => t.surfaceStart p x.strm g
    | 1 => match t.copy x.strm g.side with
      | some c => if c.done then t else t.setCopy x.strm g.side (some (c.data g))
      | none => t
    | 2 => t.surfaceEnd x.strm g
    | _ => t) s

/-- A SURFACE_SEG packet on cascade port `i` (R533, R534): received, or relayed out of both ports of the far side; one
from a cross port only while the same-side port of its direction is down. -/
def State.surfaceIn (s : State) (i : Nat) (p : RxPacket) : State :=
  let g := Segment.ofBytes p.payload
  if !s.inRing ∨ p.payload.length < 16 then s
  else if g.dst = s.cascadeId then (if s.has RT.CASCADE 0 then s.surfaceFor i g else s)
  else if i < 2 ∨ !s.casLive (i - 2) then
    (dirPorts (1 - i % 2)).foldl (fun t q => t.sendPacket q 0x31 0 0 p.payload) s
  else s

/-! ### Ports that go down (R525) -/

/-- A port that is no longer aligned is not up; one that is aligned again within CT_MISS periods of the neighbour's packet
is (R525): LINK.UP, DOWNS, RING_BREAK, the upstream. -/
def State.casPorts (s : State) : State :=
  let gone := casPortNo.filter fun i => s.casUp i && !s.aligned (112 + i)
  let back := casPortNo.filter fun i => !s.casUp i && s.aligned (112 + i) && (s.cas.direct.getD i none).isSome
  if gone.isEmpty && back.isEmpty then s
  else
    let s1 := gone.foldl (fun t i => ((t.setBit (Reg.CAS_LINK i) 31 false).addSat (Reg.CAS_LINK i) 15 0 1).failPort i) s
    (back.foldl (fun t i => t.setBit (Reg.CAS_LINK i) 31 true) s1).chooseUpstream.ringAlarms

/-- CASCADE_PORT_DOWN (R525): no direct packet on cascade port `i` for CT_MISS periods. -/
def execCascadePortDown (i : Nat) (s : State) : Res :=
  if s.ready && decide (i < 4) then
    let s1 : State := { s with cas := { s.cas with direct := s.cas.direct.set i none } }
    let s2 := if s1.casUp i then ((s1.setBit (Reg.CAS_LINK i) 31 false).addSat (Reg.CAS_LINK i) 15 0 1).failPort i else s1
    .next s2.chooseUpstream.ringAlarms
  else .next s

/-- SURFACE_SEG_RX (R533): a SURFACE_SEG packet on cascade port `i`. -/
def execSurfaceSegRx (i : Nat) (b : List Byte) (s : State) : Res :=
  s.packetRow (decide (i < 4)) (112 + i) 0x31 b fun t p => t.surfaceIn i p

end Sys2Proof.Machine
end

