-- ==== Sys2Proof/Machine/Host.lean ====
section
/-!
DEFINITION. Machine/Host.lean: the host ports (R73 to R84): register writes through a port, BAR2, SPI frames, the PCIe
link, and the interrupt registers.
-/
namespace Sys2Proof.Machine

/-! ### Register writes -/

/-- A 32-bit write through host port `p` at BAR0 offset `off` (R4, R7, R84, R103). -/
def State.portWrite (s : State) (p : Port) (off : Nat) (v : Word) : Res :=
  if s.access p then .next (s.busWrite 0 (portCode p) s.xOpen off 4 v).1 else .next s

/-- REGISTER_WRITE (R7). -/
def execRegisterWrite (p : Port) (off : Nat) (v : Word) (s : State) : Res := s.portWrite p off v

/-- LEVEL_KEY (R14): a write of SYS.LEVEL_KEY. -/
def execLevelKey (p : Port) (v : Word) (s : State) : Res := s.portWrite p Reg.SYS_LEVEL_KEY v

/-- KEY_WINDOW_EXPIRE (R14): the attempt ends. -/
def execKeyWindowExpire (s : State) : Res := .next { s with host := { s.host with keyArmed := false } }

/-- LEVEL_STATUS_CLOSE (R97): a write of 1 to SYS.LEVEL_STATUS.CLOSE. -/
def execLevelStatusClose (p : Port) (s : State) : Res := s.portWrite p Reg.SYS_LEVEL_STATUS 1

/-- BAR2_BASE_WRITE (R76). -/
def execBar2BaseWrite (p : Port) (v : Word) (s : State) : Res := s.portWrite p Reg.HIF_BAR2_BASE v

/-- INT_STATUS_WRITE (R91): a write of INT_STATUS of block `k`. -/
def execIntStatusWrite (p : Port) (k : Nat) (v : Word) (s : State) : Res := s.portWrite p (Reg.INT_STATUS k) v

/-- INT_FORCE (R86): a write of INT_FORCE of block `k`, an X register. -/
def execIntForce (p : Port) (k : Nat) (v : Word) (s : State) : Res := s.portWrite p (Reg.INT_FORCE k) v

/-- MSIX_UNMASK (R91): a write of 0 to the vector control word of entry `vec` of the MSI-X table. -/
def execMsixUnmask (p : Port) (vec : Nat) (s : State) : Res := s.portWrite p (0x2_8000 + 16 * (vec % 64) + 12) 0

/-- The error response that a port sees (R103, R82). -/
def State.answerError (s : State) (p : Port) : State :=
  match p with
  | .pcie => s.emit .cplAbort
  | .spi =>
    let t := s.emit (.spi [0xFF, 0xFF, 0xFF, 0xFF])
    ({ t with host := { t.host with spiAccessErr := true } } : State).raise .spiAccess

/-- The bytes of an access cross a 4 KiB boundary, or it has more than 16 beats (R102). -/
def burstBad (addr bytes beats : Nat) : Bool :=
  decide (16 < beats) || decide (addr / 4096 ≠ (addr + max bytes 1 - 1) / 4096)

/-- The QoS of an access of bus master `m` (R99): a DMA engine has that of the descriptor it carries out. -/
def State.qosNow (s : State) (m : Nat) : Nat :=
  match s.cmd.dmas.find? fun d => d.engine + 2 == m with
  | some d => d.qos
  | none => s.qosOf m

/-- DEFAULT_TARGET_ACCESS (R103, R102): an access of bus master `m` that the default target answers, or whose burst is
too long: `beats` words of `width` bytes at a BAR0 offset, or beats of 16 bytes at a DRAM address. A request of the host
is split by HIF, so that it exceeds no burst limit. An access that breaks no rule has no effect here. -/
def execDefaultTargetAccess (p : Port) (m : Nat) (write dram : Bool) (addr width beats : Nat) (s : State) : Res :=
  if !s.ready || (m = 0 && !s.access p) then .next s
  else
    let kind :=
      if m ≠ 0 && burstBad addr (beats * (if dram then 16 else 4)) beats then some 2
      else if dram then (if s.dramSize < addr + 16 * max beats 1 then some 0 else none)
      else if width ≠ 4 ∨ addr % 4 ≠ 0 then some 1
      else if (List.range (max beats 1)).all fun k => mapped (addr + 4 * k) then none
      else some 0
    match kind with
    | none => .next s
    | some k =>
      let t := s.busError k (m % 7) (s.qosNow (m % 7)) write dram addr 0xFF
      .next (if m = 0 && !write then t.answerError p else t)

/-! ### BAR2 (R76, R77) -/

/-- A raw write of DRAM bytes by the host. -/
def State.rawWrite (s : State) (a : Nat) (l : List Byte) : State :=
  (s.dramStore a l).rawSurfaces a (a + l.length)

/-- DRAM bytes that a decoder core has left in a layout that the spec does not give (R222). -/
def State.opaqueRange (s : State) (r : Nat × Nat) : Bool := s.mem.laid.any fun x => dramMeet x r

/-- `n` raw DRAM bytes from `a` as the host reads them, and whether a line of them is poison: open bytes where a decoder
core's own layout stands, and where they are poison (R294). -/
def State.rawRead (s : State) (a n : Nat) : State × List Byte × Bool :=
  let x := s.portRead 6 a n
  let t := x.1
  let free := freeFill t.free n
  match x.2 with
  | none => (t.nextFree, free, true)
  | some l =>
    if t.opaqueRange (a, a + n) then
      (t.nextFree, (List.range n).map fun k => (if t.laidAt (a + k) then free else l).getD k 0, false)
    else (t, l, false)

/-- Largest payload the endpoint takes and largest read request it accepts, in bytes (R73). -/
abbrev pcieMaxPayload : Nat := 512
abbrev pcieMaxRead : Nat := 4096

/-- A BAR2 request that the endpoint accepts (R73): not empty, within the window and its limits. -/
def bar2Accepted (off len : Nat) (write : Bool) : Bool :=
  decide (0 < len) && decide (off + len ≤ 2 ^ 28) && decide (len ≤ if write then pcieMaxPayload else pcieMaxRead)

/-- BAR2_ACCESS (R77): a read of `n` bytes, or a write of `data`, at BAR2 offset `off`. A request beyond the limits of R73
is not accepted and does nothing (DESIGN CHOICE, assumption 75). -/
def execBar2Access (off n : Nat) (data : Option (List Byte)) (s : State) : Res :=
  let len := match data with
    | some l => l.length
    | none => n
  let a := s.fld Reg.HIF_BAR2_BASE 17 0 * 2 ^ 20 + off
  if !(s.access .pcie && bar2Accepted off len data.isSome) then .next s
  else if s.dramSize < a + len then
    let t := s.busError 0 0 (s.qosOf 0) data.isSome true a 0xFF
    .next (if data.isSome then t else t.emit .cplAbort)
  else
    let host := s.hostRange a len
    if !host && !s.xOpen then
      let t := s.refuseX 3 data.isSome off
      .next (if data.isSome then t else t.emit (.cplBytes (List.replicate len 0) false))
    else
      match data with
      | some l => .next (if host then s.rawWrite a l else (s.rawWrite a l).countX)
      | none =>
        let r := s.rawRead a len
        .next (r.1.emit (.cplBytes r.2.1 r.2.2))

/-! ### The PCIe link (R74, R91, R165) -/

/-- Vectors that wait unmasked are sent as the link comes up. -/
def State.sendPending (s : State) : State :=
  (List.range 64).foldl (fun (t : State) v =>
    if t.host.msixPending.getLsbD v && !t.vecMasked v then
      (t.dropVector v).sendVector v
    else t) s

/-- HOST_LINK_RESET (R165): the PCIe configuration and the MSI-X settings are reset, the link is down; everything else
runs on. -/
def execHostLinkReset (s : State) : Res :=
  if s.inert then .next s
  else
  let t : State := { s with host := { s.host with pcieUp := false, cfg := {}, msixPending := 0 } }
  .next ((t.clearRange 0x2_8000 0x2_8400).hold .pcieUncorr false)

/-- PCIE_LINK_LOSS (R74): D3hot or link loss cuts host access through PCIe. -/
def execPcieLinkLoss (s : State) : Res := if s.inert then .next s else .next { s with host := { s.host with pcieUp := false } }

/-- PCIE_LINK_UP (R74): host access through PCIe resumes, the function being enumerated (assumption 51); a vector
pending and unmasked is sent. -/
def execPcieLinkUp (s : State) : Res :=
  if s.inert then .next s
  else
  let t : State := { s with host := { s.host with pcieUp := true, cfg := { s.host.cfg with enumerated := true } } }
  .next (t.sendPending.hold .pcieUncorr false)

/-- PCIE_ERROR (R106): the link detects a correctable error, or an uncorrectable one, whose condition lasts until the
link has been reset or is up again (assumption 24); AER keeps either (R73). -/
def execPcieError (uncorrectable : Bool) (s : State) : Res :=
  if s.inert then .next s
  else
    let c := s.host.cfg
    let t : State := { s with host := { s.host with
      cfg := { c with uncorr := c.uncorr || uncorrectable, corr := c.corr || !uncorrectable } } }
    .next (if uncorrectable then t.hold .pcieUncorr true else t.raise .pcieCorr)

/-- What the endpoint answers a configuration read with. -/
inductive ConfigAnswer where
  /-- nothing: the device is held in reset -/
  | silent
  /-- Configuration Request Retry Status (R172) -/
  | retry
  | data (w : Word)
  /-- a register that the PCIe specification defines and this spec gives no value of -/
  | other
  deriving DecidableEq, Repr

/-- The answer to a read of configuration register `reg` of function 0 (R73, R172). No row brings a configuration
request, so no step uses it. -/
def State.configRead (s : State) (reg : Nat) : ConfigAnswer :=
  if s.inert then .silent
  else if !s.ready then .retry
  else if reg = 0 then .data 0x4024_1F5A
  else if reg = 8 then .data 0x0380_00B1
  else .other

/-! ### SPI frames (R78 to R83) -/

/-- CRC-16/CCITT-FALSE over the bytes of a frame, opcode first (R80). -/
def spiCrc (l : List Byte) : Nat := Crc.value Crc.crc16 l

/-- The flags of GET_STATUS that describe the last data frame (R83). -/
def State.spiFlags (s : State) (access crc : Bool) : State :=
  { s with host := { s.host with spiAccessErr := access, spiCrcErr := crc } }

/-- What a write frame asks for once it has passed its checks: address and words. -/
inductive SpiWrite where
  /-- a length or CRC failure -/
  | badFrame
  /-- an unaligned address -/
  | unaligned
  | write (addr : Nat) (words : List Word)
  deriving DecidableEq, Repr

/-- The checks of a write frame at the rise of SPI_CS_N (R79, R81), in the order length, CRC, alignment: `alen` address
bytes, then count, data and CRC; `frame`: the bytes after the opcode. -/
def spiCheck (op alen : Nat) (frame : List Byte) : SpiWrite :=
  let n := (frame.getD alen 0).toNat + 1
  if frame.length ≠ alen + 1 + 4 * n + 2 ∨ 64 < n then .badFrame
  else if spiCrc (BitVec.ofNat 8 op :: frame.take (alen + 1 + 4 * n)) ≠ beNat (frame.drop (alen + 1 + 4 * n)) then .badFrame
  else
    let a := beNat (frame.take alen)
    if a % 4 ≠ 0 then .unaligned
    else .write a ((List.range n).map fun k => w32 (beNat (slice frame (alen + 1 + 4 * k) 4)))

/-- A write frame: its words are written in order, or nothing is (R81). An unaligned one, which makes no access, shows in
GET_STATUS as ACCESS_ERR beside CRC_ERR, as it sets SPI_ACCESS (DESIGN CHOICE, assumption 70). -/
def State.spiWrite (s : State) (op alen : Nat) (frame : List Byte) (f : State → Nat → Word → State) : Res :=
  if !s.ready then .next s
  else
    match spiCheck op alen frame with
    | .badFrame => .next ((s.spiFlags false true).raise .spiCrc)
    | .unaligned => .next ((s.spiFlags true true).raise .spiAccess)
    | .write a ws =>
      .next ((List.range ws.length).foldl (fun (t : State) k => f t (a + 4 * k) (ws.getD k 0)) (s.spiFlags false false))

/-- Words `k`, `k` + 1, … of a read frame, each read just before it is driven; an error response drives 0xFFFF_FFFF and
sets SPI_ACCESS (R82). Answers the state and the data bytes. -/
def State.spiWords (s : State) (f : State → Nat → State × BusRead) (a : Nat) : Nat → State × List Byte
  | 0 => (s, [])
  | n + 1 =>
    let p := s.spiWords f a n
    match f p.1 (a + 4 * n) with
    | (t, .data v) => (t, p.2 ++ beBytes 4 v.toNat)
    | (t, .error) =>
      (({ t with host := { t.host with spiAccessErr := true } } : State).raise .spiAccess, p.2 ++ [0xFF, 0xFF, 0xFF, 0xFF])

/-- A read frame of count field `count` at `addr`, of which `driven` words are driven before SPI_CS_N rises: all of
them, and then the CRC, in a whole frame (R79, R82). -/
def State.spiRead (s : State) (op alen addr count driven : Nat) (f : State → Nat → State × BusRead) : Res :=
  if !s.ready then .next s
  else
    let hdr := BitVec.ofNat 8 op :: beBytes alen addr ++ beBytes 1 count
    let n := min driven (count % 256 + 1)
    if 63 < count % 256 then
      .next (((s.spiFlags true false).raise .spiAccess).emit (.spi (List.replicate (4 * driven) 0xFF)))
    else
      let p := (s.spiFlags false false).spiWords f addr n
      let crc := if n = count % 256 + 1 then beBytes 2 (spiCrc (hdr ++ p.2)) else []
      .next (p.1.emit (.spi (p.2 ++ crc)))

/-- SPI_REG_WRITE (R81): `frame` holds the bytes after the opcode. -/
def execSpiRegWrite (frame : List Byte) (s : State) : Res :=
  s.spiWrite 0x02 3 frame fun t a v => if t.ready then (t.busWrite 0 1 t.xOpen a 4 v).1 else t

/-- SPI_REG_READ (R82). -/
def execSpiRegRead (addr count driven : Nat) (s : State) : Res :=
  s.spiRead 0x0B 3 (addr % 2 ^ 24) count driven fun t a => t.busRead 0 1 t.xOpen a 4

/-- SPI_DRAM_WRITE (R81): a word beyond installed DRAM goes to the default target (R103). -/
def execSpiDramWrite (frame : List Byte) (s : State) : Res :=
  s.spiWrite 0x12 5 frame fun t a v =>
    if t.dramSize < a + 4 then t.busError 0 0 (t.qosOf 0) true true a 0xFF
    else t.rawWrite a (leBytes 4 v.toNat)

/-- SPI_DRAM_READ (R82). -/
def execSpiDramRead (addr count driven : Nat) (s : State) : Res :=
  s.spiRead 0x13 5 (addr % 2 ^ 40) count driven fun t a =>
    if a % 4 ≠ 0 then (t.busError 1 0 (t.qosOf 0) false true a 0xFF, .error)
    else if t.dramSize < a + 4 then (t.busError 0 0 (t.qosOf 0) false true a 0xFF, .error)
    else
      let r := t.rawRead a 4
      (r.1, .data (w32 (leNat r.2.1)))

/-- The GET_STATUS byte (R83). -/
def State.spiStatus (s : State) : Byte :=
  BitVec.ofNat 8 (b2n s.xOpen * 128 + b2n s.host.spiAccessErr * 4 + b2n s.host.spiCrcErr * 2 + b2n s.ready)

/-- GET_STATUS (R83). A device held in reset or stopped for heat drives nothing (R545, R551). -/
def execGetStatus (s : State) : Res := .next (if s.inert then s else s.emit (.spi [s.spiStatus]))

/-- SPI_OTHER_OPCODE (R78): ignored until SPI_CS_N rises. -/
def execSpiOtherOpcode (_op : Nat) (s : State) : Res := .next s

end Sys2Proof.Machine
end

