-- ==== Sys2Proof/Machine/Ptp.lean ====
section
/-!
DEFINITION. Machine/Ptp.lean: PTP messages on the ETH ports (R252, R253, R255): stamps, the delay mechanism and the offset
samples it gives; and the reception of an Ethernet frame (R217).
-/
namespace Sys2Proof.Machine

/-! ### Stamps (R253) -/

/-- One nanosecond in the unit of PTP times here: fifths of a nanosecond, and corrections in 2^-16 ns, are whole. -/
abbrev ptpNs : Int := 327680

/-- The stamp of this instant: full device time with its fraction in fifths of a nanosecond (R253). -/
def State.stamp (s : State) : Int :=
  (s.fullNow * 5 + ((s.tim.acc.toNat % 2 ^ 40) * 5 / 2 ^ 40 : Nat)) * 65536

/-- Nanoseconds of a PTP time, rounded to nearest (DESIGN CHOICE, assumption 58). -/
def ptpRound (v : Int) : Int := (2 * v + ptpNs) / (2 * ptpNs)

/-- The delay mechanism of port `n`. -/
def State.ptpOf (s : State) (n : Nat) : PtpPort := Cells.get (fun _ => {}) s.tim.ports n

/-- Replace the delay mechanism of port `n`. -/
def State.setPtp (s : State) (n : Nat) (x : PtpPort) : State :=
  { s with tim := { s.tim with ports := Cells.put (fun _ => {}) s.tim.ports n x } }

/-- Send a PTP message on a port: type, sequence, the port it answers, and the stamp it carries in fifths of a
nanosecond. -/
def State.sendPtp (s : State) (n type seq dst : Nat) (stamp : Int) : State :=
  s.sendEth n 3 [type, seq, dst, (stamp / 65536).toNat]

/-- A delay request leaves port `n` and is stamped: Delay_Req (type 1), or Pdelay_Req (type 2) (R252, R253). -/
def State.sendRequest (s : State) (n : Nat) : State :=
  let x := s.ptpOf n
  (s.sendPtp n (if s.p2p then 2 else 1) x.reqSeq 0 0).setPtp n
    { x with reqSeq := (x.reqSeq + 1) % 65536, req := some (x.reqSeq, s.stamp), resp := none }

/-- A path delay has been measured on port `n`. -/
def State.pathDelay (s : State) (n : Nat) (d : Int) : State :=
  s.setPtp n { s.ptpOf n with delay := some d, age := 0, req := none, resp := none }

/-! ### Messages -/

/-- A Sync of `src` on port `n`, with its Follow_Up where it has one, is complete: `d` is its stamp minus origin and
corrections (R253, R255). From the selected master, with a path delay no more than 16 of its Sync messages old, it is a
valid sample, corrected for the path delay; one of another sender measures nothing. Then the port asks for the delay
again: of its master end to end, or of its peer (DESIGN CHOICE, assumption 58). -/
def State.syncDone (s : State) (n src : Nat) (d : Int) : State :=
  let mine := match s.tim.master with
    | some m => m.port == n && m.src == src
    | none => false
  if !mine then (if s.p2p then s.sendRequest n else s)
  else
    let x := { s.ptpOf n with last := some d, age := (s.ptpOf n).age + 1 }
    let s1 := s.setPtp n x
    let s2 := match x.delay with
      | some p => if x.age ≤ 16 then s1.sample (ptpRound (d - p)) else s1
      | none => s1
    s2.sendRequest n

/-- A PTP message on a port that takes part in PTP, stamped as it arrives. -/
def State.ptpMsg (s : State) (n : Nat) (m : PtpMsg) : State :=
  let x := s.ptpOf n
  let now := s.stamp
  match m with
  | .announce src gm set utc => s.announceIn ⟨⟨n, src, gm⟩, set⟩ utc
  | .sync src seq two origin corr =>
    if two then s.setPtp n { x with sync := (src, seq, now, corr * 5) :: x.sync.filter fun e => e.1 != src || e.2.1 != seq }
    else s.syncDone n src (now - origin * ptpNs - corr * 5)
  | .followUp src seq origin corr =>
    match x.sync.find? fun e => e.1 == src && e.2.1 == seq with
    | some (_, _, t, c) =>
      (s.setPtp n { x with sync := x.sync.filter fun e => e.1 != src || e.2.1 != seq }).syncDone n src
        (t - c - origin * ptpNs - corr * 5)
    | none => s
  | .delayResp src seq receive corr =>
    match x.req, x.last, s.tim.master with
    | some (q, t3), some d, some k =>
      if q = seq ∧ k.port = n ∧ k.src = src ∧ !s.p2p then
        s.pathDelay n ((d + (receive * ptpNs - corr * 5 - t3)) / 2)
      else s
    | _, _, _ => s
  | .pdelayReq src seq =>
    if s.p2p then
      let s1 := s.sendPtp n 3 seq src now
      s1.sendPtp n 0xA seq src s1.stamp
    else s
  | .pdelayResp seq two receipt corr =>
    match x.req with
    | some (q, t1) =>
      if q ≠ seq ∨ !s.p2p then s
      else if two then s.setPtp n { x with resp := some (seq, now, receipt * ptpNs - corr * 5) }
      else s.pathDelay n ((now - t1 - corr * 5) / 2)
    | none => s
  | .pdelayFollowUp seq origin corr =>
    match x.req, x.resp with
    | some (_, t1), some (q, t4, t2) =>
      if q = seq then s.pathDelay n ((t4 - t1 - (origin * ptpNs + corr * 5) + t2) / 2) else s
    | _, _ => s
  | .other => s

/-- A PTP message on ETHn in a domain. -/
def State.ptpIn (s : State) (n domain : Nat) (m : PtpMsg) : State := if s.ptpPort n domain then s.ptpMsg n m else s

/-! ### Frames (R217, R224) -/

/-- ETH_FRAME_RX (R217): checks in order; a datagram goes to its context, a PTP message on the port's VLAN acts on its
port (R252), ARP and ND
requests for the port's own addresses are answered; queries and RTCP act through commands of their own. -/
def execEthFrameRx (n : Nat) (f : EthFrame) (s : State) : Res :=
  if !(decide (n < 8) && s.ethUp n) then .next s
  else if f.fifoFull then .next (s.ethCount n 5)
  else
    let s1 := s.ethCount n 0
    if !f.fcsOk then .next (s1.ethCount n 1)
    else if (if s.bit (Reg.ETH_PORT_CTRL n) 28 then 9216 else 1522) < f.len then .next (s1.ethCount n 2)
    else if !f.valid then .next (s1.ethCount n 3)
    else if !f.sumOk then .next (s1.ethCount n 4)
    else match f.content with
      | .ptp d m => .next (if f.vlan = s1.fld (Reg.ETH_PORT_CTRL n) 11 0 then (s1.ethCount n 7).ptpIn n d m else s1.ethCount n 3)
      | .ask a => .next (if s1.ownAddress n a then s1.sendEth n 2 (a.map (·.toNat)) else s1)
      | .igmp => .next s1
      | .mld => .next s1
      | .other => .next (s1.ethCount n 3)
      | k =>
        match s1.matches n f with
        | [] => .next (s1.ethCount n 3)
        | l => .next (l.foldl (fun t e => t.ctxPacket e.1 e.2 k) (s1.ethCount n 6))

end Sys2Proof.Machine
end

