-- ==== Sys2Proof/Machine/Receive.lean ====
section
/-!
DEFINITION. Machine/Receive.lean: blocks that arrive on a receive lane and the packets they complete (R181 to R189,
R191), and lanes that go idle (R186, R187).
-/
namespace Sys2Proof.Machine

/-- A wanted packet acts by its type and the role of its port (R191, R198, R204, R468, R504, R524, R526, R531). -/
def State.deliver (port : Nat) (s : State) (p : RxPacket) : State :=
  if port < 40 then
    match p.type with
    | 0x01 => s.fsIn port p
    | 0x02 => s.lineIn port p
    | 0x03 => s.feIn port p
    | _ => s
  else if p.type = 0x3F then s.idleIn port p
  else if port < 88 then
    match p.type with
    | 0x11 => s.headStatusIn port p
    | 0x12 => s.touchRawIn port p
    | _ => s
  else if port < 116 then
    match p.type with
    | 0x30 => if p.chan = 0 then s.casTimeIn (port - 112) p.payload else s.ringIn (port - 112) (fun _ => true) p
    | 0x31 => s.surfaceIn (port - 112) p
    | _ => s
  else
    match p.type with
    | 0x20 => s.mirrorIn (port - 120) (fun _ => true) p
    | 0x21 => s.heartbeatIn (port - 120) p
    | _ => s

/-- The end of a packet that a block completed on a port (R189). -/
def State.packetEnd (port : Nat) (s : State) (e : PacketEnd) : State :=
  match e with
  | .whole b => s.packetIn port b (State.deliver port)
  | .badLength => s.packetLost port

/-- Receive lane `k` of an enabled port (R170, R186). -/
def State.laneOn (s : State) (port k : Nat) : Bool :=
  s.ready && s.linkEnabled port && decide (k < (s.link port).lanes.length)

/-- BLOCK_RECEIVED (R183): the 640 bits of 64 symbols arrive on lane `k` of a port, the first at symbol time `t`. -/
def execBlockReceived (port k t : Nat) (bits : List Bool) (s : State) : Res :=
  if s.laneOn port k && bits.length == 640 then
    let r := s.laneBits port k t bits
    .next (r.2.foldl (State.packetEnd port) r.1).casPorts
  else .next s

/-- EIDLE_ENTER (R186): a control block with EIDLE_ENTER reaches a LOCKED lane of an enabled port; its header takes one
sequence (R184). -/
def execEidleEnter (port k : Nat) (s : State) : Res :=
  let x := (s.link port).lane k
  if s.laneOn port k && x.st == 2 then
    .next ((s.laneTo port k { x with seq := (x.seq + 1) % 64 }).laneIdle port k true).casPorts
  else .next s

/-- LANE_IDLE_DETECT (R186): the lane amplitude falls below the idle threshold; `ck`: CK is still seen. -/
def execLaneIdleDetect (port k : Nat) (ck : Bool) (s : State) : Res :=
  if s.laneOn port k then
    let l := s.link port
    let s1 := s.setLink port { l with ck := ck && decide (1 < l.lanes.length) }
    if ((s1.link port).lane k).st = 4 then .next s1 else .next (s1.laneIdle port k false).casPorts
  else .next s

/-- LANE_ACTIVE_DETECT (R187): an idle lane becomes active; `ck`: the receiver saw CK throughout the idle period. -/
def execLaneActiveDetect (port k : Nat) (ck : Bool) (s : State) : Res :=
  let l := s.link port
  let x := l.lane k
  if s.laneOn port k && x.st == 4 then
    let kept := ck && decide (s.uptime - x.idleAt < cyclesPerMs)
    .next ((s.setLink port { l with ck := true }).laneTo port k
      { x with st := if kept then 3 else 0, run := 0, eidle := false, blk := []
               bits := if kept then { x.bits with cnt := 0 } else {} })
  else .next s

end Sys2Proof.Machine
end

