-- ==== Sys2Proof/Machine/Dispatch.lean ====
section
/-!
DEFINITION. Machine/Dispatch.lean: the effect of every command, one arm per constructor of Instr.
-/
namespace Sys2Proof.Machine

def exec (i : Instr) (s : State) : Host.Outcome State Fault Refusal :=
  match i with
  | .registerWrite p off v => Sys2Proof.Machine.execRegisterWrite p off v s
  | .levelKey p v => Sys2Proof.Machine.execLevelKey p v s
  | .keyWindowExpire => Sys2Proof.Machine.execKeyWindowExpire s
  | .levelStatusClose p => Sys2Proof.Machine.execLevelStatusClose p s
  | .bar2BaseWrite p v => Sys2Proof.Machine.execBar2BaseWrite p v s
  | .bar2Access off n data => Sys2Proof.Machine.execBar2Access off n data s
  | .defaultTargetAccess p m write dram addr width beats => Sys2Proof.Machine.execDefaultTargetAccess p m write dram addr width beats s
  | .intStatusWrite p k v => Sys2Proof.Machine.execIntStatusWrite p k v s
  | .intForce p k v => Sys2Proof.Machine.execIntForce p k v s
  | .msixUnmask p vec => Sys2Proof.Machine.execMsixUnmask p vec s
  | .hostLinkReset => Sys2Proof.Machine.execHostLinkReset s
  | .pcieLinkLoss => Sys2Proof.Machine.execPcieLinkLoss s
  | .spiRegWrite frame => Sys2Proof.Machine.execSpiRegWrite frame s
  | .spiRegRead addr count driven => Sys2Proof.Machine.execSpiRegRead addr count driven s
  | .spiDramWrite frame => Sys2Proof.Machine.execSpiDramWrite frame s
  | .spiDramRead addr count driven => Sys2Proof.Machine.execSpiDramRead addr count driven s
  | .getStatus => Sys2Proof.Machine.execGetStatus s
  | .spiOtherOpcode op => Sys2Proof.Machine.execSpiOtherOpcode op s
  | .getVersion p => Sys2Proof.Machine.execGetVersion p s
  | .imageLoad p => Sys2Proof.Machine.execImageLoad p s
  | .imageCheck => Sys2Proof.Machine.execImageCheck s
  | .loadAck p v => Sys2Proof.Machine.execLoadAck p v s
  | .copyWrite p => Sys2Proof.Machine.execCopyWrite p s
  | .copyCheck p => Sys2Proof.Machine.execCopyCheck p s
  | .keyProvision p => Sys2Proof.Machine.execKeyProvision p s
  | .keyRevoke p => Sys2Proof.Machine.execKeyRevoke p s
  | .keyStatus p => Sys2Proof.Machine.execKeyStatus p s
  | .genFloorSet p => Sys2Proof.Machine.execGenFloorSet p s
  | .patchInstall p => Sys2Proof.Machine.execPatchInstall p s
  | .patchRemove p => Sys2Proof.Machine.execPatchRemove p s
  | .healthReport p => Sys2Proof.Machine.execHealthReport p s
  | .historyRead p => Sys2Proof.Machine.execHistoryRead p s
  | .mboxBadOp p op => Sys2Proof.Machine.execMboxBadOp p op s
  | .mboxReply ok => Sys2Proof.Machine.execMboxReply ok s
  | .mboxTimeout => Sys2Proof.Machine.execMboxTimeout s
  | .mboxAck p v => Sys2Proof.Machine.execMboxAck p v s
  | .lockstepMismatch => Sys2Proof.Machine.execLockstepMismatch s
  | .supervisorRestartDone => Sys2Proof.Machine.execSupervisorRestartDone s
  | .nop m => Sys2Proof.Machine.execNop m s
  | .movi m => Sys2Proof.Machine.execMovi m s
  | .movh m => Sys2Proof.Machine.execMovh m s
  | .mov m => Sys2Proof.Machine.execMov m s
  | .add m => Sys2Proof.Machine.execAdd m s
  | .addi m => Sys2Proof.Machine.execAddi m s
  | .sub m => Sys2Proof.Machine.execSub m s
  | .and m => Sys2Proof.Machine.execAnd m s
  | .andi m => Sys2Proof.Machine.execAndi m s
  | .or m => Sys2Proof.Machine.execOr m s
  | .ori m => Sys2Proof.Machine.execOri m s
  | .xor m => Sys2Proof.Machine.execXor m s
  | .shl m => Sys2Proof.Machine.execShl m s
  | .shr m => Sys2Proof.Machine.execShr m s
  | .cmp m => Sys2Proof.Machine.execCmp m s
  | .cmpi m => Sys2Proof.Machine.execCmpi m s
  | .br m => Sys2Proof.Machine.execBr m s
  | .call m => Sys2Proof.Machine.execCall m s
  | .ret m => Sys2Proof.Machine.execRet m s
  | .ld m => Sys2Proof.Machine.execLd m s
  | .st m => Sys2Proof.Machine.execSt m s
  | .inTap m => Sys2Proof.Machine.execInTap m s
  | .inAnc m => Sys2Proof.Machine.execInAnc m s
  | .inLine m => Sys2Proof.Machine.execInLine m s
  | .inProposal m => Sys2Proof.Machine.execInProposal m s
  | .inResume m => Sys2Proof.Machine.execInResume m s
  | .outAlarm m => Sys2Proof.Machine.execOutAlarm m s
  | .outGpio m => Sys2Proof.Machine.execOutGpio m s
  | .outNote m => Sys2Proof.Machine.execOutNote m s
  | .outTapX m => Sys2Proof.Machine.execOutTapX m s
  | .outTapY m => Sys2Proof.Machine.execOutTapY m s
  | .outAlive m => Sys2Proof.Machine.execOutAlive m s
  | .outLineSet m => Sys2Proof.Machine.execOutLineSet m s
  | .outHeadCtrl m => Sys2Proof.Machine.execOutHeadCtrl m s
  | .outDecide m => Sys2Proof.Machine.execOutDecide m s
  | .waite m => Sys2Proof.Machine.execWaite m s
  | .waiteWake m => Sys2Proof.Machine.execWaiteWake m s
  | .clre m => Sys2Proof.Machine.execClre m s
  | .rdts m => Sys2Proof.Machine.execRdts m s
  | .halt m => Sys2Proof.Machine.execHalt m s
  | .stmFault m => Sys2Proof.Machine.execStmFault m s
  | .illegalInstruction m parity => Sys2Proof.Machine.execIllegalInstruction m parity s
  | .alarmTimeReached m => Sys2Proof.Machine.execAlarmTimeReached m s
  | .stmRun p m run => Sys2Proof.Machine.execStmRun p m run s
  | .stmRestart p m => Sys2Proof.Machine.execStmRestart p m s
  | .kick p m => Sys2Proof.Machine.execKick p m s
  | .stmGrant p m g => Sys2Proof.Machine.execStmGrant p m g s
  | .stmWords p m n => Sys2Proof.Machine.execStmWords p m n s
  | .progDataWrite p v => Sys2Proof.Machine.execProgDataWrite p v s
  | .progDataRead p => Sys2Proof.Machine.execProgDataRead p s
  | .qTailWrite p q v => Sys2Proof.Machine.execQTailWrite p q v s
  | .qRun p q on => Sys2Proof.Machine.execQRun p q on s
  | .qAbort p q => Sys2Proof.Machine.execQAbort p q s
  | .lostClr p q => Sys2Proof.Machine.execLostClr p q s
  | .evRdWrite p q v => Sys2Proof.Machine.execEvRdWrite p q v s
  | .cmdNop q => Sys2Proof.Machine.execCmdNop q s
  | .setSource q => Sys2Proof.Machine.execSetSource q s
  | .setGeometry q => Sys2Proof.Machine.execSetGeometry q s
  | .setBlend q => Sys2Proof.Machine.execSetBlend q s
  | .setGuard q => Sys2Proof.Machine.execSetGuard q s
  | .setFreeze q => Sys2Proof.Machine.execSetFreeze q s
  | .flip q => Sys2Proof.Machine.execFlip q s
  | .dma q => Sys2Proof.Machine.execDma q s
  | .dmaComplete n => Sys2Proof.Machine.execDmaComplete n s
  | .fenceSignalAccept q => Sys2Proof.Machine.execFenceSignalAccept q s
  | .fenceSignalCommit q => Sys2Proof.Machine.execFenceSignalCommit q s
  | .fenceWait q => Sys2Proof.Machine.execFenceWait q s
  | .fenceWaitSatisfied q => Sys2Proof.Machine.execFenceWaitSatisfied q s
  | .waitTimeout q => Sys2Proof.Machine.execWaitTimeout q s
  | .waitCommit q => Sys2Proof.Machine.execWaitCommit q s
  | .waitCommitDone q => Sys2Proof.Machine.execWaitCommitDone q s
  | .cmdRegWrite q => Sys2Proof.Machine.execCmdRegWrite q s
  | .tableWrite q => Sys2Proof.Machine.execTableWrite q s
  | .touchZone q => Sys2Proof.Machine.execTouchZone q s
  | .decCtrlStop q => Sys2Proof.Machine.execDecCtrlStop q s
  | .decCtrlStart q => Sys2Proof.Machine.execDecCtrlStart q s
  | .decCtrlDiscard q => Sys2Proof.Machine.execDecCtrlDiscard q s
  | .encCtrlStop q => Sys2Proof.Machine.execEncCtrlStop q s
  | .encCtrlStart q => Sys2Proof.Machine.execEncCtrlStart q s
  | .encCtrlIrap q => Sys2Proof.Machine.execEncCtrlIrap q s
  | .mark q => Sys2Proof.Machine.execMark q s
  | .cmdBadOp q => Sys2Proof.Machine.execCmdBadOp q s
  | .commitPoint k => Sys2Proof.Machine.execCommitPoint k s
  | .memoryNodeFlip n => Sys2Proof.Machine.execMemoryNodeFlip n s
  | .porstNFall => Sys2Proof.Machine.execPorstNFall s
  | .resetNAssert => Sys2Proof.Machine.execResetNAssert s
  | .resetCtrl p v => Sys2Proof.Machine.execResetCtrl p v s
  | .resetRelease straps stable => Sys2Proof.Machine.execResetRelease straps stable s
  | .strapReread straps stable => Sys2Proof.Machine.execStrapReread straps stable s
  | .refclkLoss => Sys2Proof.Machine.execRefclkLoss s
  | .rootLockLoss => Sys2Proof.Machine.execRootLockLoss s
  | .rootLocked ethRef => Sys2Proof.Machine.execRootLocked ethRef s
  | .registersReady fitted => Sys2Proof.Machine.execRegistersReady fitted s
  | .dramTrainingDone density checked => Sys2Proof.Machine.execDramTrainingDone density checked s
  | .bootLoad => Sys2Proof.Machine.execBootLoad s
  | .twinListenEnd => Sys2Proof.Machine.execTwinListenEnd s
  | .sideBSilenceExpire => Sys2Proof.Machine.execSideBSilenceExpire s
  | .cascadeWaitExpire => Sys2Proof.Machine.execCascadeWaitExpire s
  | .blockReceived port k t bits => Sys2Proof.Machine.execBlockReceived port k t bits s
  | .eidleEnter port k => Sys2Proof.Machine.execEidleEnter port k s
  | .laneIdleDetect port k ck => Sys2Proof.Machine.execLaneIdleDetect port k ck s
  | .laneActiveDetect port k ck => Sys2Proof.Machine.execLaneActiveDetect port k ck s
  | .videoFsRx n b => Sys2Proof.Machine.execVideoFsRx n b s
  | .videoLineRx n b => Sys2Proof.Machine.execVideoLineRx n b s
  | .videoFeRx n b => Sys2Proof.Machine.execVideoFeRx n b s
  | .headStatusRx n b => Sys2Proof.Machine.execHeadStatusRx n b s
  | .touchRawRx n b => Sys2Proof.Machine.execTouchRawRx n b s
  | .idleRx port b => Sys2Proof.Machine.execIdleRx port b s
  | .idleSend => Sys2Proof.Machine.execIdleSend s
  | .cntClr p k v => Sys2Proof.Machine.execCntClr p k v s
  | .ethFrameRx n f => Sys2Proof.Machine.execEthFrameRx n f s
  | .linkDown l => Sys2Proof.Machine.execLinkDown l s
  | .linkUp n => Sys2Proof.Machine.execLinkUp n s
  | .igmpQuery n q => Sys2Proof.Machine.execIgmpQuery n q s
  | .reportRepeat => Sys2Proof.Machine.execReportRepeat s
  | .gapLost c => Sys2Proof.Machine.execGapLost c s
  | .ssrcSwitch c => Sys2Proof.Machine.execSsrcSwitch c s
  | .rtcpSr c ssrc ntpSec ntpFrac rtp => Sys2Proof.Machine.execRtcpSr c ssrc ntpSec ntpFrac rtp s
  | .pictureDecodeStart k => Sys2Proof.Machine.execPictureDecodeStart k s
  | .pictureDecoded k d => Sys2Proof.Machine.execPictureDecoded k d s
  | .decTimeout k d => Sys2Proof.Machine.execDecTimeout k d s
  | .ptpAnnounce n domain a utc => Sys2Proof.Machine.execPtpAnnounce n domain a utc s
  | .ptpSample offset => Sys2Proof.Machine.execPtpSample offset s
  | .masterLost => Sys2Proof.Machine.execMasterLost s
  | .rearmStep p => Sys2Proof.Machine.execRearmStep p s
  | .servoHold p on => Sys2Proof.Machine.execServoHold p on s
  | .addendWrite p lo hi => Sys2Proof.Machine.execAddendWrite p lo hi s
  | .ptpCfgWrite p v => Sys2Proof.Machine.execPtpCfgWrite p v s
  | .almanac => Sys2Proof.Machine.execAlmanac s
  | .frameRefEdge => Sys2Proof.Machine.execFrameRefEdge s
  | .fclkRefLost k => Sys2Proof.Machine.execFclkRefLost k s
  | .tpoArm p k v => Sys2Proof.Machine.execTpoArm p k v s
  | .tpoEdge k => Sys2Proof.Machine.execTpoEdge k s
  | .memRequest port write addr data => Sys2Proof.Machine.execMemRequest port write addr data s
  | .dramCommandIssue c refs banks ecc => Sys2Proof.Machine.execDramCommandIssue c refs banks ecc s
  | .refreshTick r => Sys2Proof.Machine.execRefreshTick r s
  | .mr4Read r need => Sys2Proof.Machine.execMr4Read r need s
  | .selfRefreshEntry r => Sys2Proof.Machine.execSelfRefreshEntry r s
  | .spareFillDone r => Sys2Proof.Machine.execSpareFillDone r s
  | .trainingPassDone n pt rd wr => Sys2Proof.Machine.execTrainingPassDone n pt rd wr s
  | .trainingPassTimeout r => Sys2Proof.Machine.execTrainingPassTimeout r s
  | .retrain r result => Sys2Proof.Machine.execRetrain r result s
  | .opSwitchRequest p target => Sys2Proof.Machine.execOpSwitchRequest p target s
  | .opSwitch pause => Sys2Proof.Machine.execOpSwitch pause s
  | .switchHoldExpire pause => Sys2Proof.Machine.execSwitchHoldExpire pause s
  | .writeCrcAlert addr port ninth => Sys2Proof.Machine.execWriteCrcAlert addr port ninth s
  | .scrubStep ecc => Sys2Proof.Machine.execScrubStep ecc s
  | .retire p n => Sys2Proof.Machine.execRetire p n s
  | .retireClear p n => Sys2Proof.Machine.execRetireClear p n s
  | .migrationDone => Sys2Proof.Machine.execMigrationDone s
  | .statClr p => Sys2Proof.Machine.execStatClr p s
  | .statClrAll p => Sys2Proof.Machine.execStatClrAll p s
  | .blkSubmit p hi => Sys2Proof.Machine.execBlkSubmit p hi s
  | .compress => Sys2Proof.Machine.execCompress s
  | .decompress => Sys2Proof.Machine.execDecompress s
  | .verify => Sys2Proof.Machine.execVerify s
  | .jobDone => Sys2Proof.Machine.execJobDone s
  | .blkAbort p => Sys2Proof.Machine.execBlkAbort p s
  | .blkResultAck p v => Sys2Proof.Machine.execBlkResultAck p v s
  | .segmentComplete n y k => Sys2Proof.Machine.execSegmentComplete n y k s
  | .prescalerBand n b => Sys2Proof.Machine.execPrescalerBand n b s
  | .rasterLine n j => Sys2Proof.Machine.execRasterLine n j s
  | .scanFaultHoldEnd n => Sys2Proof.Machine.execScanFaultHoldEnd n s
  | .chkStart p c => Sys2Proof.Machine.execChkStart p c s
  | .chkFinish p c => Sys2Proof.Machine.execChkFinish p c s
  | .chkData p v => Sys2Proof.Machine.execChkData p v s
  | .chkCtxWrite p lo hi => Sys2Proof.Machine.execChkCtxWrite p lo hi s
  | .ageTick => Sys2Proof.Machine.execAgeTick s
  | .encLatch e => Sys2Proof.Machine.execEncLatch e s
  | .encPictureDone e => Sys2Proof.Machine.execEncPictureDone e s
  | .encRingRdWrite p e v => Sys2Proof.Machine.execEncRingRdWrite p e v s
  | .touchHeadLost h => Sys2Proof.Machine.execTouchHeadLost h s
  | .mapCapture p h => Sys2Proof.Machine.execMapCapture p h s
  | .mapWritten h => Sys2Proof.Machine.execMapWritten h s
  | .rateStepDown h => Sys2Proof.Machine.execRateStepDown h s
  | .proposalTimeout h kind => Sys2Proof.Machine.execProposalTimeout h kind s
  | .zoneTimeout h z => Sys2Proof.Machine.execZoneTimeout h z s
  | .longHold h id => Sys2Proof.Machine.execLongHold h id s
  | .touchRingRdWrite p h v => Sys2Proof.Machine.execTouchRingRdWrite p h v s
  | .touchRingWrite p h v => Sys2Proof.Machine.execTouchRingWrite p h v s
  | .heartbeatSend => Sys2Proof.Machine.execHeartbeatSend s
  | .heartbeatRx n b => Sys2Proof.Machine.execHeartbeatRx n b s
  | .hornpipeLost n => Sys2Proof.Machine.execHornpipeLost n s
  | .maypoleToggle => Sys2Proof.Machine.execMaypoleToggle s
  | .maypoleEdge rise => Sys2Proof.Machine.execMaypoleEdge rise s
  | .maypoleSilent => Sys2Proof.Machine.execMaypoleSilent s
  | .pathEvaluation => Sys2Proof.Machine.execPathEvaluation s
  | .sealPoint => Sys2Proof.Machine.execSealPoint s
  | .epochDecision => Sys2Proof.Machine.execEpochDecision s
  | .mirrorData n b => Sys2Proof.Machine.execMirrorData n b s
  | .seal n b => Sys2Proof.Machine.execSeal n b s
  | .mirrorAck n b => Sys2Proof.Machine.execMirrorAck n b s
  | .mirrorNack n b => Sys2Proof.Machine.execMirrorNack n b s
  | .commit n b => Sys2Proof.Machine.execCommit n b s
  | .slip n b => Sys2Proof.Machine.execSlip n b s
  | .sig n b => Sys2Proof.Machine.execSig n b s
  | .resyncReq n b => Sys2Proof.Machine.execResyncReq n b s
  | .snapshot n b => Sys2Proof.Machine.execSnapshot n b s
  | .mirrorImage n b => Sys2Proof.Machine.execMirrorImage n b s
  | .verdict n b => Sys2Proof.Machine.execVerdict n b s
  | .verdictTimeout => Sys2Proof.Machine.execVerdictTimeout s
  | .handover p => Sys2Proof.Machine.execHandover p s
  | .resync p => Sys2Proof.Machine.execResync p s
  | .takeoverAck p => Sys2Proof.Machine.execTakeoverAck p s
  | .healthTest item u r => Sys2Proof.Machine.execHealthTest item u r s
  | .cascadeTimeSend => Sys2Proof.Machine.execCascadeTimeSend s
  | .cascadeTimeRx n b => Sys2Proof.Machine.execCascadeTimeRx n b s
  | .cascadePortDown n => Sys2Proof.Machine.execCascadePortDown n s
  | .memberLost m => Sys2Proof.Machine.execMemberLost m s
  | .subscribe n b => Sys2Proof.Machine.execSubscribe n b s
  | .unsubscribe n b => Sys2Proof.Machine.execUnsubscribe n b s
  | .subAns n b => Sys2Proof.Machine.execSubAns n b s
  | .subscribeRetry => Sys2Proof.Machine.execSubscribeRetry s
  | .surfaceSegRx n b => Sys2Proof.Machine.execSurfaceSegRx n b s
  | .relayReq n b => Sys2Proof.Machine.execRelayReq n b s
  | .relayAns n b => Sys2Proof.Machine.execRelayAns n b s
  | .relayTimeout => Sys2Proof.Machine.execRelayTimeout s
  | .relayGo p => Sys2Proof.Machine.execRelayGo p s
  | .relayAck p v => Sys2Proof.Machine.execRelayAck p v s
  | .cmdFwd n b => Sys2Proof.Machine.execCmdFwd n b s
  | .cmdAns n b => Sys2Proof.Machine.execCmdAns n b s
  | .cmdFwdTimeout q => Sys2Proof.Machine.execCmdFwdTimeout q s
  | .commitWaitExpire => Sys2Proof.Machine.execCommitWaitExpire s
  | .voltAlarm m mv => Sys2Proof.Machine.execVoltAlarm m mv s
  | .supplyReset m mv => Sys2Proof.Machine.execSupplyReset m mv s
  | .tempSample u c => Sys2Proof.Machine.execTempSample u c s
  | .thermalTrip u c => Sys2Proof.Machine.execThermalTrip u c s
  | .voltAlarmClear => Sys2Proof.Machine.execVoltAlarmClear s
  | .pcieLinkUp => Sys2Proof.Machine.execPcieLinkUp s
  | .pcieError uncorrectable => Sys2Proof.Machine.execPcieError uncorrectable s

end Sys2Proof.Machine
end

