-- ==== Sys2Proof/Machine/Transmit.lean ====
section
/-!
DEFINITION. Machine/Transmit.lean: the J-Link transmitters (R181, R182, R186, R187): the blocks that the four data lanes
of a JLO or JLX port send in lockstep, electrical idle, and the training burst on its exit.
-/
namespace Sys2Proof.Machine

/-- The three kinds of block a transmitter sends (R181, R182): payload of the packets that wait, EIDLE_ENTER, idle. -/
inductive BlockKind where
  | data | eidle | idle
  deriving DecidableEq, Repr

/-- Header symbol of a block (R180). -/
def BlockKind.header : BlockKind → Sym
  | .data => .k285
  | .eidle => .k281
  | .idle => .k280

/-- The 62 payload symbols of lane `k` (R181, R189): of a data block every fourth position of `payload`, FILL past its
end; EIDLE_ENTER and FILL; or 31 pairs K28.5, D21.5. -/
def BlockKind.payload (b : BlockKind) (payload : List Sym) (k : Nat) : List Sym :=
  match b with
  | .data => (List.range 62).map fun j => payload.getD (4 * j + k) .fill
  | .eidle => .data 0x01 :: List.replicate 61 .fill
  | .idle => (List.range 62).map fun j => if j % 2 = 0 then .k285 else .data 0xB5

/-- The 64 symbols of lane `k` in the block with sequence `seq` (R181). -/
def blockSyms (b : BlockKind) (seq k : Nat) (payload : List Sym) : List Sym :=
  b.header :: .data (BitVec.ofNat 8 (seq * 4 + k)) :: b.payload payload k

/-- Send one block on all four lanes of a port; the sequence advances by 1 mod 64, and each lane's running disparity
runs on (R180, R181). POLARITY bits [8:5] invert the transmit lanes. -/
def State.sendBlock (s : State) (port : Nat) (x : Tx) (b : BlockKind) : State :=
  let pol := match linkPlace port with
    | some (k, i) => s.fld (linkCtrl k i) 8 5
    | none => 0
  let lanes := (List.range 4).map fun k => encodeLine (x.rd.getD k false) (blockSyms b x.seq k (x.queue.take 248))
  let groups := lanes.zipIdx.map fun e => if pol.testBit e.2 then e.1.1.map fun g => 1023 - g else e.1.1
  let queue := if b = .data then x.queue.drop 248 else x.queue
  (s.setTx port { x with seq := (x.seq + 1) % 64, rd := lanes.map Prod.snd, queue := queue }).emit (.block port groups)

/-- One block time of a port (R182, R186, R187). Out of electrical idle: the rest of a training burst, then waiting
packets, then EIDLE_ENTER where the port is to go idle, else an idle block. In electrical idle: nothing, until the port
leaves it with a burst of 16 idle blocks where CK ran throughout an idle period under 1 ms, 48 otherwise. -/
def State.blockTime (s : State) (port : Nat) : State :=
  let x := s.txOf port
  if x.on then
    if 0 < x.burst then s.sendBlock port { x with burst := x.burst - 1 } .idle
    else if x.queue ≠ [] then s.sendBlock port x .data
    else if s.txOn port then s.sendBlock port x .idle
    else s.sendBlock port { x with on := false, idleAt := s.uptime, ckKept := s.linkEnabled port } .eidle
  else if s.txOn port then
    let short := x.ckKept && decide (s.uptime - x.idleAt < cyclesPerMs)
    s.sendBlock port { x with on := true, burst := (if short then 16 else 48) - 1 } .idle
  else s.setTx port { x with ckKept := x.ckKept && s.linkEnabled port }

/-- The ports with transmit lanes (R176): JLO and JLX. -/
def txPorts : List Nat := (List.range 24).map (64 + ·) ++ jlxPorts

/-- A block lasts 40 CLK_F cycles, 66.667 ns (R177): as many cycles apart, every port sends one (DESIGN CHOICE,
assumption 55). -/
def State.sendBlocks (s : State) : State :=
  if s.uptime % 40 = 0 then txPorts.foldl State.blockTime s else s

end Sys2Proof.Machine
end

