-- ==== Sys2Proof/Machine/Idle.lean ====
section
/-!
DEFINITION. Machine/Idle.lean: what a CLK_F cycle does whatever is commanded (R181, R250, R262, R298, R505,
R525).
-/
namespace Sys2Proof.Machine

/-- TIM.ADDEND adds to the 72-bit accumulator (R250); the carry out of TS32 counts on in the full device time (R265). -/
def State.timeStep (s : State) : State :=
  let addend := s.fld Reg.TIM_ADDEND_HI 15 0 * 2 ^ 32 + s.fld Reg.TIM_ADDEND_LO 31 0
  let acc := s.tim.acc + BitVec.ofNat 72 addend
  let wrap := decide (acc.toNat < s.tim.acc.toNat)
  { s with tim := { s.tim with acc := acc, hi := if wrap then s.tim.hi + 1 else s.tim.hi }, uptime := s.uptime + 1 }

/-- One CLK_F cycle. While the derived clocks run, time advances, a cascade port that lost alignment goes down, an
active sends the mirrored changes that wait, the J-Link transmitters send their blocks, and a migration copies on. A
device stopped for heat runs its monitors alone (R551). -/
def State.idle (s : State) : State :=
  if s.boot.stopped then { s with uptime := s.uptime + 1 }
  else if s.tim.running then s.timeStep.casPorts.sendData.sendBlocks.copyStep
  else s

end Sys2Proof.Machine
end

