-- ==== Sys2Proof/Safety.lean ====
section
/-!
DEFINITION. Safety.lean: the terms in which statements speak about a step: what stays as it was, what a completed
step-machine instruction leaves, what a device held in reset is.
-/
namespace Sys2Proof.Machine

/-- Every register and table word keeps its value, but for those at the offsets of the list. -/
def keepsRegs (s t : State) (ex : List Nat) : Prop := ∀ off, off ∉ ex → t.reg off = s.reg off

/-- Every byte of DRAM outside [a, a + n) reads as before. -/
def keepsDram (s t : State) (a n : Nat) : Prop := ∀ b, b < a ∨ a + n ≤ b → t.dramByte b = s.dramByte b

/-- Machine `m` has completed an instruction: it holds `x` with its PC at `pc` modulo 512 and waits for nothing; STATE
follows RUN; every other machine, the rest of its STATUS, every other register and every other part of the state are
unchanged. -/
def stmCompleted (s t : State) (m : Nat) (x : StepMachine) (pc : Nat) : Prop :=
  t.machine m = { x with pc := pc % 512, wait := .none } ∧ (∀ k, k ≠ m → t.machine k = s.machine k)
    ∧ keepsRegs s t [Reg.STM_STATUS m] ∧ t.stmState m = (if s.stmRun m then 1 else 0)
    ∧ t.fld (Reg.STM_STATUS m) 28 0 = s.fld (Reg.STM_STATUS m) 28 0 ∧ t = { s with stm := t.stm, regs := t.regs }

/-- As `stmCompleted`, the PC going to the next word. -/
def stmWent (s t : State) (m : Nat) (x : StepMachine) : Prop := stmCompleted s t m x (x.pc + 1)

/-- Machine `m` has stopped FAULTED with a code and REEL_FAULT is set (R127): no machine's content, no GPIO line and no
DRAM byte changes, and of the registers only its STATUS, the interrupt status and the first event counter of block STM. -/
def stmFaulted (s t : State) (m code : Nat) : Prop :=
  t.stmState m = 4 ∧ t.fld (Reg.STM_STATUS m) 27 16 = code % 4096
    ∧ t.bit (Reg.INT_STATUS Blk.STM) 0 = true ∧ t.reg (Reg.EVT_CNT Blk.STM 0) = s.reg (Reg.EVT_CNT Blk.STM 0) + 1
    ∧ keepsRegs s t [Reg.STM_STATUS m, Reg.INT_STATUS Blk.STM, Reg.EVT_CNT Blk.STM 0]
    ∧ t = { s with regs := t.regs, out := t.out, host := t.host }

/-- The registers that an event of flag `f` changes: INT_STATUS of its block and its event counter. -/
def flagRegs (f : Flag) : List Nat := [Reg.INT_STATUS f.place.1, Reg.EVT_CNT f.place.1 f.place.2]

/-- Flag `f` has set and its event counter has advanced by 1 (R87). -/
def raised (s t : State) (f : Flag) : Prop :=
  t.bit (Reg.INT_STATUS f.place.1) f.place.2 = true
    ∧ t.reg (Reg.EVT_CNT f.place.1 f.place.2) = s.reg (Reg.EVT_CNT f.place.1 f.place.2) + 1

/-- One X write counts in MRAM (R14). -/
def xCounted (s t : State) : Prop :=
  t.mram = { s.mram with xWrites := if s.mram.xWrites = BitVec.allOnes 64 then s.mram.xWrites else s.mram.xWrites + 1 }

/-- Port `p` reaches registers, and the device is no standby, so that a write of mirrored state acts (R495). -/
def mayWrite (s : State) (p : Port) : Prop := s.access p = true ∧ s.standby = false

/-- As `mayWrite`, with X access open (R13). -/
def mayWriteX (s : State) (p : Port) : Prop := mayWrite s p ∧ s.xOpen = true

/-- The register at `off` keeps what is written and does nothing else: no rule of it acts on a write. -/
def plainReg (off : Nat) : Prop := ∀ (s : State) (src : Nat) (x : Bool) (m w : Word), s.special src x off m w = none

/-- The mailbox takes a request (R108): the supervisor runs, no request is in progress and no reply is unconsumed. -/
def mboxOpen (s : State) : Prop :=
  s.svpUp = true ∧ s.bit Reg.SVP_MBOX_REQ 31 = false ∧ s.bit Reg.SVP_MBOX_STATUS 31 = false

/-- The registers that a mailbox request and its reply change. -/
def mboxRegs : List Nat :=
  Reg.SVP_MBOX_REQ :: Reg.SVP_MBOX_STATUS :: ((List.range 8).map Reg.SVP_MBOX_DATA ++ flagRegs .mboxReply)

/-- A request of opcode `op` has been answered with a code and data words, the next SEQ in the status word (R109, R111):
BUSY clears, MBOX_REPLY sets, no request is in progress. -/
def mboxAnswered (s t : State) (op code : Nat) (data : List Word) : Prop :=
  t.reg Reg.SVP_MBOX_STATUS
      = w32 (2 ^ 31 + (s.fld Reg.SVP_MBOX_STATUS 23 16 + 1) % 256 * 2 ^ 16 + code % 256 * 256 + op % 256)
    ∧ (∀ i, i < 8 → t.reg (Reg.SVP_MBOX_DATA i) = data.getD i 0) ∧ t.bit Reg.SVP_MBOX_REQ 31 = false
    ∧ raised s t .mboxReply ∧ t.svp = { s.svp with req := none }

/-- A request of opcode `op` with the argument words as they stand is in progress. -/
def mboxBusy (s t : State) (op : Nat) : Prop :=
  t.svp = { s.svp with req := some { op := op, args := (List.range 8).map fun i => s.reg (Reg.SVP_MBOX_ARG i) } }
    ∧ t.reg Reg.SVP_MBOX_REQ = w32 (2 ^ 31 + op) ∧ keepsRegs s t [Reg.SVP_MBOX_REQ]
    ∧ t = { s with regs := t.regs, svp := t.svp }

/-- Argument word `i` of the mailbox as a number. -/
def mboxArg (s : State) (i : Nat) : Nat := (s.reg (Reg.SVP_MBOX_ARG i)).toNat

/-- A load result stands in the window with the next SEQ (R72, R94), and LOAD_RESULT has set. -/
def loadShown (s t : State) (code source gen record object : Nat) (unprov : Bool) : Prop :=
  t.reg Reg.SYS_LOAD_STATUS = w32 (2 ^ 31 + (if unprov then 2 ^ 30 else 0)
      + (s.fld Reg.SYS_LOAD_STATUS 23 16 + 1) % 256 * 2 ^ 16 + code % 256 * 256 + source % 16 * 16)
    ∧ t.reg Reg.SYS_LOAD_GEN = w32 gen ∧ t.reg Reg.SYS_LOAD_DETAIL = w32 (record % 65536 * 65536 + object % 65536)
    ∧ raised s t .loadResult

/-- The registers that a load result changes. -/
def loadRegs : List Nat := [Reg.SYS_LOAD_STATUS, Reg.SYS_LOAD_GEN, Reg.SYS_LOAD_DETAIL] ++ flagRegs .loadResult

/-- No request waits at the memory controller (R279) and no rank is in self-refresh (R287), so that an access of the
device's own agents changes nothing but the bytes it writes. -/
def portsQuiet (s : State) : Prop := s.mem.pool = [] ∧ s.mem.waiting = [] ∧ ∀ i, i < 16 → s.rankState i ≠ 2

/-- Queue `q` fetches record `r` of opcode `op`, and the check accepts it (R134, R138 to R141); `s` is the state before the
read of the record. -/
def takes (s : State) (q : Nat) (r : CmdRec) (op : Nat) : Prop :=
  s.qFetch q = .record r ∧ r.op = op ∧ (s.qRead q).checkCmd (s.qRead q).xOpen q r 0 = 0

/-- As `takes`, for a command whose EVENT flag is clear, with room among the 1,024 held commands (R135). -/
def takesQuiet (s : State) (q : Nat) (r : CmdRec) (op : Nat) : Prop :=
  takes s q r op ∧ r.flags.testBit 0 = false ∧ s.heldCommands < 1024

/-- HEAD of queue `q` has gone past one record. -/
def headMoved (s t : State) (q : Nat) : Prop := t.qHead q = (s.qHead q + 1) % 65536 ∧ t.qState q = s.qState q

/-- The event ring of queue `q` takes a record: it lies in host-accessible DRAM, is not full, no rank is out of service,
and the memory ports are quiet. -/
def ringTakes (s : State) (q : Nat) : Prop :=
  s.ringOk (s.reg (Reg.CMD_EV_RING q)) = true ∧ s.mem.dead = [] ∧ portsQuiet s
    ∧ (s.fld (Reg.CMD_EV_PTR q) 31 16 + 65536 - s.fld (Reg.CMD_EV_PTR q) 15 0) % 65536
      < ringSize (s.reg (Reg.CMD_EV_RING q))

/-- Record `r` stands in the next slot of the event ring of queue `q`, WR has gone past it, and no other DRAM byte has
changed (R154, R157). -/
def evWritten (s t : State) (q : Nat) (r : EvRec) : Prop :=
  let ring := s.reg (Reg.CMD_EV_RING q)
  let wr := s.fld (Reg.CMD_EV_PTR q) 31 16
  t.dramRead (ringSlot ring wr) 32 = r.bytes wr ∧ keepsDram s t (ringSlot ring wr) 32
    ∧ t.fld (Reg.CMD_EV_PTR q) 31 16 = (wr + 1) % 65536
    ∧ t.fld (Reg.CMD_EV_PTR q) 15 0 = s.fld (Reg.CMD_EV_PTR q) 15 0

/-- The bytes `b` of a whole, sound packet of a type and channel with a payload arrive on an aligned port (R189 to R193). -/
def arrives (s : State) (port ty chan : Nat) (payload b : List Byte) : Prop :=
  s.aligned port = true ∧ payload.length ≤ 16384 ∧ ty < 256 ∧ chan < 256
    ∧ ∃ flags seq, flags < 65536 ∧ seq < 65536 ∧ b = packetBytes ty chan flags seq payload

/-- The state that rank `i` returns to from CATCH_UP or TRAINING: the one it left, ACTIVE after the training of a boot. -/
def State.modeBefore (s : State) (i : Nat) : Nat :=
  let v := Cells.get (fun _ => 0) s.mem.back i
  if v = 0 then 1 else v

/-- The membership report `r` as it leaves its port, in the form of an older querier where `old` (R215, R216, R219). -/
def State.reportFrame (s : State) (r : Report) (old : Bool) : Emit :=
  .eth r.port 1 ([if old then 2 else 3, if r.join then 1 else 0, if r.ip6 then 6 else 4,
      s.fld (Reg.ETH_PORT_CTRL r.port) 11 0]
    ++ (s.sourceIp r.port r.ip6 ++ r.group ++ if old then [] else r.source).map (·.toNat))

/-- A sound frame on the port's VLAN with a PTP message of the device's domain arrives on a port that takes part in PTP
(R216, R217, R252). -/
def ptpArrives (s : State) (n : Nat) (f : EthFrame) (m : PtpMsg) : Prop :=
  n < 8 ∧ s.ethUp n = true ∧ s.bit (Reg.ETH_PORT_CTRL n) 27 = true ∧ s.svpUp = true ∧ f.fifoFull = false ∧ f.fcsOk = true
    ∧ f.len ≤ (if s.bit (Reg.ETH_PORT_CTRL n) 28 then 9216 else 1522) ∧ f.valid = true ∧ f.sumOk = true
    ∧ f.content = .ptp (s.fld Reg.TIM_PTP_CFG 31 24) m ∧ f.vlan = s.fld (Reg.ETH_PORT_CTRL n) 11 0

/-- Of the state only the delay mechanism of port `n` and its frame counters have changed. -/
def keepsPtp (s t : State) (n : Nat) : Prop :=
  (∀ k, k ≠ n → t.ptpOf k = s.ptpOf k) ∧ t.tim = { s.tim with ports := t.tim.ports }
    ∧ keepsRegs s t [Reg.ETH_CNT n 0, Reg.ETH_CNT n 7] ∧ t = { s with regs := t.regs, tim := t.tim }

/-- A Sync of the selected master on port `n` has been measured as `d` where no path delay is known: no sample, and a
Delay_Req leaves (R253, R255). -/
def syncMeasured (s t : State) (n : Nat) (d : Int) : Prop :=
  (t.ptpOf n).last = some d ∧ (t.ptpOf n).age = (s.ptpOf n).age + 1 ∧ (t.ptpOf n).req = some ((s.ptpOf n).reqSeq, s.stamp)
    ∧ Emit.eth n 3 [1, (s.ptpOf n).reqSeq, 0, 0] ∈ t.out ∧ (∀ k, k ≠ n → t.ptpOf k = s.ptpOf k)
    ∧ t.tim = { s.tim with ports := t.tim.ports } ∧ keepsRegs s t [Reg.ETH_CNT n 0, Reg.ETH_CNT n 7, Reg.ETH_CNT n 10]
    ∧ t = { s with regs := t.regs, tim := t.tim, out := t.out }

/-- The registers that count the packets of a port (R194, R214). -/
def linkRegs (port : Nat) : List Nat :=
  match linkPlace port with
  | some (k, i) => [linkCntA k i, linkCntB k i] ++ (if k = 10 then [Reg.JLX_PKT_RX i] else [])
  | none => []

/-- Sub-stream `k` of INn carries capture stream `i`, which the structure wants (R18, R191, R213). -/
def captures (s : State) (n k i : Nat) : Prop :=
  n < 40 ∧ k < 4 ∧ s.captureStream n k = some i ∧ (s.body RT.STREAM (4 * n + k)).isSome = true
    ∧ ∃ b, s.body RT.PORT n = some b ∧ (leAt b 4 1).testBit k = true

/-- The bits that a transmitter sends for symbols from running disparity `rd` on (R180). -/
def lineOf (rd : Bool) (syms : List Sym) : List Bool := (encodeLine rd syms).1.flatMap lineBits

/-- `bits` are a block of 64 symbols as some transmitter sends it, `inv` the polarity that the receiver undoes (R180). -/
def blockBits (syms : List Sym) (inv : Bool) (bits : List Bool) : Prop :=
  syms.length = 64 ∧ Sym.err ∉ syms ∧ ∃ rd, bits = (lineOf rd syms).map fun b => b != inv

/-- `bits` are a block of 64 symbols for a lane that stands at a symbol and block boundary, sent with the running
disparity that the lane expects. -/
def blockReaches (s : State) (port k : Nat) (syms : List Sym) (bits : List Bool) : Prop :=
  let d := ((s.link port).lane k).bits
  syms.length = 64 ∧ Sym.err ∉ syms ∧ ((s.link port).lane k).blk = [] ∧ d.sync = true ∧ d.cnt = 0
    ∧ bits = (lineOf d.rd syms).map fun b => b != s.laneInverted port k

/-- No cascade port that is up in `s` is unaligned in `t` (R525). -/
def noPortFalls (s t : State) : Prop := ∀ i, i < 4 → s.casUp i = true → t.aligned (112 + i) = true

/-- The device is held in reset, or stopped for heat: its state is what a device reset leaves of some state. -/
def State.held (s : State) : Prop :=
  (∃ (d : State) (cold : Bool) (cause : Nat), s = d.resetTo cold cause)
    ∨ (∃ (d : State) (n : Nat), s = { d.tripStop with uptime := n })

/-- A command that releases the device from reset. -/
def releases (c : Instr) : Bool :=
  match c with
  | .resetRelease _ _ => true
  | _ => false

/-! ### Host ports (chapter 03) -/

/-- No line of DRAM reads as poison and every rank is in service, so that DRAM takes and gives bytes as they are. -/
def dramSound (s : State) : Prop := s.mem.poison = [] ∧ s.mem.dead = [] ∧ s.mem.lost = []

/-- DRAM as it takes and gives bytes at once: sound, the memory ports quiet. -/
def dramQuiet (s : State) : Prop := dramSound s ∧ portsQuiet s

/-- A raw read of `n` bytes from `a` gives `l`: each byte as DRAM holds it, but for those that a decoder core keeps in a
layout of its own, which are open (R77, R222). -/
def readsAs (s : State) (a n : Nat) (l : List Byte) : Prop :=
  l.length = n ∧ ∀ k, k < n → s.laidAt (a + k) = false → l.getD k 0 = s.dramByte (a + k)

/-- Words written from an address on through SPI, each as a write of its own, lead from `s` to `t` (R81). -/
def wordsWritten (s : State) (a : Nat) (ws : List Word) (t : State) : Prop :=
  match ws with
  | [] => t = s
  | w :: l => ∃ u, exec (.registerWrite .spi a w) s = .next u ∧ wordsWritten u (a + 4) l t

/-- Only registers, and the epoch in which an active mirrors an accepted write (R494), have changed. -/
def onlyRegs (s t : State) : Prop := t = { s with regs := t.regs, twin := t.twin }

/-- The register at `off` is an ordinary one: mapped, of descriptor `d`, not shadowed, no field of level X, and nothing
but its access codes acts on a write. -/
def basicReg (off : Nat) (d : RegDesc) : Prop :=
  off % 4 = 0 ∧ Reg.find off = some d ∧ d.sh = 0 ∧ d.x = 0 ∧ d.xReg = false ∧ plainReg off

/-! ### Step machines (chapter 04) -/

/-- The content of machine `m` after a result `v` for `Gd` that sets Z and N (R121). -/
def stmResult (s : State) (m d : Nat) (v : Word) : StepMachine :=
  { (s.machine m).setReg d v with z := decide (v = 0), n := v.getLsbD 31 }

/-- Machine `m` stays at its instruction with STATE `st`; of the rest of the state only its own content may differ. -/
def stmStops (s t : State) (m st : Nat) : Prop :=
  t.stmState m = st ∧ (t.machine m).pc = (s.machine m).pc ∧ (∀ k, k ≠ m → t.machine k = s.machine k)
    ∧ keepsRegs s t [Reg.STM_STATUS m] ∧ t.fld (Reg.STM_STATUS m) 28 0 = s.fld (Reg.STM_STATUS m) 28 0
    ∧ t = { s with stm := t.stm, regs := t.regs }

/-! ### Command queues (chapter 05) -/

/-- Command `r` at the head of queue `q` has taken no effect but those named: HEAD has passed it, an active has put it
into the epoch being filled, and only registers of the list, queues and what waits for commit points may differ. -/
def passed (s t : State) (q : Nat) (ex : List Nat) : Prop :=
  headMoved s t q ∧ keepsRegs s t (Reg.CMD_Q_STATUS q :: ex) ∧ t = { s with regs := t.regs, twin := t.twin, cmd := t.cmd }

/-- What is held of command `r` at the head of queue `q` with the change `c` (R138, R145): its number, its clock, its
deferring clock, its object, the epoch an active is filling. -/
def heldOf (s : State) (q : Nat) (r : CmdRec) (c : Change) : Held where
  seq := s.cmd.nextSeq
  origin := .queue q (s.qHead q) r.op r.tag r.obj false
  clock := s.cmdClock r
  defer := if r.clock ≤ 7 then some r.clock else none
  object := (s.slotCmd r).object
  epoch := if s.active then some s.twin.filling else none
  least := 0
  change := c

/-- What is held of a word of TABLE_WRITE `r` at the head of queue `q` (R139): offset, mask, value. -/
def heldWord (s : State) (q : Nat) (r : CmdRec) (off : Nat) (m v : Word) : Held where
  seq := s.cmd.nextSeq
  origin := .queue q (s.qHead q) r.op r.tag r.obj false
  clock := s.shadowClock off
  defer := none
  object := shadowObject off
  epoch := if s.active then some s.twin.filling else none
  least := 0
  change := .words [(off, m, v)]

/-- Command `r` at the head of queue `q` is held with its change until its commit point, behind every change accepted
earlier (R138, R145). -/
def holdsChange (s t : State) (q : Nat) (r : CmdRec) (c : Change) : Prop :=
  passed s t q []
    ∧ t.cmd = { s.cmd with nextSeq := s.cmd.nextSeq + 1, held := s.cmd.held ++ [heldOf s q r c] }

/-- Byte `a` of DRAM lies in a tile group of the frame that stream `i` writes, with samples of format `fmt` (R306, R313). -/
def inFrame (s : State) (i fmt a : Nat) : Prop :=
  let x := s.stream i
  ∃ f b, x.cur = some f ∧ x.writing = some b ∧ ∃ e ∈ f.groups x.pyramid,
    x.levelStart b e.1 + e.2 * 16 * tileSpace fmt x.mode ≤ a
      ∧ a < x.levelStart b e.1 + (e.2 + 1) * 16 * tileSpace fmt x.mode

/-- FSC.TILES, which counts the tiles written (R313). -/
def storeRegs : List Nat := [Reg.FSC_TILES_LO, Reg.FSC_TILES_LO + 4]

/-- Every byte of DRAM outside the tile groups of the frame that stream `i` writes is unchanged. -/
def keepsSurface (s t : State) (i fmt : Nat) : Prop := ∀ a, ¬inFrame s i fmt a → t.dramByte a = s.dramByte a

/-- The event record of command `r` at the head of queue `q` (R154): KIND, CODE, DATA0; no commit clock. -/
def evOf (s : State) (q : Nat) (r : CmdRec) (kind code data0 : Nat) : EvRec where
  kind := kind
  code := code
  tag := r.tag
  op := r.op
  clock := 0xFF
  object := r.obj
  ts := s.ts
  index := s.qHead q
  data0 := data0

/-- The FENCE_SIGNAL `r` at the head of queue `q`, pending behind what that queue has outstanding (R148). -/
def fenceOf (s : State) (q : Nat) (r : CmdRec) : FencePend where
  seq := s.cmd.nextSeq
  queue := q
  index := s.qHead q
  cmd := r
  fence := r.obj
  value := r.value
  after := s.outstanding q
  epoch := if s.active then some s.twin.filling else none

/-! ### Resets and start-up (chapters 06, 21) -/

/-- What a device reset of a kind leaves (R164 to R166): the device is held with the cause shown, every register but
those named is at its reset value, TS32 is 0 in FREE, and structure, queues, fences, step machines, streams, outputs and
engines are as at reset; the non-volatile store but for X_WRITES, the boot flashes and the reset pins are kept. -/
def resetLeft (s t : State) (cold : Bool) (cause : Nat) : Prop :=
  t.boot.inReset = true ∧ t.boot.stopped = false ∧ t.boot.cold = cold ∧ t.reg Reg.SYS_RESET_CAUSE = w32 cause
    ∧ (∀ off, off ∉ [Reg.SYS_RESET_CAUSE, Reg.THM_STATUS, Reg.TIM_PTP_CFG, Reg.CLK_STATUS] → t.reg off = Reg.resetValue off)
    ∧ t.reg Reg.TIM_PTP_CFG = s.mram.ptpCfg
    ∧ t.reg Reg.CLK_STATUS = (if cold then Reg.resetValue Reg.CLK_STATUS else s.reg Reg.CLK_STATUS)
    ∧ t.ts = 0 ∧ t.tim = {} ∧ t.ld = {} ∧ t.cmd = {} ∧ t.stm = [] ∧ t.streams = [] ∧ t.outputs = [] ∧ t.net = {}
    ∧ t.host = {} ∧ t.links = [] ∧ t.tx = [] ∧ t.nodes = [] ∧ t.layers = [] ∧ t.mem = {} ∧ t.pre = {}
    ∧ t.twin = {} ∧ t.cas = {} ∧ t.touch = [] ∧ t.enc = [] ∧ t.chk = [] ∧ t.blk = {} ∧ t.svp = {} ∧ t.alarmCond = []
    ∧ t.mram.keys = s.mram.keys ∧ t.mram.genFloor = s.mram.genFloor ∧ t.mram.copyC = s.mram.copyC
    ∧ t.mram.patch = s.mram.patch ∧ t.mram.patchTop = s.mram.patchTop ∧ t.mram.trained = s.mram.trained
    ∧ t.mram.touchMaps = s.mram.touchMaps ∧ t.mram.ptpCfg = s.mram.ptpCfg
    ∧ t.flashA = s.flashA ∧ t.flashB = s.flashB ∧ t.pending = s.pending ∧ t.out = s.out

/-- The device runs and its clock and supply monitors can reset it: PORST_N is high and it has not stopped for heat. -/
def runs (s : State) : Prop := s.boot.porst = true ∧ s.boot.stopped = false ∧ s.boot.inReset = false

/-- The newest history entry has a KIND and a code, every older one stays, the oldest of 4,096 goes (R519). -/
def historyAdded (s t : State) (kind code : Nat) : Prop :=
  ∃ e : List Word, e.length = 8 ∧ e.head? = some (w32 (kind * 2 ^ 24 + code % 2 ^ 24))
    ∧ t.mram.history = (e :: s.mram.history).take 4096

/-! ### Twin pair and ring (chapters 19, 20) -/

/-- The payload of a TWIN_MIRROR packet (R504). -/
def mirrorBytes (kind epoch index aux : Nat) (body : List Byte) : List Byte :=
  leBytes 1 kind ++ [0, 0, 0] ++ leBytes 4 epoch ++ leBytes 4 index ++ leBytes 4 aux ++ body

/-- The first copy of a whole, sound TWIN_MIRROR packet arrives on TWNi (R504). -/
def mirrorArrives (s : State) (i kind epoch index aux : Nat) (body b : List Byte) : Prop :=
  i < 2 ∧ epoch < 2 ^ 32 ∧ index < 2 ^ 32 ∧ aux < 2 ^ 32 ∧ (kind, epoch, index, 1 - i) ∉ s.twin.seen
    ∧ arrives s (120 + i) 0x20 0 (mirrorBytes kind epoch index aux body) b

/-- A TWIN_MIRROR packet has been sent on each twin port that transmits (R504). -/
def mirrorSent (s t : State) (kind epoch index aux : Nat) (body : List Byte) : Prop :=
  ∀ i, i < 2 → s.txOn (120 + i) = true →
    ∃ seq, Emit.packet (120 + i) (packetBytes 0x20 0 0 seq (mirrorBytes kind epoch index aux body)) ∈ t.out

/-- The registers that count the packets sent on the twin ports. -/
def twinTx : List Nat := [Reg.JLX_PKT_TX 4, Reg.JLX_PKT_TX 5]

/-- A host's write of TWN.CTRL reaches the device with X access open (R13, R563). -/
def twinCtrl (s : State) (p : Port) : Prop := s.access p = true ∧ s.xOpen = true

/-- The payload of a ring control message (R526). -/
def ringBytes (kind cid side tag : Nat) (body : List Byte) : List Byte :=
  leBytes 1 kind ++ leBytes 1 cid ++ leBytes 1 side ++ leBytes 1 tag ++ body

/-- A whole, sound ring control message of a KIND for this device arrives on cascade port `i` (R526). -/
def ringArrives (s : State) (i kind tag : Nat) (body b : List Byte) : Prop :=
  i < 4 ∧ kind < 256 ∧ tag < 256 ∧ s.has RT.CASCADE 0 = true
    ∧ arrives s (112 + i) 0x30 1 (ringBytes kind s.cascadeId 2 tag body) b

/-- A SURFACE_SEG packet with payload `pl` for this member arrives on cascade port `i`, and of its own subscriptions `x`
alone names the sender's stream (R530, R531). -/
def segArrives (s : State) (i : Nat) (pl b : List Byte) (x : CasSub) : Prop :=
  i < 4 ∧ s.has RT.CASCADE 0 = true ∧ 16 ≤ pl.length ∧ arrives s (112 + i) 0x31 0 pl b ∧ leAt pl 2 1 = s.cascadeId
    ∧ s.cas.subs.filter (fun y => y.member == leAt pl 1 1 % 8 && y.src == leAt pl 4 2) = [x]

/-- A ring control message for a device has left in the direction that leads to its member: to a neighbour on the ports
that lead to the SIDE, to another member on one port (R526). -/
def ringSent (s t : State) (kind cid side tag : Nat) (body : List Byte) : Prop :=
  s.ringPorts (s.dirTo cid) cid side ≠ [] ∧ ∀ q ∈ s.ringPorts (s.dirTo cid) cid side, s.txOn (112 + q) = true →
    ∃ seq, Emit.packet (112 + q) (packetBytes 0x30 1 0 seq (ringBytes kind cid side tag body)) ∈ t.out

/-- The registers that count the packets sent on the cascade ports. -/
def ringTx : List Nat := (List.range 4).map Reg.JLX_PKT_TX

/-- A relay result stands in its window with the next SEQ (R93, R539), and no relay is outstanding. -/
def relayed (s t : State) (code : Nat) (data : Word) : Prop :=
  t.reg Reg.CAS_RELAY_STATUS
      = w32 (2 ^ 31 + (s.fld Reg.CAS_RELAY_STATUS 23 16 + 1) % 256 * 2 ^ 16 + code % 256 * 256)
    ∧ t.reg Reg.CAS_RELAY_RESULT = data ∧ t.cas.relay = none

end Sys2Proof.Machine
end

