-- ==== Sys2Proof/Certificates/Slice0/Obligations.lean ====
section
/-!
DEFINITION. Certificates/Slice0/Obligations.lean: the statements for the provers, in the order of the spec's chapters. A
statement names the rules it speaks of; where it rests on a choice of the model it names the assumption.
-/

open Sys2Proof Sys2Proof.Machine

/-! ### Resets, straps and start-up (chapter 06), supplies and temperatures (chapter 21) -/

/-- R163 to R166, R548: each event that resets the device leaves what the table of R165 keeps and resets the rest; the
history of MRAM stays, and X_WRITES stays but for the one X write that a write of RESET_CTRL is (R14). Contents of DRAM,
the queue of commands waiting and the log of emissions are the model's own matters (assumptions 1, 2, 5). -/
def Obligations.DeviceResetsKeepNonVolatileStore : Prop :=
  ∀ s : State,
    (∃ t, exec .porstNFall s = .next t ∧ resetLeft s t true 0 ∧ t.boot.porst = false
        ∧ t.mram.history = s.mram.history ∧ t.mram.xWrites = s.mram.xWrites)
    ∧ (runs s → ∃ t, exec .resetNAssert s = .next t ∧ resetLeft s t false 3 ∧ t.boot.resetN = false
        ∧ t.mram.history = s.mram.history ∧ t.mram.xWrites = s.mram.xWrites)
    ∧ (∀ p, s.access p = true → s.xOpen = true → ∃ t, exec (.resetCtrl p 0xA5C3) s = .next t ∧ resetLeft s t false 4
        ∧ t.mram.history = s.mram.history
        ∧ t.mram.xWrites = if s.mram.xWrites = BitVec.allOnes 64 then s.mram.xWrites else s.mram.xWrites + 1)
    ∧ (runs s → ∃ t, exec .refclkLoss s = .next t ∧ resetLeft s t true 2
        ∧ t.mram.history = s.mram.history ∧ t.mram.xWrites = s.mram.xWrites)
    ∧ (runs s → s.bit Reg.CLK_STATUS 31 = true → ∃ t, exec .rootLockLoss s = .next t ∧ resetLeft s t true 2
        ∧ t.mram.history = s.mram.history ∧ t.mram.xWrites = s.mram.xWrites)
    ∧ (runs s → ∀ m mv, m < 16 → 100 * mv < 92 * railNominal m → ∃ t, exec (.supplyReset m mv) s = .next t
        ∧ resetLeft s t true 1 ∧ t.mram.history = s.mram.history ∧ t.mram.xWrites = s.mram.xWrites)

/-- R165, R166, R551: while the device is held in reset, or stopped after a thermal trip, no command but the end of the
reset brings it out: it stays what a device reset or a trip leaves, whatever is commanded. -/
def Obligations.HeldDeviceStaysHeldUntilReleased : Prop :=
  ∀ s t : State, s.held → (∀ c rest, s.pending = c :: rest → releases c = false) → step s = .next t → t.held

/-- R166: the machine right after power-on is held. -/
def Obligations.PowerOnStateIsHeld : Prop := State.reset.held

/-- R166 to R172, R289: from the end of the reset through the stages of R170: the straps once stable, the third unstable
set, the clocks, the registers, the end of training with every fitted rank trained, retired or absent. -/
def Obligations.StartUpStagesFollowReset : Prop :=
  ∀ s : State,
    (s.boot.inReset = true → s.boot.stopped = false → s.bit Reg.CLK_STATUS 31 = false → ∀ straps,
      ∃ t, exec (.resetRelease straps true) s = .next t ∧ t.boot.inReset = false ∧ t.boot.porst = true
        ∧ t.boot.resetN = true ∧ t.boot.strapsDone = true ∧ t.reg Reg.SYS_STRAPS = w32 (straps % 64)
        ∧ t.bit Reg.TWN_STATUS 26 = straps.testBit 5 ∧ keepsRegs s t [Reg.SYS_STRAPS, Reg.TWN_STATUS]
        ∧ t = { s with boot := t.boot, regs := t.regs })
    ∧ (s.boot.inReset = false → s.boot.strapsDone = false → s.boot.strapTries = 2 → s.bit Reg.CLK_STATUS 31 = false →
      ∀ straps, ∃ t, exec (.strapReread straps false) s = .next t ∧ t.boot.strapsDone = true
        ∧ t.reg Reg.SYS_STRAPS = 0x8000_003E ∧ t.bit Reg.TWN_STATUS 26 = true
        ∧ keepsRegs s t [Reg.SYS_STRAPS, Reg.TWN_STATUS] ∧ t = { s with boot := t.boot, regs := t.regs })
    ∧ (runs s → s.bit Reg.CLK_STATUS 31 = false → ∀ eth, ∃ t, exec (.rootLocked eth) s = .next t
        ∧ t.bit Reg.CLK_STATUS 31 = true ∧ t.bit Reg.CLK_STATUS 30 = true ∧ t.bit Reg.CLK_STATUS 29 = eth
        ∧ t.tim = { s.tim with running := true }
        ∧ (s.boot.strapsDone = true → t.reg Reg.SYS_BOOT_STAGE = 1)
        ∧ keepsRegs s t [Reg.CLK_STATUS, Reg.SYS_BOOT_STAGE, Reg.SVP_FW_VERSION]
        ∧ t = { s with tim := t.tim, regs := t.regs })
    ∧ (s.fld Reg.SYS_BOOT_STAGE 3 0 = 1 → ∀ fitted, ∃ t, exec (.registersReady fitted) s = .next t
        ∧ t.reg Reg.SYS_BOOT_STAGE = 2 ∧ t.boot.fitted = BitVec.ofNat 16 fitted
        ∧ historyAdded s t 1 (s.fld Reg.SYS_RESET_CAUSE 2 0) ∧ t.dram = s.dram)
    ∧ (s.fld Reg.SYS_BOOT_STAGE 3 0 = 3 → (∀ i, i < 16 → s.rankState i = 4 → s.trained i = true) → ∀ density checked,
        ∃ t, exec (.dramTrainingDone density checked) s = .next t
        ∧ (t.reg Reg.SYS_BOOT_STAGE = 4 ∨ t.reg Reg.SYS_BOOT_STAGE = 6)
        ∧ (t.reg Reg.SYS_BOOT_STAGE = 6 ↔ t.hotBytes = 0) ∧ (∀ i, i < 16 → t.rankState i ≠ 4)
        ∧ t.dram = s.dram ∧ t.mram = s.mram)

/-- R174, R175: a standby whose listen ends, or whose peer has been silent for 30 ms, is to become ACTIVE; a member that
has waited 400 ms and has no upstream to align to starts its structure at the next FCLK0 commit point. -/
def Obligations.DiscoveryEndsInARole : Prop :=
  ∀ s : State,
    (s.standby = true → s.twin.listened = false → s.peerRole = 3 → ∃ t, exec .twinListenEnd s = .next t
        ∧ t.twin.listened = true ∧ (t.twin.promote = true ↔ s.sideNow = 0) ∧ t = { s with twin := t.twin })
    ∧ (s.standby = true → s.sideNow = 1 → s.twin.met = false → s.peerRole = 3 → ∃ t, exec .sideBSilenceExpire s = .next t
        ∧ t.twin.promote = true ∧ t = { s with twin := t.twin })
    ∧ (∀ n, s.ld.next = some n → n.phase = .cascadeWait → s.cas.upstream = none →
        ∃ t, exec .cascadeWaitExpire s = .next t
        ∧ t.ld.next = some { n with phase := .card } ∧ t = { s with ld := t.ld })
    ∧ (s.cas.upstream ≠ none → exec .cascadeWaitExpire s = .next s)

/-- R548, R550, R551: readings of the monitors. The KIND and the details of the history entry of an alarm are the model's
choice (assumption 13). -/
def Obligations.MonitorReadingsHoldTheirAlarms : Prop :=
  ∀ s : State, runs s →
    (∀ m mv, m < 16 → 104 * railNominal m < 100 * mv → s.bit Reg.THM_STATUS 29 = false → mv < 65536 →
      s.condOn Blk.THM Flag.voltAlarm.place.2 = false →
      ∃ t, exec (.voltAlarm m mv) s = .next t ∧ t.bit (Reg.THM_VOLT m) 14 = true ∧ t.bit Reg.THM_STATUS 29 = true
        ∧ t.fld (Reg.THM_VOLT m) 31 16 = mv ∧ raised s t .voltAlarm ∧ historyAdded s t 8 65545
        ∧ keepsRegs s t ([Reg.THM_VOLT m, Reg.THM_STATUS, Reg.THM_VOLT_LAST] ++ flagRegs .voltAlarm) ∧ t.dram = s.dram)
    ∧ (∃ t, exec .voltAlarmClear s = .next t ∧ t.bit Reg.THM_STATUS 29 = false
        ∧ (∀ m, m < 16 → t.fld (Reg.THM_VOLT m) 15 14 = 0)
        ∧ t.condOn Blk.THM Flag.voltAlarm.place.2 = false
        ∧ keepsRegs s t (Reg.THM_STATUS :: Reg.INT_STATUS Blk.THM :: (List.range 16).map Reg.THM_VOLT)
        ∧ t.mram = s.mram ∧ t.dram = s.dram)
    ∧ (∀ (u : Nat) (c : Int), u < 16 → -40 ≤ c → c ≤ 125 → s.tempThresh ≤ c → ∃ t, exec (.tempSample u c) s = .next t
        ∧ t.bit Reg.THM_STATUS 31 = true ∧ t.tempNow u = some c ∧ (∀ v, v < 16 → v ≠ u → t.tempNow v = s.tempNow v)
        ∧ keepsRegs s t ([Reg.THM_TEMP u, Reg.THM_STATUS] ++ flagRegs .tempAlarm)
        ∧ t.mram = s.mram ∧ t.dram = s.dram)
    ∧ (∀ (u : Nat) (c : Int), u < 16 → 115 ≤ c → ∃ t, exec (.thermalTrip u c) s = .next t ∧ t.boot.stopped = true
        ∧ t.boot.thermTrip = true ∧ t.boot.inReset = true ∧ t.mram.lastTrip = true ∧ historyAdded s t 8 9
        ∧ t.mram.keys = s.mram.keys ∧ t.flashA = s.flashA ∧ t.flashB = s.flashB)

/-! ### Host ports and the bus (chapters 00, 03) -/

/-- R4, R5, R7, R13: a host's register write. An ordinary register keeps RW bits and clears W1C bits as written and
ignores the rest; an X register without X access is unchanged and the refusal recorded; an unaligned write changes
nothing but the record of its error. -/
def Obligations.RegisterWritesFollowAccessCodes : Prop :=
  ∀ (s : State) (p : Port) (off : Nat) (v : Word),
    (∀ d, mayWrite s p → basicReg off d → ∃ t, exec (.registerWrite p off v) s = .next t
        ∧ t.reg off = merge (s.reg off) d.rw v &&& ~~~ (d.w1c &&& v)
        ∧ keepsRegs s t [off] ∧ onlyRegs s t)
    ∧ (∀ d, s.access p = true → s.xOpen = false → off % 4 = 0 → Reg.find off = some d → d.xReg = true →
        ∃ t, exec (.registerWrite p off v) s = .next t
        ∧ t.reg Reg.SYS_X_REFUSED_ADDR = w32 (2 ^ 31 + portCode p * 2 ^ 28 + off % 2 ^ 28) ∧ raised s t .xRefused
        ∧ keepsRegs s t (Reg.SYS_X_REFUSED_ADDR :: flagRegs .xRefused)
        ∧ t = { s with regs := t.regs, out := t.out, host := t.host })
    ∧ (s.access p = true → off % 4 ≠ 0 → ∃ t, exec (.registerWrite p off v) s = .next t ∧ raised s t .busWidth
        ∧ keepsRegs s t ([Reg.BMX_ERR_ADDR, Reg.BMX_ERR_INFO] ++ flagRegs .busWidth)
        ∧ t = { s with regs := t.regs, out := t.out, host := t.host })

/-- R14, R97: the key sequence that opens X access, its end, and CLOSE. That the first word arms again after any word is
the model's reading (assumption 23). -/
def Obligations.LevelKeyOpensXAccess : Prop :=
  ∀ (s : State) (p : Port), s.access p = true →
    (s.xOpen = false → ∃ t, exec (.levelKey p 0x58A5) s = .next t ∧ t.host = { s.host with keyArmed := true }
        ∧ t.xOpen = false ∧ t = { s with host := t.host })
    ∧ (s.xOpen = false → s.host.keyArmed = true → ∃ t, exec (.levelKey p 0xA558) s = .next t ∧ t.xOpen = true
        ∧ t.host = { s.host with keyArmed := false } ∧ keepsRegs s t [Reg.SYS_LEVEL_STATUS]
        ∧ t = { s with regs := t.regs, host := t.host })
    ∧ (s.xOpen = false → ∀ v, v ≠ 0x58A5 → (v ≠ 0xA558 ∨ s.host.keyArmed = false) → ∃ t, exec (.levelKey p v) s = .next t
        ∧ t.xOpen = false ∧ t = { s with host := { s.host with keyArmed := false } })
    ∧ (∃ t, exec .keyWindowExpire s = .next t ∧ t.xOpen = s.xOpen ∧ t = { s with host := { s.host with keyArmed := false } })
    ∧ (∃ t, exec (.levelStatusClose p) s = .next t ∧ t.xOpen = false ∧ keepsRegs s t [Reg.SYS_LEVEL_STATUS]
        ∧ t = { s with regs := t.regs })

/-- R86, R87, R91: INT_STATUS, INT_FORCE and the masking of MSI-X vectors. -/
def Obligations.InterruptRegistersActAtOnce : Prop :=
  ∀ (s : State) (p : Port),
    (∀ k v, k ∈ blocks → mayWrite s p → ∃ t, exec (.intStatusWrite p k v) s = .next t
        ∧ t.reg (Reg.INT_STATUS k) = s.reg (Reg.INT_STATUS k) &&& ~~~ (v &&& 0xFF &&& ~~~ ((s.conds k).zeroExtend 32))
        ∧ keepsRegs s t [Reg.INT_STATUS k] ∧ t.dram = s.dram ∧ t.alarmCond = s.alarmCond)
    ∧ (∀ k v n, k ∈ blocks → n < 8 → mayWriteX s p → wbit v n = true → ∃ t, exec (.intForce p k v) s = .next t
        ∧ ((flagMask k).getLsbD n = true → t.bit (Reg.INT_STATUS k) n = true
            ∧ t.reg (Reg.EVT_CNT k n) = s.reg (Reg.EVT_CNT k n) + 1)
        ∧ ((flagMask k).getLsbD n = false → t.reg (Reg.EVT_CNT k n) = s.reg (Reg.EVT_CNT k n))
        ∧ keepsRegs s t (Reg.INT_STATUS k :: (List.range 8).map (Reg.EVT_CNT k)) ∧ xCounted s t ∧ t.dram = s.dram)
    ∧ (∀ vec, vec < 64 → s.access p = true → s.msixOpen = true → s.host.msixPending.getLsbD vec = true →
        ∃ t, exec (.msixUnmask p vec) s = .next t ∧ t.host.msixPending.getLsbD vec = false
        ∧ t.out = Emit.msix vec (s.reg (0x2_8000 + 16 * vec)) (s.reg (0x2_8004 + 16 * vec)) (s.reg (0x2_8008 + 16 * vec)) :: s.out
        ∧ t.vecMasked vec = false ∧ keepsRegs s t [0x2_800C + 16 * vec] ∧ t = { s with regs := t.regs, out := t.out, host := t.host })

/-- R73, R76, R77: the window on DRAM. Inside the host-accessible regions a write lands as raw bytes and a read returns
them, alone where DRAM is quiet; outside them an access without X access is refused. That a request beyond the endpoint's
limits does nothing is the model's choice (assumption 75). Bytes that a decoder core keeps in a layout of its own read as open
values (R222). -/
def Obligations.Bar2ReachesHostRegions : Prop :=
  ∀ (s : State),
    (∀ p v, s.access p = true → ∃ t, exec (.bar2BaseWrite p v) s = .next t
        ∧ t.fld Reg.HIF_BAR2_BASE 17 0 = v.toNat % 2 ^ 18 ∧ keepsRegs s t [Reg.HIF_BAR2_BASE] ∧ t = { s with regs := t.regs })
    ∧ (∀ off n (l : List Byte), s.access .pcie = true → dramSound s → l ≠ [] → l.length ≤ 512 → off + l.length ≤ 2 ^ 28 →
        s.hostRange (s.fld Reg.HIF_BAR2_BASE 17 0 * 2 ^ 20 + off) l.length = true →
        ∃ t, exec (.bar2Access off n (some l)) s = .next t
        ∧ t.dramRead (s.fld Reg.HIF_BAR2_BASE 17 0 * 2 ^ 20 + off) l.length = l
        ∧ (dramQuiet s → keepsDram s t (s.fld Reg.HIF_BAR2_BASE 17 0 * 2 ^ 20 + off) l.length ∧ t.regs = s.regs)
        ∧ t.out = s.out)
    ∧ (∀ off n, s.access .pcie = true → dramSound s → 0 < n → n ≤ 4096 → off + n ≤ 2 ^ 28 →
        s.hostRange (s.fld Reg.HIF_BAR2_BASE 17 0 * 2 ^ 20 + off) n = true →
        ∃ t l, exec (.bar2Access off n none) s = .next t ∧ t.out = Emit.cplBytes l false :: s.out ∧ l.length = n
        ∧ (dramQuiet s → readsAs s (s.fld Reg.HIF_BAR2_BASE 17 0 * 2 ^ 20 + off) n l
          ∧ t = { s with out := t.out, free := t.free }))
    ∧ (∀ off n, 4096 < n → exec (.bar2Access off n none) s = .next s)
    ∧ (∀ off n (l : List Byte), 512 < l.length → exec (.bar2Access off n (some l)) s = .next s)
    ∧ (∀ off (l : List Byte), s.access .pcie = true → s.xOpen = false → l ≠ [] → l.length ≤ 512 → off + l.length ≤ 2 ^ 28 →
        s.fld Reg.HIF_BAR2_BASE 17 0 * 2 ^ 20 + off + l.length ≤ s.dramSize →
        s.hostRange (s.fld Reg.HIF_BAR2_BASE 17 0 * 2 ^ 20 + off) l.length = false →
        ∃ t, exec (.bar2Access off 0 (some l)) s = .next t ∧ t.dram = s.dram ∧ raised s t .xRefused
        ∧ t.reg Reg.SYS_X_REFUSED_ADDR = w32 (2 ^ 31 + 3 * 2 ^ 28 + off % 2 ^ 28))

/-- R83, R103, R105: an access that the default target answers is recorded and sets BUS_DEFAULT; a host read over PCIe is
answered with Completer Abort, one over SPI is driven as ones, sets SPI_ACCESS and shows in GET_STATUS. -/
def Obligations.DefaultTargetRecordsTheAccess : Prop :=
  ∀ (s : State) (p : Port) (write : Bool) (addr : Nat), s.access p = true → addr % 4 = 0 → mapped addr = false →
    s.bit Reg.BMX_ERR_INFO 31 = false →
    ∃ t, exec (.defaultTargetAccess p 0 write false addr 4 1) s = .next t ∧ raised s t .busDefault
      ∧ t.reg Reg.BMX_ERR_ADDR = w32 addr
      ∧ t.reg Reg.BMX_ERR_INFO = w32 (2 ^ 31 + s.qosOf 0 * 2 ^ 20 + (if write then 2 ^ 15 else 0) + 0xFF)
      ∧ (write = false → p = .pcie → Emit.cplAbort ∈ t.out)
      ∧ (write = false → p = .spi → Emit.spi [0xFF, 0xFF, 0xFF, 0xFF] ∈ t.out ∧ t.host.spiAccessErr = true
          ∧ raised s t .spiAccess)
      ∧ keepsRegs s t ([Reg.BMX_ERR_ADDR, Reg.BMX_ERR_INFO] ++ flagRegs .busDefault ++ flagRegs .spiAccess)
      ∧ t = { s with regs := t.regs, out := t.out, host := t.host }

/-- R73, R74, R91, R106, R165: the PCIe link: a reset of it touches the PCIe configuration alone, its loss cuts host access
alone; as it is up again the vectors pending and unmasked are sent, and AER keeps what errors there were. That the host
has enumerated the function once the link is up is the model's choice (assumption 51). -/
def Obligations.HostLinkEventsSpareTheDevice : Prop :=
  ∀ s : State, s.inert = false →
    (∃ t, exec .hostLinkReset s = .next t ∧ t.host.pcieUp = false ∧ t.host.cfg = {} ∧ t.host.msixPending = 0
        ∧ (∀ off, 0x2_8000 ≤ off → off < 0x2_8400 → t.reg off = Reg.resetValue off)
        ∧ (∀ off, (off < 0x2_8000 ∨ 0x2_8400 ≤ off) → off ≠ Reg.INT_STATUS Blk.HIF → t.reg off = s.reg off)
        ∧ t = { s with regs := t.regs, host := t.host, alarmCond := t.alarmCond })
    ∧ (∃ t, exec .pcieLinkLoss s = .next t ∧ t.access .pcie = false ∧ t.access .spi = s.access .spi
        ∧ t = { s with host := { s.host with pcieUp := false } })
    ∧ (∃ t, exec .pcieLinkUp s = .next t ∧ t.access .pcie = s.ready
        ∧ (s.host.cfg.funcMask = false → ∀ v, v < 64 → v ≠ 18 → v ≠ 62 →
            t.host.msixPending.getLsbD v = (s.host.msixPending.getLsbD v && s.vecMasked v))
        ∧ keepsRegs s t [Reg.INT_STATUS Blk.HIF] ∧ t.dram = s.dram ∧ t.mram = s.mram)
    ∧ (∃ t, exec (.pcieError false) s = .next t ∧ raised s t .pcieCorr ∧ keepsRegs s t (flagRegs .pcieCorr)
        ∧ t.host.cfg = { s.host.cfg with corr := true } ∧ t.dram = s.dram)
    ∧ (s.condOn Blk.HIF 1 = false → ∃ t, exec (.pcieError true) s = .next t ∧ raised s t .pcieUncorr
        ∧ t.condOn Blk.HIF 1 = true ∧ keepsRegs s t (flagRegs .pcieUncorr)
        ∧ t.host.cfg = { s.host.cfg with uncorr := true } ∧ t.dram = s.dram)

/-- R78 to R83: SPI frames: a REG_WRITE frame that passes its checks writes its words in order, and one that does not
writes nothing; frames of one word in either direction, reads of too many words, an unknown opcode and GET_STATUS. The
bytes of a frame after its opcode: address, count 0, data most significant byte first, CRC. -/
def Obligations.SpiFramesOfOneWord : Prop :=
  ∀ (s : State) (a : Nat) (v : Word), s.ready = true → a % 4 = 0 →
    (a < 2 ^ 24 →
      ∃ t, exec (.spiRegWrite (beBytes 3 a ++ 0 :: beBytes 4 v.toNat
          ++ beBytes 2 (spiCrc (2 :: beBytes 3 a ++ 0 :: beBytes 4 v.toNat)))) s = .next t
        ∧ exec (.registerWrite .spi a v) { s with host := { s.host with spiAccessErr := false, spiCrcErr := false } }
          = .next t)
    ∧ (∀ frame b ws, spiCheck 2 3 frame = .write b ws → ∃ t, exec (.spiRegWrite frame) s = .next t
        ∧ wordsWritten { s with host := { s.host with spiAccessErr := false, spiCrcErr := false } } b ws t)
    ∧ (∀ frame, spiCheck 2 3 frame = .unaligned → ∃ t, exec (.spiRegWrite frame) s = .next t ∧ raised s t .spiAccess
        ∧ t.host.spiCrcErr = true ∧ keepsRegs s t (flagRegs .spiAccess) ∧ t.dram = s.dram)
    ∧ (∀ frame, spiCheck 2 3 frame = .badFrame → ∃ t, exec (.spiRegWrite frame) s = .next t ∧ raised s t .spiCrc
        ∧ t.host.spiCrcErr = true ∧ keepsRegs s t (flagRegs .spiCrc) ∧ t.dram = s.dram)
    ∧ (a < 2 ^ 24 → mapped a = true → (Reg.isX a = false ∨ s.xOpen = true) → a ≠ Reg.STM_PROG_DATA →
      ∃ t, exec (.spiRegRead a 0 1) s = .next t
        ∧ t.out = Emit.spi (beBytes 4 (s.readWord a).toNat
            ++ beBytes 2 (spiCrc (0x0B :: beBytes 3 a ++ 0 :: beBytes 4 (s.readWord a).toNat))) :: s.out
        ∧ t = { s with out := t.out, host := { s.host with spiAccessErr := false, spiCrcErr := false } })
    ∧ (a < 2 ^ 24 → mapped a = true → Reg.isX a = true → s.xOpen = false → ∃ t, exec (.spiRegRead a 0 1) s = .next t
        ∧ raised s t .xRefused ∧ t.reg Reg.SYS_X_REFUSED_ADDR = w32 (2 ^ 28 + a)
        ∧ Emit.spi (beBytes 4 0 ++ beBytes 2 (spiCrc (0x0B :: beBytes 3 a ++ 0 :: beBytes 4 0))) ∈ t.out
        ∧ keepsRegs s t (Reg.SYS_X_REFUSED_ADDR :: flagRegs .xRefused))
    ∧ (∀ addr count driven, 63 < count → count < 256 →
        (∃ t, exec (.spiRegRead addr count driven) s = .next t ∧ raised s t .spiAccess ∧ t.host.spiAccessErr = true
          ∧ Emit.spi (List.replicate (4 * driven) 0xFF) ∈ t.out ∧ keepsRegs s t (flagRegs .spiAccess) ∧ t.dram = s.dram)
        ∧ ∃ t, exec (.spiDramRead addr count driven) s = .next t ∧ raised s t .spiAccess ∧ t.host.spiAccessErr = true
          ∧ Emit.spi (List.replicate (4 * driven) 0xFF) ∈ t.out ∧ keepsRegs s t (flagRegs .spiAccess) ∧ t.dram = s.dram)
    ∧ (a < 2 ^ 40 → a + 4 ≤ s.dramSize → dramSound s →
      ∃ t, exec (.spiDramWrite (beBytes 5 a ++ 0 :: beBytes 4 v.toNat
          ++ beBytes 2 (spiCrc (0x12 :: beBytes 5 a ++ 0 :: beBytes 4 v.toNat)))) s = .next t
        ∧ t.dramWord a = v ∧ (dramQuiet s → keepsDram s t a 4 ∧ t.regs = s.regs) ∧ t.out = s.out)
    ∧ (a < 2 ^ 40 → a + 4 ≤ s.dramSize → dramSound s →
      ∃ t l, exec (.spiDramRead a 0 1) s = .next t ∧ l.length = 4
        ∧ t.out = Emit.spi (l.reverse ++ beBytes 2 (spiCrc (0x13 :: beBytes 5 a ++ 0 :: l.reverse))) :: s.out
        ∧ (dramQuiet s → readsAs s a 4 l
          ∧ t = { s with out := t.out, free := t.free, host := { s.host with spiAccessErr := false, spiCrcErr := false } }))
    ∧ (s.inert = true → exec .getStatus s = .next s)
    ∧ (s.inert = false → ∃ t b, exec .getStatus s = .next t ∧ t.out = Emit.spi [b] :: s.out ∧ b.getLsbD 0 = true
        ∧ b.getLsbD 1 = s.host.spiCrcErr ∧ b.getLsbD 2 = s.host.spiAccessErr ∧ b.getLsbD 7 = s.xOpen
        ∧ t = { s with out := t.out })
    ∧ (∀ op, exec (.spiOtherOpcode op) s = .next s)

/-! ### Mailbox, loader and supervisor (chapters 02, 04) -/

/-- R108 to R111, R518, R519: requests that the supervisor answers at once, and an opcode outside the table. -/
def Obligations.MailboxAnswersQuickRequests : Prop :=
  ∀ (s : State) (p : Port), s.access p = true → mboxOpen s →
    (∃ t, exec (.getVersion p) s = .next t
        ∧ mboxAnswered s t 1 0 [s.reg Reg.SVP_FW_VERSION, s.mram.genFloor, w32 s.ld.gen]
        ∧ keepsRegs s t mboxRegs ∧ t.mram = s.mram ∧ t.dram = s.dram ∧ t.ld = s.ld)
    ∧ (∃ t, exec (.keyStatus p) s = .next t ∧ mboxAnswered s t 7 0 [s.keyStates]
        ∧ keepsRegs s t mboxRegs ∧ t.mram = s.mram ∧ t.dram = s.dram ∧ t.ld = s.ld)
    ∧ (∃ t, exec (.healthReport p) s = .next t ∧ mboxAnswered s t 11 0 s.healthWords
        ∧ keepsRegs s t mboxRegs ∧ t.mram = s.mram ∧ t.dram = s.dram ∧ t.ld = s.ld)
    ∧ (mboxArg s 0 < 4096 → ∃ t, exec (.historyRead p) s = .next t
        ∧ mboxAnswered s t 12 0 (s.mram.history.getD (mboxArg s 0) [])
        ∧ keepsRegs s t mboxRegs ∧ t.mram = s.mram ∧ t.dram = s.dram ∧ t.ld = s.ld)
    ∧ (∀ op, op < 256 → (op = 0 ∨ 12 < op) → ∃ t, exec (.mboxBadOp p op) s = .next t ∧ mboxAnswered s t op 1 []
        ∧ keepsRegs s t mboxRegs ∧ t.mram = s.mram ∧ t.dram = s.dram ∧ t.ld = s.ld)
    ∧ (s.standby = false → dramQuiet s → 0 < mboxArg s 2 → mboxArg s 2 ≤ 4194304 → mboxArg s 1 < 64 →
        s.hostRange (mboxArg s 0 + mboxArg s 1 * 2 ^ 32) (mboxArg s 2) = true →
        ∃ t, exec (.imageLoad p) s = .next t ∧ mboxAnswered s t 2 0 []
        ∧ t.ld = { s.ld with submitted := t.ld.submitted }
        ∧ t.ld.submitted = s.ld.submitted ++ [.mk (s.dramRead (mboxArg s 0 + mboxArg s 1 * 2 ^ 32) (mboxArg s 2))]
        ∧ keepsRegs s t mboxRegs ∧ t.mram = s.mram ∧ t.dram = s.dram)

/-- R108, R110: requests that take time are in progress once accepted; until they complete nothing else has changed. -/
def Obligations.MailboxSlowRequestsGoInProgress : Prop :=
  ∀ (s : State) (p : Port), s.access p = true → mboxOpen s →
    (0 < mboxArg s 2 → mboxArg s 2 ≤ 4194304 → mboxArg s 1 < 64 → mboxArg s 3 < 3 →
        s.hostRange (mboxArg s 0 + mboxArg s 1 * 2 ^ 32) (mboxArg s 2) = true →
        ∃ t, exec (.copyWrite p) s = .next t ∧ mboxBusy s t 3)
    ∧ (mboxArg s 3 < 3 → ∃ t, exec (.copyCheck p) s = .next t ∧ mboxBusy s t 4)
    ∧ (s.xOpen = true → mboxArg s 0 < 4 → mboxArg s 2 < 64 → (s.keySlot (mboxArg s 0)).state = .empty →
        s.hostRange (mboxArg s 1 + mboxArg s 2 * 2 ^ 32) 32 = true →
        ∃ t, exec (.keyProvision p) s = .next t ∧ mboxBusy s t 5)
    ∧ (s.xOpen = true → mboxArg s 0 < 4 → (s.keySlot (mboxArg s 0)).state = .active →
        1 < (s.mram.keys.filter fun k => k.state == .active).length →
        ∃ t, exec (.keyRevoke p) s = .next t ∧ mboxBusy s t 6)
    ∧ (s.xOpen = true → s.mram.genFloor.toNat ≤ mboxArg s 0 → mboxArg s 0 ≤ s.ld.gen →
        ∃ t, exec (.genFloorSet p) s = .next t ∧ mboxBusy s t 8)
    ∧ (s.xOpen = true → 0 < mboxArg s 2 → mboxArg s 2 ≤ 65536 → mboxArg s 1 < 64 →
        s.hostRange (mboxArg s 0 + mboxArg s 1 * 2 ^ 32) (mboxArg s 2) = true →
        ∃ t, exec (.patchInstall p) s = .next t ∧ mboxBusy s t 9)
    ∧ (s.xOpen = true → ∃ t, exec (.patchRemove p) s = .next t ∧ mboxBusy s t 10)

/-- R109 to R112, R115: what the request in progress does as it completes, and that one whose store fails or times out
is answered STORE_FAIL and stores nothing. -/
def Obligations.MailboxCompletionDoesItsWork : Prop :=
  ∀ (s : State) (a : List Word), s.svpUp = true →
    (∀ i, s.svp.req = some { op := 5, args := a } → dramQuiet s → i < s.mram.keys.length → a.getD 0 0 = w32 i →
        i < 2 ^ 32 → ∃ t, exec (.mboxReply true) s = .next t ∧ mboxAnswered s t 5 0 []
        ∧ t.mram = { s.mram with keys := t.mram.keys }
        ∧ t.mram.keys = s.mram.keys.set i
            (.mk .active (s.dramRead ((a.getD 1 0).toNat + (a.getD 2 0).toNat * 2 ^ 32) 32))
        ∧ keepsRegs s t mboxRegs ∧ t.dram = s.dram)
    ∧ (∀ i, s.svp.req = some { op := 6, args := a } → a.getD 0 0 = w32 i → i < 2 ^ 32 →
        ∃ t, exec (.mboxReply true) s = .next t ∧ mboxAnswered s t 6 0 []
        ∧ t.mram = { s.mram with keys := s.mram.keys.set i (.mk .revoked (s.keySlot i).digest) }
        ∧ keepsRegs s t mboxRegs ∧ t.dram = s.dram)
    ∧ (s.svp.req = some { op := 8, args := a } → ∃ t, exec (.mboxReply true) s = .next t
        ∧ mboxAnswered s t 8 0 [a.getD 0 0] ∧ t.mram = { s.mram with genFloor := a.getD 0 0 }
        ∧ keepsRegs s t mboxRegs ∧ t.dram = s.dram)
    ∧ (s.svp.req = some { op := 10, args := a } → ∃ t, exec (.mboxReply true) s = .next t ∧ mboxAnswered s t 10 0 []
        ∧ t.mram = { s.mram with patch := none } ∧ keepsRegs s t mboxRegs ∧ t.dram = s.dram)
    ∧ (∀ b, s.svp.req = some { op := 3, args := a } → dramQuiet s → b = s.dramRead (mboxAddr a) (mboxLen a) →
        ((s.integrity b true).code ≠ 0 → ∀ ok, ∃ t, exec (.mboxReply ok) s = .next t
          ∧ mboxAnswered s t 3 5 [w32 (s.integrity b true).code] ∧ t.mram = s.mram ∧ t.flashA = s.flashA
          ∧ t.flashB = s.flashB ∧ keepsRegs s t mboxRegs ∧ t.dram = s.dram)
        ∧ ((s.integrity b true).code = 0 → ∃ t, exec (.mboxReply true) s = .next t ∧ mboxAnswered s t 3 0 [0]
          ∧ t.bootCopy (a.getD 3 0).toNat = b ++ (s.bootCopy (a.getD 3 0).toNat).drop b.length
          ∧ (∀ c, c < 3 → c ≠ (a.getD 3 0).toNat → (a.getD 3 0).toNat < 3 → t.bootCopy c = s.bootCopy c)
          ∧ t.mram.keys = s.mram.keys ∧ t.mram.genFloor = s.mram.genFloor ∧ keepsRegs s t mboxRegs ∧ t.dram = s.dram))
    ∧ (s.svp.req = some { op := 4, args := a } → ∃ t, exec (.mboxReply true) s = .next t
        ∧ mboxAnswered s t 4 0 [w32 (s.integrity (s.bootCopy (a.getD 3 0).toNat) true).code,
            if (s.integrity (s.bootCopy (a.getD 3 0).toNat) true).code = 0
            then w32 (imgGen (s.bootCopy (a.getD 3 0).toNat)) else 0]
        ∧ t.mram = s.mram ∧ keepsRegs s t mboxRegs ∧ t.dram = s.dram)
    ∧ (∀ op, op ≠ 3 → s.svp.req = some { op := op, args := a } →
        (∃ t, exec (.mboxReply false) s = .next t ∧ mboxAnswered s t op 6 [] ∧ t.mram = s.mram
          ∧ t.flashA = s.flashA ∧ t.flashB = s.flashB ∧ keepsRegs s t mboxRegs ∧ t.dram = s.dram)
        ∧ (∃ t, exec .mboxTimeout s = .next t ∧ mboxAnswered s t op 6 [] ∧ t.mram = s.mram
          ∧ t.flashA = s.flashA ∧ t.flashB = s.flashB ∧ keepsRegs s t mboxRegs ∧ t.dram = s.dram))

/-- R91, R93, R94, R95: a write of the current SEQ consumes the result of a window that is READY and drops its pending
vector, any other value does nothing;
a load result that waited then follows with the next SEQ. -/
def Obligations.ResultWindowsAreConsumedBySeq : Prop :=
  ∀ (s : State) (p : Port) (v : Word),
    (s.access p = true → s.bit Reg.SVP_MBOX_STATUS 31 = true → wbits v 7 0 = s.fld Reg.SVP_MBOX_STATUS 23 16 →
        ∃ t, exec (.mboxAck p v) s = .next t ∧ t = (s.setBit Reg.SVP_MBOX_STATUS 31 false).dropVector 16)
    ∧ (s.access p = true → s.bit Reg.BLK_RESULT 31 = true → wbits v 7 0 = s.fld Reg.BLK_RESULT 23 16 →
        ∃ t, exec (.blkResultAck p v) s = .next t ∧ t.bit Reg.BLK_RESULT 31 = false
        ∧ (∀ n, n ≠ 31 → t.bit Reg.BLK_RESULT n = s.bit Reg.BLK_RESULT n) ∧ keepsRegs s t [Reg.BLK_RESULT]
        ∧ t.host.msixPending.getLsbD 55 = false ∧ t = { s with regs := t.regs, host := t.host })
    ∧ (s.access p = true → s.bit Reg.CAS_RELAY_STATUS 31 = true → wbits v 7 0 = s.fld Reg.CAS_RELAY_STATUS 23 16 →
        ∃ t, exec (.relayAck p v) s = .next t ∧ t.bit Reg.CAS_RELAY_STATUS 31 = false
        ∧ (∀ n, n ≠ 31 → t.bit Reg.CAS_RELAY_STATUS n = s.bit Reg.CAS_RELAY_STATUS n)
        ∧ keepsRegs s t [Reg.CAS_RELAY_STATUS] ∧ t = { s with regs := t.regs, host := t.host })
    ∧ (s.access p = true → s.bit Reg.SYS_LOAD_STATUS 31 = true → wbits v 7 0 = s.fld Reg.SYS_LOAD_STATUS 23 16 →
        (s.ld.held = none → ∃ t, exec (.loadAck p v) s = .next t
            ∧ t = (s.setBit Reg.SYS_LOAD_STATUS 31 false).dropVector 17)
        ∧ (∀ r, s.ld.held = some r → ∃ t, exec (.loadAck p v) s = .next t
            ∧ loadShown s t r.code r.source r.gen r.record r.object r.unprov ∧ t.ld = { s.ld with held := none }
            ∧ keepsRegs s t loadRegs ∧ t.dram = s.dram))
    ∧ (s.access p = true → (s.bit Reg.SVP_MBOX_STATUS 31 = false ∨ wbits v 7 0 ≠ s.fld Reg.SVP_MBOX_STATUS 23 16) →
        exec (.mboxAck p v) s = .next s)

/-- R45, R46, R63, R68, R72, R510: the loader checks the oldest image submitted, posts one result, and only an image that
passes every check waits for its commit point, on an active that hears its peer once the peer has answered; the running
structure does not change at the check. That images wait for the boot's own load to end is the model's reading (assumption
48), that a standby accepts none of those its active time has left behind, and an active without Hornpipe on its own check,
the model's choice (assumption 68). -/
def Obligations.ImageCheckPostsOneResult : Prop :=
  ∀ (s : State) (x : Submission) (rest : List Submission), s.ld.submitted = x :: rest → 5 ≤ s.fld Reg.SYS_BOOT_STAGE 3 0 →
    s.bit Reg.SYS_LOAD_STATUS 31 = false → s.twin.verdict = none → s.svpUp = true →
    let s1 : State := { s with ld := { s.ld with submitted := rest } }
    let v := s1.checkImage x.bytes
    let delta := decide (64 ≤ x.bytes.length) && imgDelta x.bytes
    (v.code ≠ 0 → ∃ t, exec .imageCheck s = .next t
        ∧ loadShown s t v.code (if delta then 4 else 3) (if x.bytes.length < 64 then 0 else leAt x.bytes 12 4) v.record
            v.object false
        ∧ t.ld = s1.ld ∧ keepsRegs s t loadRegs ∧ t.streams = s.streams ∧ t.dram = s.dram ∧ t.mram = s.mram)
    ∧ (v.code = 0 → (s.active && s.hornpipeAny) = true → ∃ t r, exec .imageCheck s = .next t ∧ t.twin.verdict = some r
        ∧ r.code = 0 ∧ r.gen = leAt x.bytes 12 4 ∧ t.ld.next = s.ld.next ∧ t.ld.deltas = s.ld.deltas
        ∧ t.ld.recs = s.ld.recs ∧ t.ld.submitted = rest ∧ t.reg Reg.SYS_LOAD_STATUS = s.reg Reg.SYS_LOAD_STATUS
        ∧ t.streams = s.streams ∧ t.dram = s.dram ∧ t.mram = s.mram)
    ∧ (v.code = 0 → s.standby = true → ∃ t, exec .imageCheck s = .next t
        ∧ loadShown s t 0x32 (if delta then 4 else 3) (leAt x.bytes 12 4) v.record v.object false
        ∧ t.ld = s1.ld ∧ keepsRegs s t loadRegs ∧ t.streams = s.streams ∧ t.dram = s.dram ∧ t.mram = s.mram)
    ∧ (v.code = 0 → s.standby = false → (s.active && s.hornpipeAny) = false → ∃ t, exec .imageCheck s = .next t
        ∧ loadShown s t 0 (if delta then 4 else 3) (leAt x.bytes 12 4) v.record v.object s.unprovisioned
        ∧ t.ld.recs = s.ld.recs ∧ t.ld.gen = s.ld.gen ∧ t.ld.submitted = rest
        ∧ (imgDelta (imgTrim x.bytes) = true → t.ld.deltas = s.ld.deltas ++ [deltaOfImage (imgTrim x.bytes) s.ridden]
            ∧ t.ld.next = s.ld.next)
        ∧ (imgDelta (imgTrim x.bytes) = false → t.ld.next = some (planOfImage (imgTrim x.bytes) .accepted s.ridden)
            ∧ t.ld.deltas = s.ld.deltas)
        ∧ keepsRegs s t loadRegs ∧ t.streams = s.streams ∧ t.dram = s.dram ∧ t.mram = s.mram)

/-- R64, R65, R67, R72, R175: once the boot copies have been read, the copy chosen is on its way to running, or the fallback
structure runs on with a STRUCT_ code and its alarm. That such a result names no generation and no record is the model's
choice (assumption 48). -/
def Obligations.BootLoadChoosesACopy : Prop :=
  ∀ (s : State), s.fld Reg.SYS_BOOT_STAGE 3 0 = 4 → s.ld.next = none → s.ready = true →
    s.bit Reg.SYS_LOAD_STATUS 31 = false →
    (s.bootCopies = [] → ∃ t, exec .bootLoad s = .next t ∧ t.reg Reg.SYS_BOOT_STAGE = 6
        ∧ loadShown s t 0 5 0 0xFFFF 0xFFFF false ∧ t.reg Reg.SYS_LOAD_COPIES = 0x00FF_FFFF
        ∧ keepsRegs s t ([Reg.SYS_BOOT_STAGE, Reg.SYS_LOAD_COPIES] ++ loadRegs) ∧ t.ld = s.ld ∧ t.mram = s.mram)
    ∧ (∀ code bad, s.bootCopies ≠ [] →
        chooseCopy s.cascadeId 4 (s.bootCopies.filter fun c => c.code == 0)
          (s.bootCopies.filter fun c => c.code == 0).isEmpty [] = (.fallback code, bad) →
        ∃ t, exec .bootLoad s = .next t ∧ t.reg Reg.SYS_BOOT_STAGE = 6 ∧ loadShown s t code 5 0 0xFFFF 0xFFFF false
        ∧ t.reg Reg.SYS_LOAD_COPIES = copiesWord s.bootCopies bad
        ∧ (∀ f ∈ [(0x30, Flag.structConflict), (0x31, Flag.structNone), (0x32, Flag.structRefused)], code = f.1 →
            t.condOn f.2.place.1 f.2.place.2 = true)
        ∧ keepsRegs s t ([Reg.SYS_BOOT_STAGE, Reg.SYS_LOAD_COPIES] ++ flagRegs .structConflict ++ flagRegs .structNone
            ++ flagRegs .structRefused ++ loadRegs)
        ∧ t.ld = s.ld ∧ t.mram = s.mram)
    ∧ (∀ c bad, s.bootCopies ≠ [] →
        chooseCopy s.cascadeId 4 (s.bootCopies.filter fun c => c.code == 0)
          (s.bootCopies.filter fun c => c.code == 0).isEmpty [] = (.load c, bad) →
        ∃ t plan, exec .bootLoad s = .next t ∧ loadShown s t 0 c.no (imgGen c.bytes) 0xFFFF 0xFFFF s.unprovisioned
        ∧ t.ld.next = some plan ∧ plan.gen = imgGen c.bytes ∧ plan.image = c.bytes
        ∧ (plan.phase = .card ∨ plan.phase = .cascadeWait)
        ∧ (plan.phase = .cascadeWait → s.cascadeId ≠ 0) ∧ t.ld.recs = s.ld.recs
        ∧ keepsRegs s t (Reg.SYS_LOAD_COPIES :: loadRegs
            ++ if plan.phase = .card then [] else Reg.CAS_CFG :: (List.range 4).map Reg.JLX_PORT_CTRL) ∧ t.mram = s.mram)

/-- R115, R116, R117: a comparator mismatch holds LOCKSTEP and restarts the supervisor, TIM going on at the rate estimate, or
halts it at a second one within 60 s; the request in progress is answered RESTARTED once the restart ends, and the patch in force stays. -/
def Obligations.LockstepMismatchRestartsTheSupervisor : Prop :=
  ∀ s : State,
    (s.inert = false → s.bit Reg.SVP_LOCKSTEP 31 = false → s.svp.lastMismatch = none →
        (∀ r, s.svp.req = some r → r.op ≠ 3) →
        ∃ t, exec .lockstepMismatch s = .next t ∧ t.svp.restarting = true ∧ t.svp.req = none
        ∧ t.svp.lastMismatch = some s.uptime ∧ t.condOn Blk.SVP 1 = true ∧ t.bit Reg.SVP_LOCKSTEP 31 = false
        ∧ historyAdded s t 2 0 ∧ t.dram = s.dram ∧ t.stm = s.stm
        ∧ (s.tim.slewing = false → keepsRegs s t (Reg.SVP_LOCKSTEP :: flagRegs .lockstep) ∧ t.tim = s.tim)
        ∧ (s.tim.slewing = true →
          keepsRegs s t (Reg.SVP_LOCKSTEP :: Reg.TIM_ADDEND_LO :: Reg.TIM_ADDEND_HI :: flagRegs .lockstep)
          ∧ t.tim = { s.tim with slewing := false } ∧ t.reg Reg.TIM_ADDEND_LO = w32 (clampAddend s.tim.rate)
          ∧ t.reg Reg.TIM_ADDEND_HI = w32 (clampAddend s.tim.rate / 2 ^ 32)))
    ∧ (s.inert = false → s.bit Reg.SVP_LOCKSTEP 31 = false → s.paired = false →
        (∃ u, s.svp.lastMismatch = some u ∧ s.uptime ≤ u + lockstepWindow) →
        ∃ t, exec .lockstepMismatch s = .next t ∧ t.svp.restarting = false ∧ t.bit Reg.SVP_LOCKSTEP 31 = true
        ∧ t.dram = s.dram ∧ t.stm = s.stm)
    ∧ (s.svp.restarting = true → ∀ op, s.svp.lostOp = some op → ∃ t, exec .supervisorRestartDone s = .next t
        ∧ t.svp.restarting = false ∧ t.svp.lostOp = none ∧ t.condOn Blk.SVP 1 = false
        ∧ t.reg Reg.SVP_FW_VERSION = s.reg Reg.SVP_FW_VERSION
        ∧ t.reg Reg.SVP_MBOX_STATUS
          = w32 (2 ^ 31 + (s.fld Reg.SVP_MBOX_STATUS 23 16 + 1) % 256 * 2 ^ 16 + 11 * 256 + op % 256)
        ∧ raised s t .mboxReply ∧ t.dram = s.dram)

/-! ### Step machines (chapter 04) -/

/-- R120 to R122: every instruction whose operands fit its fields decodes from its word, and every word that is not
illegal is the word of the instruction it decodes to (that a bit which an instruction does not use must be zero is the
model's reading, assumption 12). -/
def Obligations.ProgramWordsDecodeAndEncode : Prop :=
  (∀ i : StmOp, i.wf = true → StmOp.decode i.encode = i)
    ∧ (∀ w : Word, StmOp.decode w ≠ .illegal → (StmOp.decode w).wf = true ∧ (StmOp.decode w).encode = w)

/-- R119, R121: moves and immediates, additions and subtractions with the flags they set, and the time stamp. -/
def Obligations.StmArithmeticWritesGdAndFlags : Prop :=
  ∀ (s : State) (m : Nat), let x := s.machine m
    (s.stmFetch m = some .nop → ∃ t, exec (.nop m) s = .next t ∧ stmWent s t m x)
    ∧ (∀ d imm, s.stmFetch m = some (.movi d imm) → ∃ t, exec (.movi m) s = .next t
        ∧ stmWent s t m (x.setReg d (BitVec.ofNat 32 imm)))
    ∧ (∀ d imm, s.stmFetch m = some (.movh d imm) → ∃ t v, exec (.movh m) s = .next t ∧ stmWent s t m (x.setReg d v)
        ∧ wbits v 31 16 = imm % 65536 ∧ wbits v 15 0 = wbits (x.reg d) 15 0)
    ∧ (∀ d a, s.stmFetch m = some (.mov d a) → ∃ t, exec (.mov m) s = .next t ∧ stmWent s t m (x.setReg d (x.reg a)))
    ∧ (∀ d a b, s.stmFetch m = some (.add d a b) → ∃ t, exec (.add m) s = .next t
        ∧ stmWent s t m { stmResult s m d (x.reg a + x.reg b) with
            c := decide (2 ^ 32 ≤ (x.reg a).toNat + (x.reg b).toNat) })
    ∧ (∀ d a imm, s.stmFetch m = some (.addi d a imm) → ∃ t, exec (.addi m) s = .next t
        ∧ stmWent s t m { stmResult s m d (x.reg a + sx16 imm) with
            c := decide (2 ^ 32 ≤ (x.reg a).toNat + (sx16 imm).toNat) })
    ∧ (∀ d a b, s.stmFetch m = some (.sub d a b) → ∃ t, exec (.sub m) s = .next t
        ∧ stmWent s t m { stmResult s m d (x.reg a - x.reg b) with c := decide ((x.reg a).toNat < (x.reg b).toNat) })
    ∧ (∀ a b, s.stmFetch m = some (.cmp a b) → ∃ t, exec (.cmp m) s = .next t
        ∧ stmWent s t m { x with z := decide (x.reg a = x.reg b), n := (x.reg a - x.reg b).getLsbD 31,
                                 c := decide ((x.reg a).toNat < (x.reg b).toNat) })
    ∧ (∀ a imm, s.stmFetch m = some (.cmpi a imm) → ∃ t, exec (.cmpi m) s = .next t
        ∧ stmWent s t m { x with z := decide (x.reg a = sx16 imm), n := (x.reg a - sx16 imm).getLsbD 31,
                                 c := decide ((x.reg a).toNat < (sx16 imm).toNat) })
    ∧ (∀ d, s.stmFetch m = some (.rdts d) → ∃ t, exec (.rdts m) s = .next t ∧ stmWent s t m (x.setReg d s.ts))

/-- R121: the logical instructions and the shifts set Z and N and leave C as it was. -/
def Obligations.StmLogicKeepsCarry : Prop :=
  ∀ (s : State) (m : Nat), let x := s.machine m
    (∀ d a b, s.stmFetch m = some (.and d a b) → ∃ t, exec (.and m) s = .next t
        ∧ stmWent s t m (stmResult s m d (x.reg a &&& x.reg b)) ∧ (t.machine m).c = x.c)
    ∧ (∀ d a imm, s.stmFetch m = some (.andi d a imm) → ∃ t, exec (.andi m) s = .next t
        ∧ stmWent s t m (stmResult s m d (x.reg a &&& BitVec.ofNat 32 imm)) ∧ (t.machine m).c = x.c)
    ∧ (∀ d a b, s.stmFetch m = some (.or d a b) → ∃ t, exec (.or m) s = .next t
        ∧ stmWent s t m (stmResult s m d (x.reg a ||| x.reg b)) ∧ (t.machine m).c = x.c)
    ∧ (∀ d a imm, s.stmFetch m = some (.ori d a imm) → ∃ t, exec (.ori m) s = .next t
        ∧ stmWent s t m (stmResult s m d (x.reg a ||| BitVec.ofNat 32 imm)) ∧ (t.machine m).c = x.c)
    ∧ (∀ d a b, s.stmFetch m = some (.xor d a b) → ∃ t, exec (.xor m) s = .next t
        ∧ stmWent s t m (stmResult s m d (x.reg a ^^^ x.reg b)) ∧ (t.machine m).c = x.c)
    ∧ (∀ d a n, s.stmFetch m = some (.shl d a n) → ∃ t v, exec (.shl m) s = .next t ∧ stmWent s t m (stmResult s m d v)
        ∧ v.toNat = (x.reg a).toNat * 2 ^ n % 2 ^ 32 ∧ (t.machine m).c = x.c)
    ∧ (∀ d a n, s.stmFetch m = some (.shr d a n) → ∃ t v, exec (.shr m) s = .next t ∧ stmWent s t m (stmResult s m d v)
        ∧ v.toNat = (x.reg a).toNat / 2 ^ n ∧ (t.machine m).c = x.c)

/-- R119, R121, R122, R126, R127: branches, calls, data words, the end of a program and its faults. A data address
outside local and SHARE data, a full or empty stack and an illegal instruction fault and change nothing else. -/
def Obligations.StmControlFlowAndFaults : Prop :=
  ∀ (s : State) (m : Nat), let x := s.machine m
    (∀ cond target, s.stmFetch m = some (.br cond target) → ∃ t, exec (.br m) s = .next t
        ∧ stmCompleted s t m x (if brHolds cond x then target else x.pc + 1))
    ∧ (∀ target, s.stmFetch m = some (.call target) → x.stack.length < 4 → ∃ t, exec (.call m) s = .next t
        ∧ stmCompleted s t m { x with stack := (x.pc + 1) % 512 :: x.stack } target)
    ∧ (∀ target, s.stmFetch m = some (.call target) → 4 ≤ x.stack.length → ∃ t, exec (.call m) s = .next t
        ∧ stmFaulted s t m 3)
    ∧ (∀ pc rest, s.stmFetch m = some .ret → x.stack = pc :: rest → ∃ t, exec (.ret m) s = .next t
        ∧ stmCompleted s t m { x with stack := rest } pc)
    ∧ (s.stmFetch m = some .ret → x.stack = [] → ∃ t, exec (.ret m) s = .next t ∧ stmFaulted s t m 3)
    ∧ (∀ d a imm v, s.stmFetch m = some (.ld d a imm) → s.stmLoad m ((x.reg a).toNat + imm) = some v →
        ∃ t, exec (.ld m) s = .next t ∧ stmWent s t m (x.setReg d v))
    ∧ (∀ d a imm, s.stmFetch m = some (.st d a imm) → (x.reg a).toNat + imm < 64 → ∃ t, exec (.st m) s = .next t
        ∧ stmWent s t m { x with loc := Cells.put (fun _ => 0) x.loc ((x.reg a).toNat + imm) (x.reg d) })
    ∧ (∀ d a imm k, s.stmFetch m = some (.st d a imm) → (x.reg a).toNat + imm = 256 + k → k < 48 →
        ∃ t, exec (.st m) s = .next t ∧ t.reg (Reg.STM_SHARE k) = x.reg d
        ∧ t.machine m = { x with pc := (x.pc + 1) % 512, wait := .none } ∧ (∀ j, j ≠ m → t.machine j = s.machine j)
        ∧ keepsRegs s t [Reg.STM_SHARE k, Reg.STM_STATUS m] ∧ t = { s with stm := t.stm, regs := t.regs })
    ∧ (∀ d a imm, s.stmFetch m = some (.st d a imm) → 64 ≤ (x.reg a).toNat + imm →
        ((x.reg a).toNat + imm < 256 ∨ 304 ≤ (x.reg a).toNat + imm) → ∃ t, exec (.st m) s = .next t ∧ stmFaulted s t m 4)
    ∧ (s.stmFetch m = some .halt → ∃ t, exec (.halt m) s = .next t ∧ stmStops s t m 3 ∧ t.machine m = x)
    ∧ (∀ code, s.stmFetch m = some (.fault code) → ∃ t, exec (.stmFault m) s = .next t ∧ stmFaulted s t m code)
    ∧ (s.stmFetch m = some .illegal → ∃ t, exec (.illegalInstruction m false) s = .next t ∧ stmFaulted s t m 1)
    ∧ (m ≤ 64 → s.stmState m = 1 → s.stmWords m ≤ x.pc → ∃ t, exec (.illegalInstruction m false) s = .next t
        ∧ stmFaulted s t m 2)
    ∧ (m ≤ 64 → s.stmState m = 1 → x.pc < s.stmWords m → ∃ t, exec (.illegalInstruction m true) s = .next t
        ∧ stmFaulted s t m 6)

/-- R121, R123: event lines: waiting for them, clearing them, the alarm time and KICK. -/
def Obligations.StmEventLinesLatchAndWake : Prop :=
  ∀ (s : State) (m : Nat), let x := s.machine m
    (∀ d mask, s.stmFetch m = some (.waite d mask) → x.ev &&& BitVec.ofNat 16 mask ≠ 0 → ∃ t, exec (.waite m) s = .next t
        ∧ stmWent s t m { x.setReg d ((x.ev &&& BitVec.ofNat 16 mask).zeroExtend 32) with
            ev := x.ev &&& ~~~ BitVec.ofNat 16 mask })
    ∧ (∀ d mask, s.stmFetch m = some (.waite d mask) → x.ev &&& BitVec.ofNat 16 mask = 0 → ∃ t, exec (.waite m) s = .next t
        ∧ stmStops s t m 2 ∧ t.machine m = { x with wait := .event mask d })
    ∧ (∀ d mask, x.wait = .event mask d → s.stmState m = 2 → x.ev &&& BitVec.ofNat 16 mask ≠ 0 →
        ∃ t, exec (.waiteWake m) s = .next t
        ∧ stmWent s t m { x.setReg d ((x.ev &&& BitVec.ofNat 16 mask).zeroExtend 32) with
            ev := x.ev &&& ~~~ BitVec.ofNat 16 mask })
    ∧ (∀ mask, s.stmFetch m = some (.clre mask) → ∃ t, exec (.clre m) s = .next t
        ∧ stmWent s t m { x with ev := x.ev &&& ~~~ BitVec.ofNat 16 mask })
    ∧ (∀ w, s.stmOutWord m 0 = some w → tsReached s.ts w = false → ∃ t, exec (.outAlarm m) s = .next t
        ∧ stmWent s t m { x with alarm := some w, ev := x.ev &&& ~~~ 1 })
    ∧ (∀ w, x.alarm = some w → tsReached s.ts w = true → ∃ t, exec (.alarmTimeReached m) s = .next t
        ∧ t.machine m = { x with alarm := none, ev := x.ev ||| 1 } ∧ (∀ k, k ≠ m → t.machine k = s.machine k)
        ∧ t = { s with stm := t.stm })
    ∧ (∀ p, m ≤ 64 → mayWrite s p → s.xOpen = false → ∃ t, exec (.kick p m) s = .next t
        ∧ t.machine m = { x with ev := x.ev ||| 0x8000 } ∧ (∀ k, k ≠ m → t.machine k = s.machine k)
        ∧ t = { s with stm := t.stm, twin := t.twin })

/-- R121, R123, R127, R199, R481: IN takes the oldest word present at its port, or waits for one and resumes with it; an
IN from a port that the machine's kind lacks faults. What the line port of an output machine reads as between raster lines
is the model's reading (assumption 17). -/
def Obligations.StmInputTakesOrWaits : Prop :=
  ∀ (s : State) (m d : Nat) (w : Word) (rest : List Word), let x := s.machine m
    (m < 40 → s.stmFetch m = some (.inp d 1) → x.tapFifo = w :: rest → ∃ t, exec (.inTap m) s = .next t
        ∧ stmWent s t m ({ x with tapFifo := rest }.setReg d w))
    ∧ (m < 40 → s.stmFetch m = some (.inp d 1) → x.tapFifo = [] → ∃ t, exec (.inTap m) s = .next t
        ∧ stmStops s t m 2 ∧ t.machine m = { x with wait := .port 1 d })
    ∧ (m < 40 → s.stmFetch m = some (.inp d 5) → x.ancFifo = w :: rest → ∃ t, exec (.inAnc m) s = .next t
        ∧ stmWent s t m ({ x with ancFifo := rest }.setReg d w))
    ∧ (s.stmFetch 64 = some (.inp d 1) → (s.machine 64).proposals = w :: rest → ∃ t, exec (.inProposal 64) s = .next t
        ∧ stmWent s t 64 ({ s.machine 64 with proposals := rest }.setReg d w))
    ∧ (m < 40 → x.wait = .port 1 d → s.stmState m = 2 → x.tapFifo = w :: rest → ∃ t, exec (.inResume m) s = .next t
        ∧ stmWent s t m ({ x with tapFifo := rest }.setReg d w))
    ∧ (40 ≤ m → m < 64 → s.stmFetch m = some (.inp d 1) → ∃ t, exec (.inLine m) s = .next t
        ∧ stmWent s t m (x.setReg d (BitVec.ofNat 32 (s.output (m - 40)).line)))
    ∧ (∀ p, s.stmFetch m = some (.inp d p) → stmReadable (stmKind m) p = false → ∃ t, exec (.inTap m) s = .next t
        ∧ stmFaulted s t m 5)

/-- R123 to R125, R127, R481: OUT to each port of a machine's kind; an OUT to a port that its kind lacks and a GPIO mask
beyond the granted groups fault. -/
def Obligations.StmOutputDrivesItsPort : Prop :=
  ∀ (s : State) (m : Nat) (w : Word), let x := s.machine m
    (∀ d, s.stmFetch m = some (.out d 8) → x.reg d = w → s.standby = false →
        BitVec.ofNat 16 (wbits w 31 16) &&& ~~~ grantLines (s.stmGrant m) = 0 → ∃ t, exec (.outGpio m) s = .next t
        ∧ (∀ k, k < 16 → t.boot.gpio.getLsbD k = if w.getLsbD (16 + k) then w.getLsbD k else s.boot.gpio.getLsbD k)
        ∧ t.boot.gpioShadow = s.boot.gpioShadow ∧ t.machine m = { x with pc := (x.pc + 1) % 512, wait := .none }
        ∧ keepsRegs s t [Reg.STM_STATUS m] ∧ t.dram = s.dram)
    ∧ (∀ d, s.stmFetch m = some (.out d 8) → x.reg d = w → s.standby = true →
        BitVec.ofNat 16 (wbits w 31 16) &&& ~~~ grantLines (s.stmGrant m) = 0 → ∃ t, exec (.outGpio m) s = .next t
        ∧ t.boot.gpio = s.boot.gpio ∧ t.boot.gpioDriven = s.boot.gpioDriven
        ∧ (∀ k, k < 16 → w.getLsbD (16 + k) = true → t.boot.gpioShadow.1.getLsbD k = true
            ∧ t.boot.gpioShadow.2.getLsbD k = w.getLsbD k))
    ∧ (∀ d, s.stmFetch m = some (.out d 8) → x.reg d = w →
        BitVec.ofNat 16 (wbits w 31 16) &&& ~~~ grantLines (s.stmGrant m) ≠ 0 → ∃ t, exec (.outGpio m) s = .next t
        ∧ stmFaulted s t m 5)
    ∧ (∀ d p, s.stmFetch m = some (.out d p) → stmWritable (stmKind m) p = false → ∃ t, exec (.outGpio m) s = .next t
        ∧ stmFaulted s t m 5)
    ∧ (s.stmOutWord m 9 = some w → ∃ t, exec (.outNote m) s = .next t ∧ t.fld (Reg.STM_STATUS m) 15 0 = wbits w 15 0
        ∧ t.machine m = { x with pc := (x.pc + 1) % 512, wait := .none } ∧ (∀ k, k ≠ m → t.machine k = s.machine k)
        ∧ keepsRegs s t [Reg.STM_STATUS m] ∧ t = { s with stm := t.stm, regs := t.regs })
    ∧ (m < 40 → s.stmOutWord m 2 = some w → ∃ t, exec (.outTapX m) s = .next t
        ∧ stmWent s t m { x with tapX := (wbits w 15 0, wbits w 31 16) })
    ∧ (m < 40 → s.stmOutWord m 3 = some w → ∃ t, exec (.outTapY m) s = .next t
        ∧ stmWent s t m { x with tapY := (wbits w 15 0, wbits w 23 16, wbits w 25 24) })
    ∧ (m < 40 → s.stmOutWord m 4 = some w → x.tapReady = true → ∃ t, exec (.outAlive m) s = .next t
        ∧ stmWent s t m { x with alive := some (wbits w 15 0) })
    ∧ (40 ≤ m → m < 64 → s.stmOutWord m 2 = some w → ∃ t, exec (.outLineSet m) s = .next t
        ∧ stmWent s t m { x with lineSet := some w.toNat })
    ∧ (40 ≤ m → m < 64 → s.stmOutWord m 3 = some w → ∃ t, exec (.outHeadCtrl m) s = .next t
        ∧ (t.output (m - 40)).queue = (s.output (m - 40)).queue ++ [(0x40, 0, w.toNat)]
        ∧ t.machine m = { x with pc := (x.pc + 1) % 512, wait := .none } ∧ keepsRegs s t [Reg.STM_STATUS m]
        ∧ t = { s with stm := t.stm, regs := t.regs, outputs := t.outputs })
    ∧ (∀ r, s.stmOutWord 64 2 = some w → s.headRec (wbits w 4 0) = some r → wbits w 6 5 = 0 → r.rateTop ≤ wbits w 9 8 →
        wbits w 9 8 ≠ (s.head (wbits w 4 0)).rateNext → (s.head (wbits w 4 0)).touches = [] →
        ∃ t, exec (.outDecide 64) s = .next t ∧ (t.head (wbits w 4 0)).rateNext = wbits w 9 8
        ∧ (t.machine 64).pc = ((s.machine 64).pc + 1) % 512 ∧ (∀ k, k ≠ wbits w 4 0 → t.head k = s.head k)
        ∧ t.dram = s.dram ∧ t.mram = s.mram)

/-- R119, R129 to R131: control of a machine with X access, and its program memory. -/
def Obligations.StmControlWritesNeedXAccess : Prop :=
  ∀ (s : State) (p : Port) (m : Nat), m ≤ 64 → mayWriteX s p → s.bit (Reg.STM_CTRL m) 29 = false →
      s.bit (Reg.STM_CTRL m) 30 = false → s.stmGrant m &&& s.grantedElsewhere m = 0 → s.stmWords m ≤ 512 →
    (s.stmState m = 0 → ∃ t, exec (.stmRun p m true) s = .next t ∧ t.stmState m = 1 ∧ t.stmRun m = true ∧ xCounted s t
        ∧ keepsRegs s t [Reg.STM_CTRL m, Reg.STM_STATUS m] ∧ (∀ k, t.machine k = s.machine k))
    ∧ (s.stmState m = 1 → ∃ t, exec (.stmRun p m false) s = .next t ∧ t.stmState m = 0 ∧ t.stmRun m = false ∧ xCounted s t
        ∧ keepsRegs s t [Reg.STM_CTRL m, Reg.STM_STATUS m] ∧ (∀ k, t.machine k = s.machine k))
    ∧ (∃ t, exec (.stmRestart p m) s = .next t ∧ t.machine m = { prog := (s.machine m).prog }
        ∧ (∀ k, k ≠ m → t.machine k = s.machine k) ∧ t.stmState m = (if s.stmRun m then 1 else 0)
        ∧ t.fld (Reg.STM_STATUS m) 27 16 = 0 ∧ xCounted s t ∧ keepsRegs s t [Reg.STM_CTRL m, Reg.STM_STATUS m])
    ∧ (∀ g, g < 16 → g &&& s.grantedElsewhere m = 0 → ∃ t, exec (.stmGrant p m g) s = .next t ∧ t.stmGrant m = g
        ∧ xCounted s t ∧ keepsRegs s t [Reg.STM_CTRL m, Reg.STM_STATUS m] ∧ (∀ k, t.machine k = s.machine k))
    ∧ (∀ g, g < 16 → g &&& s.grantedElsewhere m ≠ 0 → ∃ t, exec (.stmGrant p m g) s = .next t
        ∧ t.stmGrant m = s.stmGrant m ∧ t.bit Reg.STM_PROG_SEL 31 = true ∧ (∀ k, t.machine k = s.machine k))
    ∧ (∀ n, n ≤ 512 → ∃ t, exec (.stmWords p m n) s = .next t ∧ t.stmWords m = n ∧ xCounted s t
        ∧ keepsRegs s t [Reg.STM_CTRL m, Reg.STM_STATUS m] ∧ (∀ k, t.machine k = s.machine k))
    ∧ (∀ v, s.progMachine = m → s.stmState m ≠ 1 → s.stmState m ≠ 2 → ∃ t, exec (.progDataWrite p v) s = .next t
        ∧ t.progMachine = m
        ∧ t.machine m = { s.machine m with
            prog := Cells.put (fun _ => 0) (s.machine m).prog (s.fld Reg.STM_PROG_ADDR 8 0) v }
        ∧ t.fld Reg.STM_PROG_ADDR 8 0 = (s.fld Reg.STM_PROG_ADDR 8 0 + 1) % 512 ∧ xCounted s t
        ∧ (∀ k, k ≠ m → t.machine k = s.machine k) ∧ keepsRegs s t [Reg.STM_PROG_ADDR])
    ∧ (∃ t, exec (.progDataRead p) s = .next t
        ∧ t.out = (s.answer p s.progWord).out
        ∧ t.fld Reg.STM_PROG_ADDR 8 0 = (s.fld Reg.STM_PROG_ADDR 8 0 + 1) % 512
        ∧ keepsRegs s t [Reg.STM_PROG_ADDR] ∧ t = { s with regs := t.regs, out := t.out })

/-! ### Command queues and commit points (chapter 05) -/

/-- R132, R133, R151, R152, R156, R157: a host's writes of the registers of a queue. That RUN reads 0 after an ABORT is the
model's choice (assumption 22). A command that another member checks is checked to its end. -/
def Obligations.QueueRegisterWritesMoveTheQueue : Prop :=
  ∀ (s : State) (p : Port) (q : Nat), s.access p = true → q < 16 →
    (∀ v : Word, s.qState q ≠ 4 → (v.toNat % 65536 + 65536 - s.qHead q) % 65536 ≤ ringSize (s.reg (Reg.CMD_Q_RING q)) →
      ∃ t, exec (.qTailWrite p q v) s = .next t ∧ t.qTail q = v.toNat % 65536 ∧ keepsRegs s t [Reg.CMD_Q_TAIL q]
        ∧ t = { s with regs := t.regs })
    ∧ (∀ v : Word, s.qState q ≠ 4 → ringSize (s.reg (Reg.CMD_Q_RING q)) < (v.toNat % 65536 + 65536 - s.qHead q) % 65536 →
      ∃ t, exec (.qTailWrite p q v) s = .next t ∧ t.qTail q = v.toNat % 65536 ∧ t.qState q = 3
        ∧ t.fld (Reg.CMD_Q_STATUS q) 23 16 = 2 ∧ t.qHead q = s.qHead q)
    ∧ (s.qState q = 0 ∨ s.qState q = 3 → s.fld Reg.SYS_BOOT_STAGE 3 0 ≠ 2 → s.fld Reg.SYS_BOOT_STAGE 3 0 ≠ 3 →
        s.hotBytes ≠ 0 → s.ringOk (s.reg (Reg.CMD_Q_RING q)) = true → s.ringOk (s.reg (Reg.CMD_EV_RING q)) = true →
        (s.queue q).ringFull = false →
      ∃ t, exec (.qRun p q true) s = .next t ∧ t.qRun q = true ∧ t.qState q = (if s.qForwards q then 2 else 1) ∧ t.qHead q = s.qHead q
        ∧ keepsRegs s t [Reg.CMD_Q_CTRL q, Reg.CMD_Q_STATUS q] ∧ t = { s with regs := t.regs, cmd := t.cmd })
    ∧ (s.qState q = 1 → s.fld Reg.SYS_BOOT_STAGE 3 0 ≠ 2 → s.fld Reg.SYS_BOOT_STAGE 3 0 ≠ 3 → s.hotBytes ≠ 0 →
      ∃ t, exec (.qRun p q false) s = .next t ∧ t.qRun q = false ∧ t.qState q = 0 ∧ t.qHead q = s.qHead q
        ∧ keepsRegs s t [Reg.CMD_Q_CTRL q, Reg.CMD_Q_STATUS q] ∧ t = { s with regs := t.regs })
    ∧ (s.qState q ≠ 4 → ∃ t, exec (.qAbort p q) s = .next t ∧ t.qHead q = s.qTail q ∧ t.qState q = 0
        ∧ t.qRun q = false ∧ (t.queue q).wait = (if s.qForwards q then (s.queue q).wait else .none) ∧ t.cmd.held = s.cmd.held ∧ t.cmd.fences = s.cmd.fences
        ∧ t.cmd.dmas = s.cmd.dmas ∧ t.cmd.decs = s.cmd.decs
        ∧ keepsRegs s t [Reg.CMD_Q_CTRL q, Reg.CMD_Q_STATUS q] ∧ t = { s with regs := t.regs, cmd := t.cmd })
    ∧ ((s.qRun q = true ∧ s.qState q = 1) ∨ (s.qRun q = false ∧ s.qState q = 0) →
      ∃ t, exec (.lostClr p q) s = .next t ∧ t.fld (Reg.CMD_Q_CTRL q) 7 0 = 0
        ∧ t.fld (Reg.CMD_Q_CTRL q) 31 8 = s.fld (Reg.CMD_Q_CTRL q) 31 8 ∧ t.qState q = s.qState q
        ∧ keepsRegs s t [Reg.CMD_Q_CTRL q] ∧ t = { s with regs := t.regs })
    ∧ (∀ v : Word, (s.queue q).ringFull = false → ∃ t, exec (.evRdWrite p q v) s = .next t
        ∧ t.fld (Reg.CMD_EV_PTR q) 15 0 = v.toNat % 65536
        ∧ t.fld (Reg.CMD_EV_PTR q) 31 16 = s.fld (Reg.CMD_EV_PTR q) 31 16
        ∧ keepsRegs s t [Reg.CMD_EV_PTR q] ∧ t = { s with regs := t.regs, out := t.out, host := t.host })

/-- R138, R141, R147 to R150, R155: the commands that take effect at once, and a record whose opcode R138 does not list. -/
def Obligations.ImmediateCommandsTakeEffectAtOnce : Prop :=
  ∀ (s0 : State) (q : Nat) (r : CmdRec), let s := s0.qRead q
    (takesQuiet s0 q r 0 → ∃ t, exec (.cmdNop q) s0 = .next t ∧ passed s t q [] ∧ t.cmd = s.cmd)
    ∧ (takesQuiet s0 q r 8 → r.arg 2 = 0 → ∃ t, exec (.fenceSignalAccept q) s0 = .next t
        ∧ (t.fence r.obj).toNat = max (s.fence r.obj).toNat r.value.toNat
        ∧ passed s t q [Reg.CMD_FENCE_LO r.obj, Reg.CMD_FENCE_LO r.obj + 4] ∧ t.cmd = s.cmd)
    ∧ (takesQuiet s0 q r 8 → r.arg 2 = 1 → s.outstanding q = [] → ∃ t, exec (.fenceSignalCommit q) s0 = .next t
        ∧ (t.fence r.obj).toNat = max (s.fence r.obj).toNat r.value.toNat
        ∧ passed s t q [Reg.CMD_FENCE_LO r.obj, Reg.CMD_FENCE_LO r.obj + 4] ∧ t.cmd = s.cmd)
    ∧ (takesQuiet s0 q r 8 → r.arg 2 = 1 → s.outstanding q ≠ [] → ∃ t, exec (.fenceSignalCommit q) s0 = .next t
        ∧ t.fence r.obj = s.fence r.obj ∧ passed s t q []
        ∧ t.cmd.fences = s.cmd.fences ++ [fenceOf s q r]
        ∧ t.cmd = { s.cmd with fences := t.cmd.fences, nextSeq := s.cmd.nextSeq + 1 })
    ∧ (takesQuiet s0 q r 9 → r.value.toNat ≤ (s.fence r.obj).toNat → ∃ t, exec (.fenceWait q) s0 = .next t
        ∧ passed s t q [] ∧ t.cmd = s.cmd)
    ∧ (takesQuiet s0 q r 9 → (s.fence r.obj).toNat < r.value.toNat → ∃ t, exec (.fenceWait q) s0 = .next t
        ∧ t.qState q = 2 ∧ t.qHead q = (s.qHead q + 1) % 65536
        ∧ (t.queue q).wait = .fence r.obj r.value (if r.arg 2 = 0 then none else some (s.uptime + r.arg 2 * 600000)) r
        ∧ keepsRegs s t [Reg.CMD_Q_STATUS q] ∧ t = { s with regs := t.regs, twin := t.twin, cmd := t.cmd })
    ∧ (takesQuiet s0 q r 0x0A → ∃ t, exec (.waitCommit q) s0 = .next t
        ∧ t.qState q = 2 ∧ t.qHead q = (s.qHead q + 1) % 65536 ∧ (t.queue q).wait = .commits (r.arg 0) (r.arg 1) r
        ∧ keepsRegs s t [Reg.CMD_Q_STATUS q] ∧ t = { s with regs := t.regs, twin := t.twin, cmd := t.cmd })
    ∧ (takesQuiet s0 q r 0x10 → ringTakes s q → ∃ t, exec (.mark q) s0 = .next t ∧ headMoved s t q
        ∧ evWritten s t q (evOf s q r 4 0 r.value.toNat)
        ∧ keepsRegs s t [Reg.CMD_Q_STATUS q, Reg.CMD_EV_PTR q] ∧ t.cmd = s.cmd)
    ∧ (s0.qFetch q = .record r → 0x10 < r.op → ringTakes s q → ∃ t, exec (.cmdBadOp q) s0 = .next t ∧ headMoved s t q
        ∧ evWritten s t q (evOf s q r 1 1 0)
        ∧ raised s t .cmdRefused
        ∧ keepsRegs s t ([Reg.CMD_Q_STATUS q, Reg.CMD_EV_PTR q] ++ flagRegs .cmdRefused) ∧ t.cmd = s.cmd)

/-- R34, R135, R138, R145: the commands whose effect is due at a commit point are held with exactly the change that R138
gives them; nothing else changes when they are accepted. A layer command may name an ensemble's external input; by which
OBJECT is the model's choice (assumption 46). -/
def Obligations.CommitCommandsHoldTheirChange : Prop :=
  ∀ (s0 : State) (q : Nat) (r : CmdRec), let s := s0.qRead q
    (∀ k i e, 1 ≤ r.op → r.op ≤ 4 → k < 64 → i < 16 → r.obj = 0x8000 + 16 * k + i → s.inputSlot k i = some e →
        remoteNode e.1 = false → (s.slotCmd r).obj = 16 * e.1 + e.2)
    ∧ (r.obj < 0x8000 → s.slotCmd r = r)
    ∧ (takesQuiet s0 q r 1 → s.remoteSlot r = false → ∃ t, exec (.setSource q) s0 = .next t
        ∧ holdsChange s t q r (.words [(0x24_0000 + 64 * (s.slotCmd r).obj, 0x0000_FFFF, w32 (r.arg 0))]))
    ∧ (takesQuiet s0 q r 2 → s.remoteSlot r = false → ∃ t, exec (.setGeometry q) s0 = .next t
        ∧ holdsChange s t q r (.words [(0x24_0000 + 64 * (s.slotCmd r).obj + 4, 0xFFFF_FFFF, w32 (r.arg 0)),
            (0x24_0000 + 64 * (s.slotCmd r).obj + 8, 0xFFFF_FFFF, w32 (r.arg 1)),
            (0x24_0000 + 64 * (s.slotCmd r).obj + 12, 0xFFFF_FFFF, w32 (r.arg 2)),
            (0x24_0000 + 64 * (s.slotCmd r).obj + 16, 0xFFFF_FFFF, w32 (r.arg 3))]))
    ∧ (takesQuiet s0 q r 3 → s.remoteSlot r = false → ∃ t, exec (.setBlend q) s0 = .next t
        ∧ holdsChange s t q r (.words [(0x24_0000 + 64 * (s.slotCmd r).obj, 0xFFFF_0000,
            w32 (r.arg 0 % 256 * 2 ^ 24 + r.arg 0 / 256 % 16 * 2 ^ 16))]))
    ∧ (takesQuiet s0 q r 4 → s.remoteSlot r = false → ∃ t, exec (.setGuard q) s0 = .next t
        ∧ holdsChange s t q r (.words
            ((if r.arg 0 % 4 = 3 then [] else [(0x24_0000 + 64 * (s.slotCmd r).obj + 20, (0x3 : Word), w32 (r.arg 0))])
              ++ (if r.arg 1 = 0 then [] else [(0x24_0000 + 64 * (s.slotCmd r).obj + 24, (0x00FF_FFFF : Word), w32 (r.arg 1))])
              ++ (if r.arg 2 = 0 then [] else [(0x24_0000 + 64 * (s.slotCmd r).obj + 28, (0x00FF_FFFF : Word), w32 (r.arg 2))]))))
    ∧ (takesQuiet s0 q r 5 → ∃ t, exec (.setFreeze q) s0 = .next t
        ∧ holdsChange s t q r (.words [(0x20_0000 + 64 * r.obj + 4, 0x0001_0000, w32 (r.arg 0 % 2 * 2 ^ 16))]))
    ∧ (takesQuiet s0 q r 0x0D → ∃ t, exec (.touchZone q) s0 = .next t
        ∧ holdsChange s t q r (.zone r.obj (r.arg 0 % 256) (r.arg 0 / 256 % 256) (r.arg 1 % 65536) (r.arg 1 / 65536)
            (r.arg 2 % 65536) (r.arg 2 / 65536) (r.arg 3)))
    ∧ (takesQuiet s0 q r 0x0F → r.arg 0 = 0 → ∃ t, exec (.encCtrlStop q) s0 = .next t
        ∧ holdsChange s t q r (.encCtrl r.obj 0 (r.arg 1)))
    ∧ (takesQuiet s0 q r 0x0F → r.arg 0 = 1 → ∃ t, exec (.encCtrlStart q) s0 = .next t
        ∧ holdsChange s t q r (.encCtrl r.obj 1 (r.arg 1)))
    ∧ (takesQuiet s0 q r 0x0F → r.arg 0 = 2 → ∃ t, exec (.encCtrlIrap q) s0 = .next t
        ∧ holdsChange s t q r (.encCtrl r.obj 2 (r.arg 1)))

/-- R139, R140, R226, R313: DMA, FLIP, register and table writes, DEC_CTRL: at once, or at the boundary of the picture that
a core decodes. -/
def Obligations.TransferAndWriteCommands : Prop :=
  ∀ (s0 : State) (q : Nat) (r : CmdRec), let s := s0.qRead q
    (takesQuiet s0 q r 7 → ∃ t d, exec (.dma q) s0 = .next t ∧ headMoved s t q ∧ t.cmd.dmas = s.cmd.dmas ++ [d]
        ∧ d.seq = s.cmd.nextSeq ∧ d.queue = q ∧ d.index = s.qHead q ∧ d.stream = r.obj
        ∧ d.src = r.arg 0 % 2 ^ 32 + r.arg 1 % 64 * 2 ^ 32 ∧ d.pitch = r.arg 2 ∧ d.first = r.arg 3 % 65536
        ∧ d.count = r.arg 3 / 65536 ∧ d.window = r.arg 4 % 16 ∧ (t.stream r.obj).dmaStarted = true
        ∧ (∀ i, i ≠ r.obj → t.stream i = s.stream i) ∧ t.dram = s.dram)
    ∧ (∀ n d, s.cmd.dmas[n]? = some d → d.dropped = false → d.stray = none → d.event = false → s.cmd.fences = [] →
        s.cmd.flips = [] → ∃ t, exec (.dmaComplete n) s = .next t ∧ t.cmd.dmas = s.cmd.dmas.eraseIdx n
        ∧ (t.stream d.stream).dmaDone = true ∧ (∀ i, i ≠ d.stream → t.stream i = s.stream i)
        ∧ ∀ fmt, portsQuiet s → Fmt.known fmt = true → (∀ f, (s.stream d.stream).cur = some f → f.img.fmt = fmt) →
            keepsSurface s t d.stream fmt)
    ∧ (takesQuiet s0 q r 6 → s.dmaBusy q r.obj = false → ∃ t, exec (.flip q) s0 = .next t ∧ headMoved s t q
        ∧ (t.stream r.obj).cur = none ∧ (t.stream r.obj).dmaStarted = false ∧ (t.stream r.obj).dmaDone = false
        ∧ (∀ i, i ≠ r.obj → t.stream i = s.stream i) ∧ t.cmd = s.cmd
        ∧ ∀ fmt, portsQuiet s → Fmt.known fmt = true → (∀ f, (s.stream r.obj).cur = some f → f.img.fmt = fmt) →
            keepsSurface s t r.obj fmt)
    ∧ (∀ d, takesQuiet s0 q r 0x0B → basicReg (r.arg 0) d → ∃ t, exec (.cmdRegWrite q) s0 = .next t
        ∧ t.reg (r.arg 0) = merge (s.reg (r.arg 0)) (w32 (r.arg 2) &&& d.rw) (w32 (r.arg 1))
            &&& ~~~ (w32 (r.arg 2) &&& d.w1c &&& w32 (r.arg 1))
        ∧ passed s t q [r.arg 0] ∧ t.cmd = { s.cmd with nextSeq := s.cmd.nextSeq + 1 })
    ∧ (takesQuiet s0 q r 0x0C → ∃ t, exec (.tableWrite q) s0 = .next t ∧ headMoved s t q
        ∧ keepsRegs s t [Reg.CMD_Q_STATUS q]
        ∧ t.cmd.held = s.cmd.held ++ (r.tableWords.filter fun e => !romMapped e.1 && tableMask e.1 != 0).map (fun e =>
            heldWord s q r e.1 (tableMask e.1) e.2.2)
        ∧ t = { s with regs := t.regs, twin := t.twin, cmd := t.cmd, mram := t.mram })
    ∧ (takesQuiet s0 q r 0x0E → r.arg 0 = 0 → s.ctxBusy r.obj = false → (s.ctx r.obj).st ≠ 0 →
        ∃ t, exec (.decCtrlStop q) s0 = .next t ∧ headMoved s t q ∧ (t.ctx r.obj).st = 0
        ∧ (t.ctx r.obj).cpb = [] ∧ (t.ctx r.obj).dpb = [] ∧ (t.ctx r.obj).joined = false
        ∧ (∀ c, c ≠ r.obj → t.ctx c = s.ctx c) ∧ t.dram = s.dram)
    ∧ (takesQuiet s0 q r 0x0E → r.arg 0 = 1 → s.ctxBusy r.obj = false → (s.ctx r.obj).st = 0 →
        ∃ t, exec (.decCtrlStart q) s0 = .next t ∧ headMoved s t q ∧ (t.ctx r.obj).st = 1 ∧ (t.ctx r.obj).joined = true
        ∧ (t.ctx r.obj).ssrc = none ∧ (t.ctx r.obj).cnt = [0, 0, 0, 0, 0, 0, 0, 0, 0]
        ∧ (∀ c, c ≠ r.obj → t.ctx c = s.ctx c) ∧ t.dram = s.dram)
    ∧ (takesQuiet s0 q r 0x0E → r.arg 0 = 2 → s.ctxBusy r.obj = false →
        ∃ t, exec (.decCtrlDiscard q) s0 = .next t ∧ headMoved s t q ∧ (t.ctx r.obj).cpb = [] ∧ (t.ctx r.obj).dpb = []
        ∧ (t.ctx r.obj).st = 1 ∧ (∀ c, c ≠ r.obj → t.ctx c = s.ctx c) ∧ t.dram = s.dram)
    ∧ (takesQuiet s0 q r 0x0E → r.arg 0 < 3 → s.ctxBusy r.obj = true →
        ∃ t, exec (if r.arg 0 = 0 then .decCtrlStop q else if r.arg 0 = 1 then .decCtrlStart q else .decCtrlDiscard q) s0
          = .next t
        ∧ headMoved s t q ∧ t.ctx r.obj = { s.ctx r.obj with ctrl := (s.ctx r.obj).ctrl ++ [.ctrl (r.arg 0)] }
        ∧ t.cmd.decs = s.cmd.decs ++ [{ seq := s.cmd.nextSeq, queue := q, index := s.qHead q, cmd := r }]
        ∧ (∀ c, c ≠ r.obj → t.ctx c = s.ctx c) ∧ t.dram = s.dram)

/-- R33, R144, R145, R149, R150, R313: what waits ends: a fence wait, a commit wait, the changes held for a clock, a MEMORY
node's frame. -/
def Obligations.WaitsEndAtTheirPoints : Prop :=
  ∀ (s : State) (q : Nat), q < 16 →
    (∀ f v o r, (s.queue q).wait = .fence f v o r → v.toNat ≤ (s.fence f).toNat → s.qRun q = true →
        (s.queue q).ringFull = false → r.flags.testBit 0 = false → ∃ t, exec (.fenceWaitSatisfied q) s = .next t
        ∧ t.qState q = 1 ∧ (t.queue q).wait = .none ∧ t.qHead q = s.qHead q ∧ keepsRegs s t [Reg.CMD_Q_STATUS q]
        ∧ t = { s with regs := t.regs, cmd := t.cmd })
    ∧ (∀ f v d r, (s.queue q).wait = .fence f v (some d) r → (s.fence f).toNat < v.toNat → ringTakes s q →
        ∃ t, exec (.waitTimeout q) s = .next t ∧ t.qState q = 3 ∧ t.fld (Reg.CMD_Q_STATUS q) 23 16 = 0x0C
        ∧ (t.queue q).wait = .none ∧ t.qHead q = s.qHead q
        ∧ evWritten s t q { evOf s q r 5 0x0C 0 with index := (s.queue q).waitIndex }
        ∧ keepsRegs s t [Reg.CMD_Q_STATUS q, Reg.CMD_Q_CTRL q, Reg.CMD_EV_PTR q])
    ∧ (∀ c r, (s.queue q).wait = .commits c 0 r → s.qRun q = true → (s.queue q).ringFull = false →
        r.flags.testBit 0 = false → ∃ t, exec (.waitCommitDone q) s = .next t
        ∧ t.qState q = 1 ∧ (t.queue q).wait = .none ∧ t.qHead q = s.qHead q ∧ keepsRegs s t [Reg.CMD_Q_STATUS q]
        ∧ t = { s with regs := t.regs, cmd := t.cmd })
    ∧ (∀ k, s.clockDue k = true → s.ready = true → s.cas.forwarded = [] → ∃ t, exec (.commitPoint k) s = .next t
        ∧ (∀ h ∈ t.cmd.held, ¬(h.clock = k ∧ h.defer = none ∧ h.epoch = none ∧ h.least = 0))
        ∧ (k ≠ 0 → k < 8 → s.ld.deltas = [] → s.ld.late = [] → s.cmd.held = [] →
            t.reg (Reg.CMD_FCLK_COUNT k) = s.reg (Reg.CMD_FCLK_COUNT k) + 1
            ∧ t.reg (Reg.CMD_FCLK_LAST k) = s.reg (Reg.TIM_FCLK_NEXT k)))
    ∧ (∀ n r f, s.node n = some r → r.dest = 1 → (s.nodeSt n).frame = some f → f.segs = [] → 0 < f.w → f.w ≤ 16384 →
        0 < f.h → ∃ t, exec (.memoryNodeFlip n) s = .next t ∧ (t.nodeSt n).frame = none
        ∧ (∀ m, m ≠ n → (t.nodeSt m).frame = (s.nodeSt m).frame)
        ∧ ((s.stream f.strm).cur ≠ none → (t.nodeSt n).count = ((s.nodeSt n).count + 1) % 65536
            ∧ (t.stream f.strm).cur = none)
        ∧ ((s.stream f.strm).cur = none → (t.nodeSt n).count = (s.nodeSt n).count)
        ∧ (portsQuiet s → Fmt.known f.conv.fmt = true → keepsSurface s t f.strm f.conv.fmt))

/-! ### J-Link receivers and packets (chapters 07, 18) -/

/-- R183, R186, R187: the states of a receive lane: blocks of 64 symbols, an EIDLE_ENTER, a lane that falls idle and one
that becomes active; a code group reads as the symbol it stands for (R180; the code groups themselves are assumption 54). -/
def Obligations.LaneStatesFollowTheirHeaders : Prop :=
  (∀ rd y g, symGroup rd y = some g → symOf rd g = y)
  ∧ ∀ (s : State) (port k : Nat), s.laneOn port k = true →
    let x := (s.link port).lane k
    (∀ tm bits, bits.length = 640 → ∃ t, exec (.blockReceived port k tm bits) s = .next t)
    ∧ (∀ tm syms bits q, x.st = 0 → x.blk = [] → x.bits = {} → syms[0]? = some .k285 ∨ syms[0]? = some .k281 →
        headerSeq syms = some (q, k) → blockBits syms (s.laneInverted port k) bits →
        ∃ t, exec (.blockReceived port k tm bits) s = .next t ∧ ((t.link port).lane k).st = 1
          ∧ ((t.link port).lane k).seq = (q + 1) % 64 ∧ ((t.link port).lane k).run = 1
          ∧ (∀ j, j ≠ port → t.link j = s.link j) ∧ (noPortFalls s t → t.dram = s.dram))
    ∧ (∀ tm syms bits, blockReaches s port k syms bits → x.st = 1 → headerValid syms k x.seq = true →
        x.run < 31 ∨ isEidle syms = false →
        ∃ t, exec (.blockReceived port k tm bits) s = .next t
        ∧ ((t.link port).lane k).st = (if x.run < 31 then 1 else 2) ∧ ((t.link port).lane k).seq = (x.seq + 1) % 64
        ∧ (x.run < 31 → (∀ j, j ≠ port → t.link j = s.link j) ∧ (noPortFalls s t → t.dram = s.dram)))
    ∧ (∀ tm syms bits, blockReaches s port k syms bits → x.st = 3 → tm % 64 = x.blkAt % 64 →
        headerValid syms k x.seq = true → x.run < 7 ∨ isEidle syms = false →
        ∃ t, exec (.blockReceived port k tm bits) s = .next t
        ∧ ((t.link port).lane k).st = (if x.run < 7 then 3 else 2) ∧ ((t.link port).lane k).seq = (x.seq + 1) % 64
        ∧ (x.run < 7 → (∀ j, j ≠ port → t.link j = s.link j) ∧ (noPortFalls s t → t.dram = s.dram)))
    ∧ (∀ tm syms bits, blockReaches s port k syms bits → x.st = 2 → headerValid syms k x.seq = true → isEidle syms = true →
        ∃ t, exec (.blockReceived port k tm bits) s = .next t ∧ ((t.link port).lane k).st = 4
        ∧ ((t.link port).lane k).eidle = true ∧ (t.link port).aligned = false)
    ∧ (∀ tm h y, x.blk = [h] → headerValid [h, y] k x.seq = false → x.st = 1 ∨ x.st = 3 →
        (((s.laneSym port k tm y).1.link port).lane k).st = 0)
    ∧ (∀ tm h y, x.blk = [h] → x.st = 2 →
        let u := ((s.laneSym port k tm y).1.link port).lane k
        let hist := (headerValid [h, y] k x.seq :: x.hist).take 16
        if 4 ≤ (hist.filter fun b => !b).length then u.st = 0 ∧ ((s.laneSym port k tm y).1.link port).aligned = false
        else u.st = 2 ∧ u.seq = (x.seq + 1) % 64 ∧ u.hist = hist)
    ∧ (x.st = 2 → ∃ t, exec (.eidleEnter port k) s = .next t ∧ ((t.link port).lane k).st = 4
        ∧ ((t.link port).lane k).eidle = true ∧ ((t.link port).lane k).seq = (x.seq + 1) % 64
        ∧ (t.link port).aligned = false ∧ (∀ j, j ≠ port → t.link j = s.link j) ∧ (noPortFalls s t → t.dram = s.dram))
    ∧ (∀ ck, x.st ≠ 4 → ∃ t, exec (.laneIdleDetect port k ck) s = .next t
        ∧ ((t.link port).lane k).st = 4 ∧ ((t.link port).lane k).eidle = false
        ∧ (∀ j, j ≠ port → t.link j = s.link j) ∧ (noPortFalls s t → t.dram = s.dram))
    ∧ (∀ ck, x.st = 4 → ∃ t, exec (.laneActiveDetect port k ck) s = .next t
        ∧ ((t.link port).lane k).st = (if ck = true ∧ s.uptime - x.idleAt < 600000 then 3 else 0)
        ∧ (∀ j, j ≠ port → t.link j = s.link j) ∧ t.regs = s.regs ∧ t.dram = s.dram)

/-- R195, R198, R204, R209, R214, R468: what a whole, sound packet does by its type, the IDLE packets a device sends, and
the clearing of a port's counters. -/
def Obligations.PacketsActByTheirType : Prop :=
  ∀ (s : State) (payload b : List Byte),
    (∀ n k i, captures s n k i → arrives s n 0x01 k payload b → 32 ≤ payload.length →
      ∃ t f, exec (.videoFsRx n b) s = .next t ∧ (t.stream i).cur = some f ∧ f.alive = leAt payload 0 2
        ∧ f.w = leAt payload 2 2 ∧ f.h = leAt payload 4 2 ∧ f.fmt = leAt payload 6 1 ∧ f.segs = []
        ∧ (∀ j, j ≠ i → t.stream j = s.stream j) ∧ keepsRegs s t (linkRegs n) ∧ t.dram = s.dram)
    ∧ (∀ n k i f, captures s n k i → arrives s n 0x02 k payload b → 8 ≤ payload.length →
        (leAt payload 6 2).testBit 0 = false → (s.stream i).cur = some f → Fmt.known f.img.fmt = true →
        ∃ t, exec (.videoLineRx n b) s = .next t
        ∧ (t.stream i).cur = some (f.segment (leAt payload 0 2) (leAt payload 2 2) (leAt payload 4 2) (payload.drop 8))
        ∧ (∀ j, j ≠ i → t.stream j = s.stream j)
        ∧ (portsQuiet s → keepsRegs s t (storeRegs ++ linkRegs n) ∧ keepsSurface s t i f.img.fmt))
    ∧ (∀ n k i f, captures s n k i → arrives s n 0x03 k payload b → (s.stream i).cur = some f → Fmt.known f.img.fmt = true →
        ∃ t, exec (.videoFeRx n b) s = .next t ∧ (t.stream i).cur = none
        ∧ (f.bad = true ∨ f.dropped = true ∨ f.whole = false →
            (t.stream i).complete = (s.stream i).complete ∧ (t.stream i).frames = (s.stream i).frames ∧ t.dram = s.dram)
        ∧ (∀ w, f.bad = false → f.dropped = false → f.whole = true → (s.stream i).held = false →
            (s.stream i).writing = some w → f.ptp = true → tsDiff f.cap s.ts ≤ 2000000000 →
            (t.stream i).complete = some w ∧ (t.stream i).frames = ((s.stream i).frames + 1) % 2 ^ 32)
        ∧ (∀ j, j ≠ i → t.stream j = s.stream j) ∧ (portsQuiet s → keepsSurface s t i f.img.fmt))
    ∧ (∀ port i, jlxIndex port = some i → arrives s port 0x3F 0 payload b → ∃ t, exec (.idleRx port b) s = .next t
        ∧ t.fld (Reg.JLX_FAR_STATUS i) 7 0 = leAt payload 0 1 ∧ (t.link port).idleRx = some s.uptime
        ∧ keepsRegs s t (Reg.JLX_FAR_STATUS i :: linkRegs port) ∧ t.dram = s.dram)
    ∧ (s.ready = true → ∃ t, exec .idleSend s = .next t
        ∧ (∀ port ∈ jlxPorts, s.txOn port = true → t.nextTx port = (s.nextTx port + 1) % 65536
            ∧ (t.txOf port).queue
              = (s.txOf port).queue ++ packetSyms (packetBytes 0x3F 0 0 (s.nextTx port) (s.idlePayload port))
            ∧ Emit.packet port (packetBytes 0x3F 0 0 (s.nextTx port) (s.idlePayload port)) ∈ t.out)
        ∧ keepsRegs s t ((List.range 6).map Reg.JLX_PKT_TX)
        ∧ t = { s with regs := t.regs, txSeq := t.txSeq, tx := t.tx, out := t.out })
    ∧ (∀ n, n < 24 → arrives s (64 + n) 0x11 0 payload b → payload.length = 16 + 4 * leAt payload 10 1 → s.active = false →
        ∃ t, exec (.headStatusRx n b) s = .next t ∧ t.reg (Reg.JLO_HEAD_UID n) = w32 (leAt payload 12 4)
        ∧ t.reg (Reg.JLO_HEAD_LAST n)
            = w32 (leAt payload 0 2 * 2 ^ 16 + leAt payload 3 1 * 2 ^ 8 + leAt payload 2 1)
        ∧ t.fld (Reg.JLO_CTRL_ACK n) 15 0 = leAt payload 8 2 ∧ (t.machine (40 + n)).ev.getLsbD 3 = true
        ∧ keepsRegs s t ([Reg.JLO_HEAD_UID n, Reg.JLO_HEAD_LAST n, Reg.JLO_CTRL_ACK n, Reg.VGL_GLASS_LAST,
            Reg.VGL_GLASS_SENT, Reg.VGL_GLASS_RETURNED] ++ flagRegs .dualOnAir ++ flagRegs .regionMismatch
            ++ flagRegs .headFrozen ++ linkRegs (64 + n)) ∧ t.dram = s.dram)
    ∧ (∀ n h r c, n < 24 → arrives s (64 + n) 0x12 0 payload b → s.headOf n = some h → s.headRec h = some r →
        scanOf r payload = some c → ∃ t, exec (.touchRawRx n b) s = .next t ∧ (t.head h).present = true
        ∧ (t.head h).seq = leAt payload 0 2 ∧ (t.head h).ts = w32 (leAt payload 4 4)
        ∧ (t.machine 64).ev.getLsbD 2 = true ∧ (∀ j, j ≠ h → t.head j = s.head j))
    ∧ (∀ p k i port (v : Word), mayWriteX s p → linkPort k i = some port → wbits v 7 0 = i →
        ∃ t, exec (.cntClr p k v) s = .next t ∧ t.reg (linkCntA k i) = 0 ∧ t.reg (linkCntB k i) = 0
        ∧ keepsRegs s t [linkCntA k i, linkCntB k i] ∧ xCounted s t ∧ t.dram = s.dram)

/-! ### Network and decoders (chapter 08) -/

/-- R161, R216, R217, R219, R220, R224, R227, R228, R233: frames at an Ethernet port, the link, group reports, and what a context
keeps of its source. -/
def Obligations.NetworkFramesReachTheirContexts : Prop :=
  ∀ s : State,
    (∀ n f, n < 8 → s.ethUp n = true → f.fifoFull = true → ∃ t, exec (.ethFrameRx n f) s = .next t
        ∧ t.reg (Reg.ETH_CNT n 5) = s.reg (Reg.ETH_CNT n 5) + 1 ∧ keepsRegs s t [Reg.ETH_CNT n 5]
        ∧ t = { s with regs := t.regs })
    ∧ (∀ n f, n < 8 → s.ethUp n = true → f.fifoFull = false → f.fcsOk = false → ∃ t, exec (.ethFrameRx n f) s = .next t
        ∧ t.reg (Reg.ETH_CNT n 0) = s.reg (Reg.ETH_CNT n 0) + 1 ∧ t.reg (Reg.ETH_CNT n 1) = s.reg (Reg.ETH_CNT n 1) + 1
        ∧ keepsRegs s t [Reg.ETH_CNT n 0, Reg.ETH_CNT n 1] ∧ t = { s with regs := t.regs })
    ∧ (∀ n f c b ssrc seq ts marker payload, n < 8 → s.ethUp n = true → f.fifoFull = false → f.fcsOk = true →
        f.len ≤ 1522 → f.valid = true → f.sumOk = true → f.content = .rtp 2 (leAt b 6 1) ssrc seq ts marker payload →
        s.matches n f = [(c, b)] → (s.ctx c).st ≠ 0 → (s.ctx c).ssrc = none → (s.ctx c).next = none →
        ∃ t, exec (.ethFrameRx n f) s = .next t ∧ (t.ctx c).ssrc = some ssrc ∧ (t.ctx c).next ≠ none
        ∧ (∀ e, e ≠ c → t.ctx e = s.ctx e)
        ∧ t.reg (Reg.ETH_CNT n 0) = s.reg (Reg.ETH_CNT n 0) + 1 ∧ t.reg (Reg.ETH_CNT n 6) = s.reg (Reg.ETH_CNT n 6) + 1
        ∧ keepsRegs s t [Reg.ETH_CNT n 0, Reg.ETH_CNT n 6] ∧ t.dram = s.dram
        ∧ t = { s with regs := t.regs, net := t.net, mem := t.mem })
    ∧ (∀ n, n < 8 → s.ready = true → s.bit (Reg.ETH_PORT_STATUS n) 31 = true → ∃ t, exec (.linkDown (.lock n)) s = .next t
        ∧ t.ethUp n = false ∧ raised s t .linkDown ∧ keepsRegs s t (Reg.ETH_PORT_STATUS n :: flagRegs .linkDown)
        ∧ t.dram = s.dram)
    ∧ (s.ready = true → ∃ t, exec (.linkDown .ref) s = .next t
        ∧ (∀ k, k < 8 → t.ethUp k = false) ∧ t.bit Reg.CLK_STATUS 29 = false
        ∧ keepsRegs s t (Reg.CLK_STATUS :: (List.range 8).map Reg.ETH_PORT_STATUS ++ flagRegs .linkDown) ∧ t.dram = s.dram)
    ∧ (∀ n, n < 8 → s.ready = true → s.bit (Reg.ETH_PORT_CTRL n) 31 = true → s.bit (Reg.ETH_PORT_STATUS n) 31 = false →
        ∃ t, exec (.linkUp n) s = .next t ∧ t.ethUp n = true ∧ t.bit Reg.CLK_STATUS 29 = true
        ∧ (∀ r ∈ s.portReports n, s.reportFrame r (s.oldMode n r.ip6) ∈ t.out)
        ∧ keepsRegs s t [Reg.ETH_PORT_STATUS n, Reg.CLK_STATUS, Reg.ETH_CNT n 10] ∧ t = { s with regs := t.regs, out := t.out })
    ∧ (∀ n ip6 old g, s.ready = true → s.ethUp n = true → ∃ t, exec (.igmpQuery n ⟨ip6, old, g⟩) s = .next t
        ∧ (∀ r ∈ s.portReports n, r.ip6 = ip6 → (g = none ∨ g = some r.group) →
            s.reportFrame r (old || s.oldMode n ip6) ∈ t.out)
        ∧ (old = true → t.oldMode n ip6 = true) ∧ (old = false → t.net = s.net)
        ∧ keepsRegs s t [Reg.ETH_CNT n 10] ∧ t = { s with regs := t.regs, net := t.net, out := t.out })
    ∧ (∀ r rest, s.net.reports = r :: rest → s.ethUp r.port = true → ∃ t, exec .reportRepeat s = .next t
        ∧ t.net = { s.net with reports := rest } ∧ t.out = s.reportFrame r (s.oldMode r.port r.ip6) :: s.out
        ∧ keepsRegs s t [Reg.ETH_CNT r.port 10] ∧ t = { s with regs := t.regs, net := t.net, out := t.out })
    ∧ (∀ c b n h, s.ctxBody c = some b → (s.ctx c).st ≠ 0 → (s.ctx c).next = some n → (s.ctx c).cnt.length = 9 →
        nextHeld n (s.ctx c).held = some h → ∃ t, exec (.gapLost c) s = .next t ∧ raised s t .rtpLoss
        ∧ (t.ctx c).cnt.getD 1 0 = min ((s.ctx c).cnt.getD 1 0 + (h.seq + 65536 - n) % 65536) (2 ^ 32 - 1)
        ∧ (∀ e, e ≠ c → t.ctx e = s.ctx e) ∧ keepsRegs s t (flagRegs .rtpLoss) ∧ t.dram = s.dram)
    ∧ (∀ c o, (s.ctx c).other = some o → (s.ctx c).st ≠ 0 → ∃ t, exec (.ssrcSwitch c) s = .next t
        ∧ (t.ctx c).ssrc = some o ∧ (t.ctx c).other = none ∧ (t.ctx c).st = 1 ∧ (t.ctx c).held = []
        ∧ (∀ e, e ≠ c → t.ctx e = s.ctx e) ∧ t = { s with net := t.net })
    ∧ (∀ c b ssrc sec frac rtp, s.ctxBody c = some b → ctxTbase b = 2 → (s.ctx c).st ≠ 0 → (s.ctx c).ssrc = some ssrc →
        ∃ t, exec (.rtcpSr c ssrc sec frac rtp) s = .next t
        ∧ (t.ctx c).sr = some (((sec : Int) - 2208988800 + s.tim.utc) * 1000000000
            + ((frac * 1000000000 + 2 ^ 31) / 2 ^ 32 : Nat), rtp)
        ∧ (t.ctx c).st = (if (s.ctx c).st = 4 then 2 else (s.ctx c).st)
        ∧ (∀ e, e ≠ c → t.ctx e = s.ctx e) ∧ t = { s with net := t.net })

/-- R226, R238, R239, R241, R243, R247: a free core takes the picture that completed earliest, and with none to take nothing
happens; a picture that completes or runs out of its budget frees the core and counts in its context, before what waits
for this picture boundary acts on the context; a sequence that the core does not support is UNSUPPORTED; a core without a
picture ends none. -/
def Obligations.DecoderCoresTakeAndFinishPictures : Prop :=
  ∀ (s : State) (k : Nat), k < 8 →
    (∀ c a rest, s.coreFree k = true → s.nextContext = some (c, a, rest) → ∃ t, exec (.pictureDecodeStart k) s = .next t
        ∧ t.core k = { job := some (c, a, s.ts), body := (s.ctxBody c).getD [] } ∧ (t.ctx c).cpb = rest
        ∧ t.bit (Reg.DEC_CORE_STATUS k) 31 = true
        ∧ t.fld (Reg.DEC_CORE_STATUS k) 7 0 = c % 256 ∧ (∀ j, j ≠ k → t.core j = s.core j)
        ∧ (∀ e, e ≠ c → t.ctx e = s.ctx e) ∧ keepsRegs s t [Reg.DEC_CORE_STATUS k]
        ∧ t = { s with regs := t.regs, net := t.net })
    ∧ (s.coreFree k = false ∨ s.nextContext = none → exec (.pictureDecodeStart k) s = .next s)
    ∧ (∀ c a start d, (s.core k).job = some (c, a, start) →
        ∃ t, exec (.pictureDecoded k d) s = .next t ∧ (t.core k).job = none ∧ t.bit (Reg.DEC_CORE_STATUS k) 31 = false
        ∧ (t.ctx c).ctrl = [] ∧ (∀ e, e ≠ c → t.ctx e = s.ctx e)
        ∧ ((s.ctx c).ctrl = [] → (t.ctx c).pics = ((s.ctx c).pics + 1) % 65536 ∧ ∀ j, j ≠ k → t.core j = s.core j))
    ∧ (∀ c a start d, (s.core k).job = some (c, a, start) → seqRefused d.seq (s.core k).body = true → (s.ctx c).chain = 0 →
        ∃ t, exec (.pictureDecoded k d) s = .next t
        ∧ t.reg Reg.DEC_LAST_FAULT = w32 (c * 2 ^ 24 + 5 * 2 ^ 16 + ((s.ctx c).pics + 1) % 65536) ∧ raised s t .corrupt)
    ∧ (∀ c a start d, (s.core k).job = some (c, a, start) →
        ∃ t, exec (.decTimeout k d) s = .next t ∧ raised s t .decTimeout ∧ (t.core k).job = none
        ∧ t.bit (Reg.DEC_CORE_STATUS k) 31 = false ∧ (t.ctx c).ctrl = [] ∧ (∀ e, e ≠ c → t.ctx e = s.ctx e)
        ∧ ((s.ctx c).ctrl = [] → (t.ctx c).pics = ((s.ctx c).pics + 1) % 65536 ∧ ∀ j, j ≠ k → t.core j = s.core j))
    ∧ (∀ d, (s.core k).job = none → exec (.pictureDecoded k d) s = .next s ∧ exec (.decTimeout k d) s = .next s)

/-! ### Time (chapter 09) -/

/-- R252, R254, R256 to R261, R265: master selection, the servo's states, the step of an epoch, the registers that steer
the servo, and the Almanac. -/
def Obligations.TimeServoFollowsItsMaster : Prop :=
  ∀ (s : State) (p : Port),
    (∀ n src gm set utc, n < 8 → s.ethUp n = true → s.bit (Reg.ETH_PORT_CTRL n) 27 = true → s.svpUp = true →
        s.ringFollower = false → s.cas.upstream = none →
        ∃ t, exec (.ptpAnnounce n (s.fld Reg.TIM_PTP_CFG 31 24) ⟨src, gm, set⟩ utc) s = .next t
        ∧ t.tim.announces
            = ⟨⟨n, src, gm⟩, set⟩ :: s.tim.announces.filter (fun e => !(e.who.port == n && e.who.src == src))
        ∧ t.tim.master = bestMaster t.tim.announces ∧ t.bit Reg.TIM_STATUS 28 = true
        ∧ t.tim.utc = (if t.tim.master = some ⟨n, src, gm⟩ then utc else s.tim.utc)
        ∧ (t.tim.master ≠ s.tim.master → t.fld Reg.TIM_STATUS 27 24 = 0)
        ∧ (s.servo = 0 → s.servoHeld = false → t.servo = 1) ∧ (s.servo ≠ 0 → t.servo = s.servo)
        ∧ keepsRegs s t [Reg.TIM_STATUS] ∧ t = { s with regs := t.regs, tim := t.tim })
    ∧ (∀ o, s.tim.master ≠ none → s.svpUp = true → (s.servo = 0 ∨ s.servoHeld = true) →
        ∃ t, exec (.ptpSample o) s = .next t ∧ t.reg Reg.TIM_OFFSET = satS32 o ∧ keepsRegs s t [Reg.TIM_OFFSET]
        ∧ t = { s with regs := t.regs, tim := { s.tim with lastOffset := o } })
    ∧ (∀ o, s.tim.master ≠ none → s.svpUp = true → s.servo = 1 → s.servoHeld = false → s.stepMin < o.natAbs →
        s.ringFollower = false → ∃ t, exec (.ptpSample o) s = .next t ∧ t.fullNs = s.fullNs - o ∧ t.servo = 2
        ∧ t.reg Reg.TIM_EPOCH = s.reg Reg.TIM_EPOCH + 1 ∧ t.reg Reg.TIM_STEP_OLD = s.ts ∧ t.reg Reg.TIM_STEP_NEW = t.ts
        ∧ raised s t .timeEpoch ∧ t.tim.stepped = true)
    ∧ (∀ o, s.tim.master ≠ none → s.svpUp = true → s.servo = 2 → s.servoHeld = false → s.jumpLimit < o.natAbs →
        s.condOn Blk.TIM 0 = false → ∃ t, exec (.ptpSample o) s = .next t ∧ t.servo = 3
        ∧ t.reg Reg.TIM_JUMP_SIZE = satS32 (o.tdiv 1000) ∧ raised s t .timeJump ∧ t.ts = s.ts ∧ t.tim.slewing = false
        ∧ t.dram = s.dram)
    ∧ (∀ m, s.tim.master = some m → s.servo = 2 → s.svpUp = true → ∃ t, exec .masterLost s = .next t ∧ t.servo = 3
        ∧ t.tim.announces = s.tim.announces.filter (fun e => !(e.who.port == m.port && e.who.src == m.src))
        ∧ t.tim.master = bestMaster t.tim.announces ∧ raised s t .holdover ∧ t.ts = s.ts ∧ t.dram = s.dram)
    ∧ (s.access p = true → s.servoHeld = false → (s.servo = 2 ∨ s.servo = 3) → ∃ t, exec (.rearmStep p) s = .next t
        ∧ t.servo = 1 ∧ t.bit Reg.TIM_STATUS 29 = true ∧ t.ts = s.ts ∧ t.dram = s.dram)
    ∧ (s.access p = true → s.xOpen = true → s.servoHeld = false → ∃ t, exec (.servoHold p true) s = .next t
        ∧ t.servoHeld = true ∧ t.servo = 3 ∧ t.tim.slewing = false ∧ xCounted s t
        ∧ keepsRegs s t [Reg.TIM_CTRL, Reg.TIM_STATUS, Reg.TIM_ADDEND_LO, Reg.TIM_ADDEND_HI]
        ∧ t = { s with regs := t.regs, tim := t.tim, mram := t.mram })
    ∧ (s.access p = true → s.xOpen = false → ∀ on, exec (.servoHold p on) s = .next s)
    ∧ (∀ lo hi : Word, s.access p = true → s.xOpen = true → s.servoHeld = true →
        ∃ t, exec (.addendWrite p lo hi) s = .next t
        ∧ (t.reg Reg.TIM_ADDEND_HI).toNat * 2 ^ 32 + (t.reg Reg.TIM_ADDEND_LO).toNat
            = clampAddend (hi.toNat % 65536 * 2 ^ 32 + lo.toNat)
        ∧ (s.mram.xWrites.toNat + 2 < 2 ^ 64 → t.mram.xWrites.toNat = s.mram.xWrites.toNat + 2)
        ∧ keepsRegs s t [Reg.TIM_ADDEND_LO, Reg.TIM_ADDEND_HI] ∧ t.dram = s.dram)
    ∧ (s.tim.master = none → s.cas.upstream ≠ none → s.bit Reg.TIM_STATUS 28 = true → s.servo = 2 → s.svpUp = true →
        ∃ t, exec .masterLost s = .next t ∧ t.servo = 3 ∧ t.bit Reg.TIM_STATUS 28 = false ∧ raised s t .holdover
        ∧ t.ts = s.ts ∧ t.dram = s.dram)
    ∧ (∀ v : Word, s.access p = true → ∃ t, exec (.ptpCfgWrite p v) s = .next t
        ∧ t.reg Reg.TIM_PTP_CFG = (v &&& 0xFFC0_0000) ∧ t.mram = { s.mram with ptpCfg := (v &&& 0xFFC0_0000) }
        ∧ (s.svpUp = true → t.tim.announces = [] ∧ t.tim.master = none)
        ∧ (s.svpUp = false → t.tim.announces = s.tim.announces ∧ t.tim.master = s.tim.master ∧ t.svp.reselect = true)
        ∧ t.ts = s.ts ∧ t.dram = s.dram)
    ∧ (s.ready = true → s.tim.running = true → s.svpUp = true → s.upstreamPair = none →
        ∃ t, exec .almanac s = .next t ∧ t.reg Reg.ETH_ALM_TS32 = s.ts
        ∧ t.pair Reg.ETH_ALM_TAI_LO
            = BitVec.ofInt 64 (s.fullNow - (if s.tim.stepped || s.ringFollower then s.tim.lastOffset else 0))
        ∧ (s.ringFollower = false → s.fullNow = s.fullNs)
        ∧ keepsRegs s t ([Reg.ETH_ALM_TAI_LO, Reg.ETH_ALM_TAI_LO + 4, Reg.ETH_ALM_TS32]
            ++ (List.range 8).map Reg.TIM_FCLK_NEXT) ∧ t = { s with regs := t.regs })
    ∧ (∀ u, s.ready = true → s.tim.running = true → s.svpUp = true → s.upstreamPair = some u →
        ∃ t, exec .almanac s = .next t ∧ t.reg Reg.ETH_ALM_TS32 = u.almTs + s.cas.off
        ∧ t.pair Reg.ETH_ALM_TAI_LO = u.almTai
        ∧ keepsRegs s t ([Reg.ETH_ALM_TAI_LO, Reg.ETH_ALM_TAI_LO + 4, Reg.ETH_ALM_TS32]
            ++ (List.range 8).map Reg.TIM_FCLK_NEXT) ∧ t = { s with regs := t.regs })

/-- R252, R253, R255: what PTP messages leave on their port, and the path delay they measure. The arithmetic in fifths of a
nanosecond is that of assumption 58. -/
def Obligations.PtpMessagesMeasureTheirPath : Prop :=
  ∀ (s : State) (n : Nat) (f : EthFrame) (src seq : Nat),
    (∀ origin corr, ptpArrives s n f (.sync src seq true origin corr) →
        ∃ t, exec (.ethFrameRx n f) s = .next t
        ∧ t.ptpOf n = { s.ptpOf n with sync := (src, seq, s.stamp, corr * 5) ::
            ((s.ptpOf n).sync.filter (fun e => e.1 != src || e.2.1 != seq)) }
        ∧ keepsPtp s t n)
    ∧ (∀ origin corr, ptpArrives s n f (.sync src seq false origin corr) → s.p2p = false → s.tim.master = none →
        ∃ t, exec (.ethFrameRx n f) s = .next t ∧ t.ptpOf n = s.ptpOf n ∧ keepsPtp s t n)
    ∧ (∀ origin corr gm, ptpArrives s n f (.sync src seq false origin corr) → s.p2p = false →
        s.tim.master = some ⟨n, src, gm⟩ → (s.ptpOf n).delay = none → ∃ t, exec (.ethFrameRx n f) s = .next t
        ∧ (t.ptpOf n).sync = (s.ptpOf n).sync ∧ syncMeasured s t n (s.stamp - origin * ptpNs - corr * 5))
    ∧ (∀ origin corr e, ptpArrives s n f (.followUp src seq origin corr) → s.p2p = false → s.tim.master = none →
        (s.ptpOf n).sync.find? (fun e => e.1 == src && e.2.1 == seq) = some e → ∃ t, exec (.ethFrameRx n f) s = .next t
        ∧ t.ptpOf n = { s.ptpOf n with sync := (s.ptpOf n).sync.filter fun e => e.1 != src || e.2.1 != seq }
        ∧ keepsPtp s t n)
    ∧ (∀ origin corr a q at0 c0 gm, ptpArrives s n f (.followUp src seq origin corr) → s.p2p = false →
        s.tim.master = some ⟨n, src, gm⟩ → (s.ptpOf n).delay = none →
        (s.ptpOf n).sync.find? (fun e => e.1 == src && e.2.1 == seq) = some (a, q, at0, c0) →
        ∃ t, exec (.ethFrameRx n f) s = .next t
        ∧ (t.ptpOf n).sync = (s.ptpOf n).sync.filter (fun e => e.1 != src || e.2.1 != seq)
        ∧ syncMeasured s t n (at0 - c0 - origin * ptpNs - corr * 5))
    ∧ (∀ receive corr t3 d gm, ptpArrives s n f (.delayResp src seq receive corr) → s.p2p = false →
        (s.ptpOf n).req = some (seq, t3) → (s.ptpOf n).last = some d → s.tim.master = some ⟨n, src, gm⟩ →
        ∃ t, exec (.ethFrameRx n f) s = .next t
        ∧ (t.ptpOf n).delay = some ((d + (receive * ptpNs - corr * 5 - t3)) / 2) ∧ (t.ptpOf n).age = 0
        ∧ (t.ptpOf n).req = none ∧ keepsPtp s t n)
    ∧ (∀ receipt corr t1, ptpArrives s n f (.pdelayResp seq false receipt corr) → s.p2p = true →
        (s.ptpOf n).req = some (seq, t1) → ∃ t, exec (.ethFrameRx n f) s = .next t
        ∧ (t.ptpOf n).delay = some ((s.stamp - t1 - corr * 5) / 2) ∧ (t.ptpOf n).age = 0 ∧ keepsPtp s t n)
    ∧ (∀ origin corr t1 t2 t4, ptpArrives s n f (.pdelayFollowUp seq origin corr) →
        (s.ptpOf n).req = some (seq, t1) → (s.ptpOf n).resp = some (seq, t4, t2) →
        ∃ t, exec (.ethFrameRx n f) s = .next t
        ∧ (t.ptpOf n).delay = some ((t4 - t1 - (origin * ptpNs + corr * 5) + t2) / 2) ∧ keepsPtp s t n)
    ∧ (ptpArrives s n f (.pdelayReq src seq) → s.p2p = true →
        ∃ t, exec (.ethFrameRx n f) s = .next t
        ∧ t.out = Emit.eth n 3 [0xA, seq, src, (s.stamp / 65536).toNat] :: Emit.eth n 3 [3, seq, src, (s.stamp / 65536).toNat]
            :: s.out ∧ t.tim = s.tim ∧ t.dram = s.dram)

/-- R269, R271: edges of FRAME_REF, a clock that loses it, and the timed pulses. -/
def Obligations.FrameReferenceAndTimedPulses : Prop :=
  ∀ (s : State) (k : Nat), k < 8 →
    (s.tim.running = true → (s.fclkOf k).on = true → (s.fclkOf k).ref = true → s.sourcesFclk k = true →
        (s.fclkOf k).lastRef = none → (s.fclkOf k).runOn = false → ∃ t, exec .frameRefEdge s = .next t
        ∧ t.reg (Reg.TIM_FCLK_NEXT k) = s.ts + w32 (s.fclkOf k).phase ∧ t.bit Reg.TIM_STATUS (8 + k) = false
        ∧ (t.fclkOf k).lastRef = some s.ts ∧ (t.fclkOf k).armed = true
        ∧ keepsRegs s t (Reg.TIM_STATUS :: (List.range 8).map Reg.TIM_FCLK_NEXT)
        ∧ t = { s with regs := t.regs, tim := t.tim })
    ∧ (s.tim.running = true → (s.fclkOf k).on = true → (s.fclkOf k).ref = true → s.sourcesFclk k = true →
        (s.fclkOf k).lastRef = none → (s.fclkOf k).runOn = true → ∃ t, exec .frameRefEdge s = .next t
        ∧ t.reg (Reg.TIM_FCLK_NEXT k) = s.reg (Reg.TIM_FCLK_NEXT k) ∧ t.bit Reg.TIM_STATUS (8 + k) = false
        ∧ (t.fclkOf k).err = s.refError k (max 1 (s.periodNs k)) (s.ts + w32 (s.fclkOf k).phase)
        ∧ keepsRegs s t (Reg.TIM_STATUS :: (List.range 8).map Reg.TIM_FCLK_NEXT)
        ∧ t = { s with regs := t.regs, tim := t.tim })
    ∧ ((s.fclkOf k).on = true → (s.fclkOf k).ref = true → s.bit Reg.TIM_STATUS (8 + k) = false → s.sourcesFclk k = true →
        ∃ t, exec (.fclkRefLost k) s = .next t ∧ t.bit Reg.TIM_STATUS (8 + k) = true ∧ (t.fclkOf k).runOn = true
        ∧ (∀ j, j ≠ k → t.fclkOf j = s.fclkOf j) ∧ keepsRegs s t [Reg.TIM_STATUS, Reg.TIM_FCLK_NEXT k]
        ∧ t = { s with regs := t.regs, tim := t.tim })
    ∧ (∀ p (v : Word), s.access p = true → wbit v 31 = true → tsReached s.ts (s.reg (Reg.TIM_TPO_TIME k)) = false →
        ∃ t, exec (.tpoArm p k v) s = .next t ∧ t.reg (Reg.TIM_TPO_CTRL k) = v ∧ t.bit Reg.TIM_STATUS k = false
        ∧ keepsRegs s t [Reg.TIM_TPO_CTRL k, Reg.TIM_STATUS] ∧ t = { s with regs := t.regs })
    ∧ (∀ p (v : Word), s.access p = true → wbit v 31 = true → wbits v 30 0 = 0 → s.standby = false →
        tsReached s.ts (s.reg (Reg.TIM_TPO_TIME k)) = true → ∃ t, exec (.tpoArm p k v) s = .next t
        ∧ t.bit (Reg.TIM_TPO_CTRL k) 31 = false ∧ t.out = Emit.pulse k 1000 :: s.out
        ∧ keepsRegs s t [Reg.TIM_TPO_CTRL k, Reg.TIM_STATUS] ∧ t = { s with regs := t.regs, out := t.out })
    ∧ (s.bit (Reg.TIM_TPO_CTRL k) 31 = true → tsReached s.ts (s.reg (Reg.TIM_TPO_TIME k)) = true →
        s.fld (Reg.TIM_TPO_CTRL k) 30 0 = 0 → ∃ t, exec (.tpoEdge k) s = .next t ∧ t.bit (Reg.TIM_TPO_CTRL k) 31 = false
        ∧ t.out = (if s.standby then s.out else Emit.pulse k 1000 :: s.out)
        ∧ keepsRegs s t [Reg.TIM_TPO_CTRL k] ∧ t = { s with regs := t.regs, out := t.out })
    ∧ (s.bit (Reg.TIM_TPO_CTRL k) 31 = true → tsReached s.ts (s.reg (Reg.TIM_TPO_TIME k)) = true →
        2000 ≤ s.fld (Reg.TIM_TPO_CTRL k) 30 0 → ∃ t, exec (.tpoEdge k) s = .next t
        ∧ t.reg (Reg.TIM_TPO_TIME k) = s.reg (Reg.TIM_TPO_TIME k) + w32 (s.fld (Reg.TIM_TPO_CTRL k) 30 0)
        ∧ t.out = (if s.standby then s.out else Emit.pulse k (s.fld (Reg.TIM_TPO_CTRL k) 30 0 / 2) :: s.out)
        ∧ keepsRegs s t [Reg.TIM_TPO_TIME k] ∧ t = { s with regs := t.regs, out := t.out })

/-! ### Memory (chapter 10) -/

/-- R279, R281, R283 to R288: requests enter and leave the pool of their channel, and the refresh of a rank. -/
def Obligations.MemoryRequestsAndRefresh : Prop :=
  ∀ s : State,
    (∀ port write addr data pl i, s.ready = true → port < 8 → s.dramHome (addr / 128 * 128) = some (pl, i) →
        (write = false → ∀ x ∈ s.pool pl.chan, x.write = true → x.settled = false → x.addr / 128 ≠ addr / 128) →
        (∀ x ∈ s.waiting pl.chan, x.addr / 128 ≠ addr / 128) → (s.pool pl.chan).length < 256 →
        ((s.pool pl.chan).filter fun x => x.port == port).length < 96 →
        ∃ t, exec (.memRequest port write addr data) s = .next t
        ∧ t.pool pl.chan = s.pool pl.chan ++ [.mk port write (addr / 128 * 128) (data.take 128) s.uptime false]
        ∧ (∀ c, c ≠ pl.chan → t.pool c = s.pool c)
        ∧ t.fld (Reg.MEM_CH_STATUS pl.chan) 24 16 = (s.pool pl.chan).length + 1
        ∧ keepsRegs s t [Reg.MEM_CH_STATUS pl.chan, Reg.MEM_RANK_STATUS (s.servingRank (addr / 128 * 128) i)]
        ∧ t = { s with regs := t.regs, mem := t.mem })
    ∧ (∀ port addr data pl i w, s.ready = true → port < 8 → s.dramHome (addr / 128 * 128) = some (pl, i) →
        (∀ x ∈ s.waiting pl.chan, x.addr / 128 ≠ addr / 128) →
        (s.pool pl.chan).reverse.find? (fun x => x.write && x.addr / 128 == addr / 128 && !x.settled) = some w →
        ∃ t, exec (.memRequest port false addr data) s = .next t
        ∧ t.out = Emit.memData port (addr / 128 * 128) w.data false :: s.out
        ∧ t.mem = { s.mem with mr4 := t.mem.mr4 }
        ∧ keepsRegs s t [Reg.MEM_RANK_STATUS (s.servingRank (addr / 128 * 128) i)] ∧ t.dram = s.dram)
    ∧ (∀ c i banks ecc, s.ready = true → c < 4 → i / 4 = c → s.refreshDue i = true →
        ∃ t, exec (.dramCommandIssue c [i] banks ecc) s = .next t ∧ t.debt i = s.debt i - 1
        ∧ (∀ b, b / 32 = i → Cells.get (fun _ => 0) t.mem.rows b = 0)
        ∧ keepsRegs s t [Reg.MEM_RANK_STATUS i] ∧ t = { s with regs := t.regs, mem := t.mem })
    ∧ (∀ c banks b r, s.ready = true → c < 4 → dramSound s → Cells.get (fun _ => []) s.mem.waiting c = [] →
        s.memPick c (banks.filter fun b => b / 128 == c && !s.rankHeld (b / 32)) = some (b, r) → r.write = false →
        (r.settled = true → r.data ≠ []) →
        ∃ t, exec (.dramCommandIssue c [] banks []) s = .next t ∧ t.pool c = (s.pool c).erase r
        ∧ t.out = Emit.memData r.port r.addr (if r.settled then r.data else s.dramRead r.addr 128) false :: s.out
        ∧ keepsRegs s t [Reg.MEM_CH_STATUS c] ∧ t.dram = s.dram)
    ∧ (∀ c banks b r ecc, s.ready = true → c < 4 → dramSound s → Cells.get (fun _ => []) s.mem.waiting c = [] →
        s.memPick c (banks.filter fun b => b / 128 == c && !s.rankHeld (b / 32)) = some (b, r) → r.write = true →
        r.addr + r.data.length ≤ s.dramSize →
        ∃ t, exec (.dramCommandIssue c [] banks ecc) s = .next t ∧ t.pool c = (s.pool c).erase r
        ∧ (r.settled = false → t.dramRead r.addr r.data.length = r.data ∧ keepsDram s t r.addr r.data.length)
        ∧ (r.settled = true → t.dram = s.dram)
        ∧ keepsRegs s t [Reg.MEM_CH_STATUS c] ∧ t.out = s.out)
    ∧ (∀ i, i < 16 → s.activeMode i = true ∨ s.rankState i = 3 ∨ s.rankState i = 4 → ∃ t, exec (.refreshTick i) s = .next t
        ∧ t.debt i = min (s.debt i + 1) 15 ∧ t.rankState i = s.rankState i ∧ keepsRegs s t [Reg.MEM_RANK_STATUS i]
        ∧ t = { s with regs := t.regs })
    ∧ (∀ i need, i < 16 → 1 ≤ need → s.rankState i = 1 → s.bit (Reg.MEM_RANK_STATUS i) 25 = false →
        ∃ t, exec (.mr4Read i need) s = .next t ∧ t.bit (Reg.MEM_RANK_STATUS i) 25 = true
        ∧ t.bit (Reg.MEM_RANK_STATUS i) 24 = decide (2 ≤ need) ∧ t.debt i = min (2 * s.debt i) 15
        ∧ t.rankState i = (if s.postponeMax < t.debt i then 3 else 1) ∧ raised s t .tempStep
        ∧ t.reg Reg.MEM_TEMP_TS = s.ts ∧ i ∉ t.mem.mr4
        ∧ keepsRegs s t ([Reg.MEM_RANK_STATUS i, Reg.MEM_TEMP_LOG, Reg.MEM_TEMP_TS, Reg.THM_STATUS] ++ flagRegs .tempStep
            ++ flagRegs .tempAlarm) ∧ t.dram = s.dram)
    ∧ (∀ i, i < 16 → s.rankRole i = 2 → s.rankState i = 1 → s.bit Reg.MEM_CONFIG 26 = true →
        (∀ r ∈ s.pool (i / 4), (s.reqBank r).1 / 32 ≠ i) → ∃ t, exec (.selfRefreshEntry i) s = .next t
        ∧ t.rankState i = 2 ∧ t.debt i = 0 ∧ keepsRegs s t [Reg.MEM_RANK_STATUS i] ∧ t = { s with regs := t.regs })
    ∧ (∀ i, i < 16 → s.rankState i = 7 → ∃ t, exec (.spareFillDone i) s = .next t ∧ t.rankState i = 8
        ∧ keepsRegs s t [Reg.MEM_RANK_STATUS i] ∧ t = { s with regs := t.regs })

/-- R289 to R292: training passes, retraining, and the switch of the operating point. -/
def Obligations.TrainingAndOperatingPoints : Prop :=
  ∀ s : State,
    (∀ i pt rd wr, i < 16 → pt < 2 → s.rankState i = 4 → ∃ t, exec (.trainingPassDone i pt rd wr) s = .next t
        ∧ t.bit (Reg.MEM_RANK_TRAIN i) pt = true
        ∧ t.rankState i = (if s.bit (Reg.MEM_RANK_TRAIN i) (1 - pt) then s.modeBefore i else 4)
        ∧ Cells.get (fun _ => 0) t.mram.trained (2 * i + pt) = rd * 256 + wr + 1
        ∧ keepsRegs s t [Reg.MEM_RANK_TRAIN i, Reg.MEM_RANK_STATUS i, Reg.MEM_OP_STATUS]
        ∧ t = { s with regs := t.regs, mem := t.mem, mram := { s.mram with trained := t.mram.trained } })
    ∧ (∀ i, i < 16 → s.rankState i = 4 → (s.mram.retired.any fun e => e.1 == i) = false → s.migrating i = false →
        ∃ t, exec (.trainingPassTimeout i) s = .next t ∧ t.bit (Reg.MEM_RANK_STATUS i) 23 = true
        ∧ t.mram.retired = s.mram.retired ++ [(i, 2)] ∧ (t.rankState i = 6 ∨ t.rankState i = 5)
        ∧ t.condOn Blk.MEM 1 = true ∧ t.dram = s.dram)
    ∧ (∀ i, i < 16 → s.activeMode i = true → ∃ t, exec (.retrain i none) s = .next t ∧ t.rankState i = 4
        ∧ t.modeBefore i = s.rankState i ∧ t.rankHeld i = true
        ∧ keepsRegs s t [Reg.MEM_RANK_STATUS i] ∧ t = { s with regs := t.regs, mem := t.mem })
    ∧ (∀ i, i < 16 → s.rankState i = 4 → s.trained i = true → ∃ t, exec (.retrain i (some 1)) s = .next t
        ∧ t.rankState i = s.modeBefore i
        ∧ t.fld (Reg.MEM_RANK_TRAIN i) 15 8 = min (s.fld (Reg.MEM_RANK_TRAIN i) 15 8 + 1) 255
        ∧ keepsRegs s t [Reg.MEM_RANK_STATUS i, Reg.MEM_RANK_TRAIN i, Reg.MEM_OP_STATUS]
        ∧ t = { s with regs := t.regs, mem := t.mem })
    ∧ (∀ p target, mayWriteX s p → ∃ t, exec (.opSwitchRequest p target) s = .next t
        ∧ t.bit Reg.MEM_OP_CTRL 0 = target ∧ t.bit Reg.MEM_OP_STATUS 31 = s.bit Reg.MEM_OP_STATUS 31
        ∧ (if target = s.bit Reg.MEM_OP_STATUS 31 then t.reg Reg.MEM_OP_STATUS = s.reg Reg.MEM_OP_STATUS ∧ t.mem = s.mem
          else t.bit Reg.MEM_OP_STATUS 30 = true ∧ t.mem.switchTo = target
            ∧ t.bit Reg.MEM_OP_STATUS 29 = (ranks.any fun i => s.rankState i == 4))
        ∧ xCounted s t ∧ keepsRegs s t [Reg.MEM_OP_CTRL, Reg.MEM_OP_STATUS] ∧ t.dram = s.dram)
    ∧ (∀ pause, s.bit Reg.MEM_OP_STATUS 30 = true → s.fld (Reg.CMD_FCLK_COUNT 0) 31 0 ≠ s.mem.switchAt →
        (∃ i, i < 16 ∧ s.rankState i = 4) → ∃ t, exec (.opSwitch pause) s = .next t
        ∧ t.bit Reg.MEM_OP_STATUS 29 = true ∧ t.bit Reg.MEM_OP_STATUS 31 = s.bit Reg.MEM_OP_STATUS 31
        ∧ keepsRegs s t [Reg.MEM_OP_STATUS] ∧ t = { s with regs := t.regs })
    ∧ (∀ pause, s.bit Reg.MEM_OP_STATUS 30 = true → s.fld (Reg.CMD_FCLK_COUNT 0) 31 0 ≠ s.mem.switchAt →
        (∀ i, i < 16 → s.rankState i ≠ 4 ∧ s.rankState i ≠ 3) → ∃ t, exec (.opSwitch pause) s = .next t
        ∧ t.bit Reg.MEM_OP_STATUS 31 = s.mem.switchTo ∧ t.bit Reg.MEM_OP_STATUS 30 = false
        ∧ t.bit Reg.MEM_OP_STATUS 29 = false ∧ t.bit Reg.MEM_OP_STATUS 28 = s.mem.abandoned
        ∧ t.fld Reg.MEM_OP_STATUS 15 0 = min (s.fld Reg.MEM_OP_STATUS 15 0 + 1) 65535
        ∧ t.fld Reg.MEM_OP_STATUS 23 16 = min pause 255 ∧ (∀ i, i < 16 → s.activeMode i = true → t.debt i = 0)
        ∧ keepsRegs s t (Reg.MEM_OP_STATUS :: ranks.map Reg.MEM_RANK_STATUS ++ ranks.map Reg.MEM_RANK_TRAIN) ∧ t.dram = s.dram)
    ∧ (∀ pause, s.bit Reg.MEM_OP_STATUS 29 = true →
        (∀ i, i < 16 → s.rankState i = 4 → (s.mram.retired.any fun e => e.1 == i) = false ∧ s.migrating i = false) →
        ∃ t, exec (.switchHoldExpire pause) s = .next t ∧ (∀ i, i < 16 → t.rankState i ≠ 4)
        ∧ t.bit Reg.MEM_OP_STATUS 29 = false ∧ t.dram = s.dram
        ∧ (s.bit Reg.MEM_OP_STATUS 30 = true → s.fld (Reg.CMD_FCLK_COUNT 0) 31 0 ≠ s.mem.switchAt →
            (∀ i, i < 16 → s.rankState i ≠ 3) → t.bit Reg.MEM_OP_STATUS 31 = s.mem.switchTo
            ∧ t.bit Reg.MEM_OP_STATUS 30 = false ∧ t.bit Reg.MEM_OP_STATUS 28 = true)
        ∧ (s.bit Reg.MEM_OP_STATUS 30 = true → s.fld (Reg.CMD_FCLK_COUNT 0) 31 0 = s.mem.switchAt →
            t.bit Reg.MEM_OP_STATUS 31 = s.bit Reg.MEM_OP_STATUS 31 ∧ t.bit Reg.MEM_OP_STATUS 30 = true
            ∧ t.mem.abandoned = true))

/-- R283 to R285, R287, R290, R293 to R298: alerts, the patrol scrub, which takes its turn like any request, and what its
codewords find, retirement, and the copies to spares. That copies run one after another is the model's choice (assumption
60), so is SCRUB_POS beyond the addressed space (assumption 59). -/
def Obligations.ErrorsRetireRanks : Prop :=
  ∀ s : State,
    (∀ addr port pl h, s.dramHome addr = some (pl, h) → ∃ t, exec (.writeCrcAlert addr port false) s = .next t
        ∧ t.fld (Reg.MEM_CH_STATUS pl.chan) 15 0 = min (s.fld (Reg.MEM_CH_STATUS pl.chan) 15 0 + 1) 65535
        ∧ raised s t .wcrcAlert ∧ keepsRegs s t (Reg.MEM_CH_STATUS pl.chan :: flagRegs .wcrcAlert)
        ∧ t.mram = s.mram ∧ t.dram = s.dram)
    ∧ (∀ addr port pl h, s.dramHome addr = some (pl, h) → s.migrating (s.servingRank addr h) = false →
        (s.mram.retired.any fun e => e.1 == s.servingRank addr h) = false →
        ∃ t, exec (.writeCrcAlert addr port true) s = .next t ∧ raised s t .wcrcAlert
        ∧ t.fld (Reg.MEM_RANK_ECC (s.servingRank addr h)) 15 8
            = min (s.fld (Reg.MEM_RANK_ECC (s.servingRank addr h)) 15 8 + 1) 255
        ∧ t.mram.retired = s.mram.retired ++ [(s.servingRank addr h, 1)] ∧ t.dram = s.dram)
    ∧ (∀ ecc i, s.ready = true → s.bit Reg.MEM_SCRUB_CTRL 31 = true → s.scrubRank s.mem.scrubPos = some i →
        s.rankState i = 2 → ∃ t, exec (.scrubStep ecc) s = .next t ∧ t.rankState i = 1 ∧ t.rankHeld i = true
        ∧ t.mem.scrubPos = s.mem.scrubPos ∧ keepsRegs s t [Reg.MEM_RANK_STATUS i] ∧ t.dram = s.dram)
    ∧ (∀ ecc i, s.ready = true → s.bit Reg.MEM_SCRUB_CTRL 31 = true → s.scrubRank s.mem.scrubPos = some i →
        s.rankState i ≠ 2 → s.rankState i ≠ 8 → s.rankHeld i = true → exec (.scrubStep ecc) s = .next s)
    ∧ (∀ i, s.ready = true → s.bit Reg.MEM_SCRUB_CTRL 31 = true → dramQuiet s → s.mem.scrubPos < s.dramSize →
        s.scrubRank s.mem.scrubPos = some i → s.rankHeld i = false → (s.rankState i = 8 → s.activeMode i = true) →
        let n := if s.mem.scrubPos + 128 < s.dramSize + s.spares.length * s.rankMib * 2 ^ 20 then s.mem.scrubPos + 128 else 0
        (∃ t, exec (.scrubStep []) s = .next t ∧ t.mem.scrubPos = n
          ∧ t.pair Reg.MEM_SCRUB_POS_LO = BitVec.ofNat 64 (n % 2 ^ 38)
          ∧ keepsRegs s t [Reg.MEM_SCRUB_POS_LO, Reg.MEM_SCRUB_POS_LO + 4]
          ∧ t = { s with regs := t.regs, mem := { s.mem with scrubPos := n, scrubbed := t.mem.scrubbed } })
        ∧ (∀ d ecc, d < 10 → eccOutcome ecc = d + 1 → ∃ t, exec (.scrubStep ecc) s = .next t ∧ raised s t .eccCorr
          ∧ t.fld (Reg.MEM_RANK_ECC i) 31 16 = min (s.fld (Reg.MEM_RANK_ECC i) 31 16 + 1) 65535
          ∧ t.fld (Reg.MEM_RANK_ECC i) 7 4 = d
          ∧ t.mem = { s.mem with scrubPos := n, scrubbed := t.mem.scrubbed } ∧ t.dram = s.dram)
        ∧ (∀ ecc, eccOutcome ecc = 11 → ∃ t, exec (.scrubStep ecc) s = .next t
          ∧ s.mem.scrubPos / 128 ∈ t.mem.poison ∧ t.mem.scrubPos = n
          ∧ t.fld (Reg.MEM_RANK_ECC i) 15 8 = min (s.fld (Reg.MEM_RANK_ECC i) 15 8 + 1) 255
          ∧ (s.migrating i = false → t.mram.retired.any (fun e => e.1 == i) = true) ∧ t.dram = s.dram))
    ∧ (∀ l, eccOutcome l = 0 ↔ ∀ e ∈ l, e = 0)
    ∧ (∀ l d, 1 ≤ d → d ≤ 10 → (eccOutcome l = d ↔ d ∈ l ∧ ∀ e ∈ l, e = 0 ∨ e = d))
    ∧ (∀ p i, mayWriteX s p → i < 16 → s.migrating i = false → (s.mram.retired.any fun e => e.1 == i) = false →
        ∃ t, exec (.retire p i) s = .next t ∧ t.mram.retired = s.mram.retired ++ [(i, 3)]
        ∧ (t.rankState i = 6 ∨ t.rankState i = 5) ∧ t.condOn Blk.MEM 4 = true ∧ t.dram = s.dram)
    ∧ (∀ p i, mayWriteX s p → i < 16 → ∃ t, exec (.retireClear p i) s = .next t
        ∧ t.mram.retireClear = i :: s.mram.retireClear ∧ t.mram.retired = s.mram.retired ∧ t.regs = s.regs
        ∧ t = { s with mram := t.mram })
    ∧ (∀ i j, s.bit Reg.MEM_MIGRATE 31 = true → i = s.fld Reg.MEM_MIGRATE 27 24 → j = s.fld Reg.MEM_MIGRATE 23 20 →
        i ≠ j → ∃ t, exec .migrationDone s = .next t
        ∧ (s.mem.copies = [] → t.fld Reg.MEM_MIGRATE 17 0 = max (s.fld Reg.MEM_MIGRATE 17 0) s.rankMib
            ∧ t.bit Reg.MEM_MIGRATE 31 = false)
        ∧ (∀ e l, s.mem.copies = e :: l → t.reg Reg.MEM_MIGRATE = w32 (2 ^ 31 + e.1 * 2 ^ 24 + e.2 * 2 ^ 20)
            ∧ t.mem.copies = l)
        ∧ (∀ l, l ∈ t.mem.poison ↔ l ∈ s.mem.poison ∨ l ∈ s.copyBad i (s.fld Reg.MEM_MIGRATE 17 0) s.rankMib)
        ∧ t.rankState i = 6 ∧ t.debt i = 0 ∧ t.rankState j = (if s.rankState j = 6 then 6 else 1)
        ∧ (∀ k, k ≠ i → k ≠ j → t.rankState k = s.rankState k)
        ∧ t.mram = s.mram ∧ t.dram = s.dram)

/-! ### Frame store and block compressor (chapter 11) -/

/-- R318, R319, R323 to R327: surface statistics, and the jobs of the block compressor from submission to result. -/
def Obligations.BlockJobsRunAndPostResults : Prop :=
  ∀ (s : State) (p : Port),
    (mayWrite s p → ∃ t, exec (.statClr p) s = .next t
        ∧ (t.stream (s.fld Reg.FSC_SURF_SEL 11 0)).statMax = 0 ∧ (t.stream (s.fld Reg.FSC_SURF_SEL 11 0)).statFrames = 0
        ∧ (t.stream (s.fld Reg.FSC_SURF_SEL 11 0)).statHist = [0, 0, 0, 0, 0, 0, 0, 0]
        ∧ (∀ i, i ≠ s.fld Reg.FSC_SURF_SEL 11 0 → t.stream i = s.stream i)
        ∧ t = { s with streams := t.streams, twin := t.twin })
    ∧ (mayWrite s p → ∃ t, exec (.statClrAll p) s = .next t
        ∧ (∀ i, (s.stream i).on = true → (t.stream i).statMax = 0 ∧ (t.stream i).statFrames = 0
            ∧ (t.stream i).statHist = [0, 0, 0, 0, 0, 0, 0, 0] ∧ (t.stream i).complete = (s.stream i).complete)
        ∧ t = { s with streams := t.streams, twin := t.twin })
    ∧ (∀ hi : Word, s.access p = true → s.blk.jobs.length < 8 → ∃ t, exec (.blkSubmit p hi) s = .next t
        ∧ t.blk = { s.blk with jobs := s.blk.jobs ++ [(s.staged Reg.BLK_SUBMIT_LO).toNat + wbits hi 5 0 * 2 ^ 32] }
        ∧ t.fld Reg.BLK_QUEUE 3 0 = s.blk.jobs.length + 1 ∧ keepsRegs s t [Reg.BLK_QUEUE]
        ∧ t = { s with regs := t.regs, blk := t.blk })
    ∧ (∀ hi : Word, s.access p = true → 8 ≤ s.blk.jobs.length → ∃ t, exec (.blkSubmit p hi) s = .next t
        ∧ t.bit Reg.BLK_QUEUE 31 = true ∧ keepsRegs s t [Reg.BLK_QUEUE] ∧ t = { s with regs := t.regs })
    ∧ (∀ a d, s.blkJob = some a → s.jobCheck a = (0, d) → d.op = 0 → s.blk.done = none →
        ∃ t e, exec .compress s = .next t ∧ t.blk = { s.blk with done := some e } ∧ e.op = 0
        ∧ (e.code = 0 ∨ e.code = 1 ∨ e.code = 2 ∨ e.code = 9) ∧ (e.code = 0 → e.magic = some d.dst)
        ∧ (dramQuiet s → e.code ≠ 9 ∧ t.dramRead d.dst (min 4 d.space) = leBytes (min 4 d.space) 0
          ∧ keepsDram s t d.dst d.space ∧ t.regs = s.regs))
    ∧ (∀ a d, s.blkJob = some a → s.jobCheck a = (0, d) → d.op = 1 → s.blk.done = none →
        ∃ t e, exec .decompress s = .next t ∧ t.blk = { s.blk with done := some e } ∧ e.op = 1
        ∧ (dramQuiet s → e.code ≠ 9
          ∧ (e.code = 0 → Crc.value Crc.crc32c (t.dramRead d.dst (leAt (s.dramRead d.src d.len) 8 4))
              = leAt (s.dramRead d.src d.len) 16 4)
          ∧ keepsDram s t d.dst d.space ∧ t.regs = s.regs))
    ∧ (∀ a d, s.blkJob = some a → s.jobCheck a = (0, d) → d.op = 2 → s.blk.done = none →
        ∃ t e, exec .verify s = .next t ∧ t.blk = { s.blk with done := some e } ∧ e.op = 2
        ∧ t.dram = s.dram ∧ (portsQuiet s → e.code ≠ 9 → t = { s with blk := t.blk, free := t.free }))
    ∧ (∀ a e, s.blkJob = some a → s.blk.done = some e → ∃ t, exec .jobDone s = .next t
        ∧ t.blk = { s.blk with jobs := s.blk.jobs.tail, done := none }
        ∧ t.reg Reg.BLK_RESULT = w32 (2 ^ 31 + (s.fld Reg.BLK_RESULT 23 16 + 1) % 256 * 2 ^ 16 + e.code * 2 ^ 8 + e.op % 256)
        ∧ (∀ k, k < 4 → t.reg (Reg.BLK_RESULT_DATA k) = e.data.getD k 0) ∧ raised s t .jobDone
        ∧ (∀ m, e.magic = some m → dramQuiet s → m + 4 ≤ s.dramSize →
            t.dramRead m 4 = [0x56, 0x58, 0x42, 0x43] ∧ keepsDram s t m 4)
        ∧ (e.magic = none → t.dram = s.dram)
        ∧ (e.magic = none ∨ portsQuiet s → keepsRegs s t ([Reg.BLK_RESULT, Reg.BLK_QUEUE] ++ (List.range 4).map Reg.BLK_RESULT_DATA ++ flagRegs .jobDone
            ++ flagRegs .noGain ++ flagRegs .noSpace)))
    ∧ (s.access p = true → s.blkJob = none → ∃ t, exec (.blkAbort p) s = .next t ∧ t.blk = { s.blk with jobs := [] }
        ∧ t.fld Reg.BLK_QUEUE 15 8 = min (s.fld Reg.BLK_QUEUE 15 8 + s.blk.jobs.length) 255
        ∧ t.fld Reg.BLK_QUEUE 3 0 = 0 ∧ keepsRegs s t [Reg.BLK_QUEUE] ∧ t = { s with regs := t.regs, blk := t.blk })
    ∧ (∀ a, s.access p = true → s.blkJob = some a → ∃ t, exec (.blkAbort p) s = .next t ∧ t.blk.jobs = []
        ∧ t.blk.done = none ∧ t.bit Reg.BLK_RESULT 31 = true ∧ t.fld Reg.BLK_RESULT 15 8 = 10 ∧ raised s t .jobDone)

/-! ### Composition, scalers, outputs, check values (chapters 12 to 15) -/

/-- R33, R354, R384, R389 to R392: a composed segment, a prescaler band, the raster lines of an output, the end of a
scan-fault hold. -/
def Obligations.FramesAreComposedAndSent : Prop :=
  ∀ (s : State) (n : Nat),
    (∀ r f y k, s.oldOutput n = none → s.node n = some r → r.dest = 1 → (s.nodeSt n).frame = some f → y < f.h → 1024 * k < f.w →
        Cells.get (fun _ => []) f.segs (segKey y k) = [] → f.segs.length + 1 < f.h * cdiv f.w 1024 →
        Fmt.known f.conv.fmt = true →
        ∃ t g, exec (.segmentComplete n y k) s = .next t ∧ (t.nodeSt n).frame = some g ∧ g.plans = (s.refreshFrame f).plans
        ∧ (Cells.get (fun _ => []) g.segs (segKey y k)).length = min f.w (1024 * k + 1024) - 1024 * k
        ∧ (∀ j, j ≠ segKey y k → Cells.get (fun _ => []) g.segs j = Cells.get (fun _ => []) f.segs j)
        ∧ (∀ m, m ≠ n → t.nodeSt m = s.nodeSt m)
        ∧ (portsQuiet s → keepsSurface s t f.strm f.conv.fmt))
    ∧ (∀ o tm f y k, s.oldOutput n = some o ∨ (s.oldOutput n = none
          ∧ ∃ r, s.node n = some r ∧ r.dest ≠ 1 ∧ r.dest ≠ 3 ∧ r.output = o) → s.raster o = some tm →
        (s.output o).cur = some f → f.card = false → f.ready y k = false → y < tm.h →
        k < (outPorts o tm).length * (cutLine tm.portW).1 → (outSeg tm k).1 < (outSeg tm k).2 →
        y + (tm.commitLead - s.rasterLead o) ≤ (s.output o).line →
        (s.output o).line < tm.commitLead + y → ∃ t g, exec (.segmentComplete n y k) s = .next t
        ∧ (t.output o).cur = some g ∧ g.ready y k = true ∧ g.no = f.no ∧ t.dram = s.dram)
    ∧ (∀ b f p, (s.stream n).cur = some f → s.freePrescaler = some p → (s.stream n).pyramid = true → f.dropped = false →
        8 * b < f.h → ∃ t, exec (.prescalerBand n b) s = .next t
        ∧ Cells.get (fun _ => 0) t.pre.busy p = s.uptime + (f.w * min 8 (f.h - 8 * b) + 7) / 8
        ∧ (∀ q, q ≠ p → Cells.get (fun _ => 0) t.pre.busy q = Cells.get (fun _ => 0) s.pre.busy q)
        ∧ t = { s with pre := { s.pre with busy := t.pre.busy } })
    ∧ (∀ tm, s.ready = true → s.raster n = some tm → n ∈ s.rasterOuts → (s.output n).begun = true → (s.output n).cur = none →
        (s.output n).fsSent = false → tm.commitLead - s.rasterLead n < tm.total →
        ∃ t f, exec (.rasterLine n (tm.commitLead - s.rasterLead n)) s = .next t ∧ (t.output n).cur = some f
        ∧ f.no = (s.output n).nextNo ∧ (t.output n).nextNo = ((s.output n).nextNo + 1) % 65536
        ∧ (t.output n).fsSent = true ∧ t.reg (Reg.OUT_LAST_FS n) = s.ts ∧ t.dram = s.dram)
    ∧ (∀ tm f j, s.ready = true → s.raster n = some tm → n ∈ s.rasterOuts → (s.output n).begun = true → (s.output n).cur = some f →
        tm.commitLead ≤ j → j < tm.commitLead + tm.h → j < tm.total → ∃ t g, exec (.rasterLine n j) s = .next t
        ∧ (t.output n).cur = some g ∧ g.no = f.no ∧ g.frame = f.frame ∧ g.sigs.length = f.regions.length
        ∧ (t.output n).line = j ∧ (f.memory = false → t.dram = s.dram)
        ∧ (∀ k r, portsQuiet s → s.boundNode n = some k → s.node k = some r → Fmt.known (s.stream r.surf).format = true →
            keepsSurface s t r.surf (s.stream r.surf).format))
    ∧ (∀ tm f, s.ready = true → s.raster n = some tm → n ∈ s.rasterOuts → (s.output n).begun = true → (s.output n).cur = some f →
        (s.output n).waitStart = false → tm.commitLead + tm.h < tm.total →
        ∃ t, exec (.rasterLine n (tm.commitLead + tm.h)) s = .next t ∧ (t.output n).cur = none
        ∧ (t.output n).begun = false ∧ (t.output n).old = none ∧ (t.output n).sent.head?.map (·.no) = some f.no
        ∧ (f.memory = false → (∀ p ∈ outPorts n tm, s.headOf p = none) → t.dram = s.dram))
    ∧ (∀ d, (s.output n).hold = some d → d ≤ s.uptime → ∃ t, exec (.scanFaultHoldEnd n) s = .next t
        ∧ (t.output n).hold = none ∧ (∀ m, m ≠ n → t.output m = s.output m)
        ∧ t.condOn Blk.OUT 1 = (t.outputs.any fun e => e.2.hold.isSome)
        ∧ keepsRegs s t [Reg.INT_STATUS Blk.OUT] ∧ t.dram = s.dram)

/-- R409, R413, R414, R416: START, DATA, CTX and FINISH on a channel; START and FINISH of CHK.CTRL read as 0. -/
def Obligations.CheckChannelsComputeAndCompare : Prop :=
  ∀ (s : State) (p : Port), s.access p = true →
    (∀ c, c < 64 → s.chanKind c = 0 → wbits (s.shadow (Reg.CHK_CTRL c)) 31 30 = 0 → (s.xOpen = false ∨ s.standby = false) →
        ∃ t, exec (.chkStart p c) s = .next t ∧ (t.chan c).state = 1 ∧ (t.chan c).reg = Crc.start (s.chanParams c)
        ∧ (t.chan c).par = some (s.chanParams c) ∧ (∀ d, d ≠ c → t.chan d = s.chan d) ∧ t.regs = s.regs ∧ t.dram = s.dram)
    ∧ (∀ c, c < 64 → s.chanKind c = 0 → wbits (s.shadow (Reg.CHK_CTRL c)) 31 30 = 0 →
        (s.xOpen = false ∨ s.standby = false) → s.bit (Reg.CHK_CTRL c) 23 = false →
        ∃ t, exec (.chkFinish p c) s = .next t ∧ (t.chan c).state = 0
        ∧ t.pair (Reg.CHK_RESULT_LO c)
            = BitVec.ofNat 64 (Crc.finish (s.chanRun c) ((s.chan c).reg % 2 ^ (s.chanRun c).w))
        ∧ (t.chan c).alive = ((s.chan c).alive + 1) % 65536 ∧ (∀ d, d ≠ c → t.chan d = s.chan d)
        ∧ keepsRegs s t [Reg.CHK_RESULT_LO c, Reg.CHK_RESULT_LO c + 4] ∧ t.dram = s.dram)
    ∧ (∀ c, c < 64 → s.chanKind c = 0 → wbits (s.shadow (Reg.CHK_CTRL c)) 31 30 = 0 →
        (s.xOpen = false ∨ s.standby = false) → s.bit (Reg.CHK_CTRL c) 23 = true →
        Crc.finish (s.chanRun c) ((s.chan c).reg % 2 ^ (s.chanRun c).w) ≠ (s.chan c).exp.toNat % 2 ^ (s.chanRun c).w →
        ∃ t, exec (.chkFinish p c) s = .next t ∧ (t.chan c).state = 0 ∧ (t.chan c).mismatch = true
        ∧ (t.chan c).fails = min ((s.chan c).fails + 1) 255 ∧ raised s t .compareFail
        ∧ (∀ d, d ≠ c → t.chan d = s.chan d)
        ∧ keepsRegs s t ([Reg.CHK_RESULT_LO c, Reg.CHK_RESULT_LO c + 4] ++ flagRegs .compareFail) ∧ t.dram = s.dram)
    ∧ (∀ v : Word, s.chanKind s.chkSel = 0 → (s.chan s.chkSel).state = 1 → ∃ t, exec (.chkData p v) s = .next t
        ∧ (t.chan s.chkSel).reg = Crc.feed (s.chanRun s.chkSel) (s.chan s.chkSel).reg ((leBytes 4 v.toNat).take
            (if s.fld Reg.CHK_SEL 9 8 = 0 then 4 else s.fld Reg.CHK_SEL 9 8))
        ∧ (t.chan s.chkSel).state = 1 ∧ t.fld Reg.CHK_SEL 9 8 = 0 ∧ (∀ d, d ≠ s.chkSel → t.chan d = s.chan d)
        ∧ keepsRegs s t [Reg.CHK_SEL] ∧ t = { s with regs := t.regs, chk := t.chk })
    ∧ (∀ v : Word, s.chanKind s.chkSel ≠ 0 ∨ (s.chan s.chkSel).state ≠ 1 → ∃ t, exec (.chkData p v) s = .next t
        ∧ t.chan s.chkSel = { s.chan s.chkSel with ignored := true } ∧ (∀ d, d ≠ s.chkSel → t.chan d = s.chan d)
        ∧ keepsRegs s t [Reg.CHK_SEL] ∧ t = { s with regs := t.regs, chk := t.chk })
    ∧ (∀ lo hi : Word, s.chanKind s.chkSel = 0 → ∃ t, exec (.chkCtxWrite p lo hi) s = .next t
        ∧ (t.chan s.chkSel).reg = (hi.toNat * 2 ^ 32 + lo.toNat) % 2 ^ (s.chanParams s.chkSel).w
        ∧ (t.chan s.chkSel).state = 1 ∧ (∀ d, d ≠ s.chkSel → t.chan d = s.chan d) ∧ t.regs = s.regs ∧ t.dram = s.dram)

/-! ### Vigil and wall encoding (chapters 16, 17) -/

/-- R427, R455, R463: a tick ages every stream; a latch of an encoder, the end of its picture, its ring. That WR goes with
RD on a standby is the model's choice (assumption 80). -/
def Obligations.AgesTickAndEncodersTakePictures : Prop :=
  ∀ s : State,
    (s.ready = true → Cells.wf (fun _ => {}) s.streams = true → ∃ t, exec .ageTick s = .next t ∧ t.ticks = s.ticks + 1
        ∧ (∀ i, (s.stream i).on = true → (t.stream i).age = min ((s.stream i).age + 1) (2 ^ 24 - 1)
            ∧ (t.stream i).frames = (s.stream i).frames ∧ (t.stream i).complete = (s.stream i).complete)
        ∧ (∀ i, (s.stream i).on = false → t.stream i = s.stream i)
        ∧ keepsRegs s t (Reg.VGL_FROZEN_LAST :: flagRegs .freezeDetected) ∧ t.dram = s.dram)
    ∧ (∀ e, e < 4 → (s.encSt e).due = true → (s.encSt e).pic = none → s.encState e ≠ 0 → s.encHasFrame e = true →
        ∃ t p, exec (.encLatch e) s = .next t ∧ (t.encSt e).pic = some p ∧ p.alive = (s.stream (s.encStream e)).alive
        ∧ p.cap = (s.stream (s.encStream e)).cap ∧ (t.encSt e).due = false
        ∧ p.again = ((s.encSt e).last.any fun l =>
            l.strm == s.encStream e && l.frames == (s.stream (s.encStream e)).frames)
        ∧ (t.encSt e).last = some { strm := s.encStream e, frames := (s.stream (s.encStream e)).frames, rtp := p.rtp }
        ∧ (∀ l, (s.encSt e).last = some l → p.again = true → p.rtp = l.rtp)
        ∧ t.encState e = (if s.encState e = 1 then 2 else s.encState e)
        ∧ (∀ f, f ≠ e → t.encSt f = s.encSt f) ∧ t.dram = s.dram)
    ∧ (∀ e, e < 4 → (s.encSt e).due = true → (s.encSt e).pic = none → s.encState e ≠ 0 → s.encHasFrame e = false →
        ∃ t, exec (.encLatch e) s = .next t ∧ (t.encSt e).pic = none ∧ (t.encSt e).due = false
        ∧ t.encState e = (if s.encState e = 2 then 1 else s.encState e)
        ∧ (∀ f, f ≠ e → t.encSt f = s.encSt f) ∧ keepsRegs s t [Reg.ENC_STATUS e]
        ∧ t = { s with regs := t.regs, enc := t.enc })
    ∧ (∀ e p, e < 4 → (s.encSt e).pic = some p → ∃ t, exec (.encPictureDone e) s = .next t ∧ (t.encSt e).pic = none
        ∧ (t.encSt e).count = ((s.encSt e).count + 1) % 65536 ∧ (∀ f, f ≠ e → t.encSt f = s.encSt f)
        ∧ (s.encToRing e = false → t.dram = s.dram))
    ∧ (∀ port e (v : Word), e < 4 → mayWrite s port → ∃ t, exec (.encRingRdWrite port e v) s = .next t
        ∧ t.fld (Reg.ENC_RING_PTR e) 15 0 = wbits v 15 0
        ∧ t.fld (Reg.ENC_RING_PTR e) 31 16 = (if s.standby then wbits v 15 0 else s.fld (Reg.ENC_RING_PTR e) 31 16)
        ∧ keepsRegs s t [Reg.ENC_RING_PTR e] ∧ t.dram = s.dram)

/-! ### Touch (chapter 18) -/

/-- R469, R471, R479, R481, R484, R486, R488: events of a touch head and the writes of its registers. The
layout that the CRC of a map covers and WR on a standby are the model's choice (assumption 80). -/
def Obligations.TouchHeadsKeepTheirZonesAndMaps : Prop :=
  ∀ (s : State) (h : Nat),
    (s.headRec h ≠ none → (s.head h).present = true → ∃ t, exec (.touchHeadLost h) s = .next t
        ∧ (t.head h).present = false ∧ (t.head h).touches = [] ∧ (∀ z, z < 64 → ((t.head h).zone z).state = 0)
        ∧ (∀ j, j ≠ h → t.head j = s.head j) ∧ (s.standby = true → t.dram = s.dram))
    ∧ (∀ p r, h < 24 → mayWriteX s p → s.bit Reg.TCH_MAP_CTRL 30 = false → s.headRec h = some r →
        (s.head h).present = true → (s.head h).flooded = false → (s.head h).busy = false →
        ∃ t, exec (.mapCapture p h) s = .next t ∧ t.bit Reg.TCH_MAP_CTRL 30 = true ∧ t.bit Reg.TCH_MAP_CTRL 29 = false
        ∧ t.fld Reg.TCH_MAP_CTRL 4 0 = h ∧ (t.head h).capture = some { left := r.usedFreqs, vals := [], waits := (s.head h).settle.isSome } ∧ xCounted s t
        ∧ (∀ j, j ≠ h → t.head j = s.head j) ∧ keepsRegs s t [Reg.TCH_MAP_CTRL] ∧ t.dram = s.dram)
    ∧ (∀ p, h < 24 → mayWriteX s p → s.bit Reg.TCH_MAP_CTRL 30 = false → s.headRec h = none →
        ∃ t, exec (.mapCapture p h) s = .next t ∧ t.bit Reg.TCH_MAP_CTRL 30 = false ∧ t.bit Reg.TCH_MAP_CTRL 29 = true
        ∧ keepsRegs s t [Reg.TCH_MAP_CTRL] ∧ t.dram = s.dram)
    ∧ (∀ k r, (s.head h).capture = some k → k.left = [] → s.headRec h = some r → ∃ t, exec (.mapWritten h) s = .next t
        ∧ Cells.get (fun _ => {}) t.mram.touchMaps h
            = ({ cols := r.cols, rows := r.rows, freqs := r.freqs, vals := k.vals } : TouchMap).sealed
        ∧ t.mapValid h r = true
        ∧ (t.head h).capture = none ∧ (t.head h).noMap = false ∧ t.bit Reg.TCH_MAP_CTRL 30 = false
        ∧ (∀ j, j ≠ h → t.head j = s.head j))
    ∧ (∀ r, s.headRec h = some r → (s.head h).touches = [] → (s.head h).rateNext < 3 →
        ((s.head h).proposals.any fun q => q.1 == 0) = false → s.touchReel = false →
        r.rateTop ≤ (s.head h).rateNext + 1 → ∃ t, exec (.rateStepDown h) s = .next t
        ∧ (t.head h).rateNext = (s.head h).rateNext + 1 ∧ (∀ j, j ≠ h → t.head j = s.head j)
        ∧ t = { s with touch := t.touch })
    ∧ (∀ r, s.headRec h = some r → (s.head h).touches = [] → (s.head h).rateNext < 3 →
        ((s.head h).proposals.any fun q => q.1 == 0) = false → s.touchReel = true →
        ∃ t, exec (.rateStepDown h) s = .next t
        ∧ (t.head h).proposals = (s.head h).proposals ++ [(0, (s.head h).rateNext + 1)]
        ∧ (t.machine 64).ev.getLsbD 1 = true ∧ (∀ j, j ≠ h → t.head j = s.head j)
        ∧ t = { s with touch := t.touch, stm := t.stm })
    ∧ (∀ r v, s.headRec h = some r → (s.head h).proposals.find? (fun q => q.1 == 0) = some (0, v) → r.rateTop ≤ v →
        v ≤ 3 → (s.head h).touches = [] → v ≠ (s.head h).rateNext → ∃ t, exec (.proposalTimeout h 0) s = .next t
        ∧ (t.head h).rateNext = v ∧ (t.head h).proposals = (s.head h).proposals.filter (fun q => q.1 != 0)
        ∧ (∀ j, j ≠ h → t.head j = s.head j) ∧ t = { s with touch := t.touch })
    ∧ (∀ z, s.headRec h ≠ none → ((s.head h).zone z).kind = 2 → ((s.head h).zone z).state = 1 →
        ((s.head h).zone z).hold ≠ 0 → ∃ t, exec (.zoneTimeout h z) s = .next t ∧ ((t.head h).zone z).state = 3
        ∧ (∀ y, y ≠ z → (t.head h).zone y = (s.head h).zone y) ∧ (t.head h).touches = (s.head h).touches
        ∧ (∀ j, j ≠ h → t.head j = s.head j) ∧ (s.standby = true → t.dram = s.dram))
    ∧ (∀ id x, (s.head h).touches.find? (fun k => k.id == id) = some x → x.long = false →
        ∃ t, exec (.longHold h id) s = .next t ∧ raised s t .longHold
        ∧ (t.head h).touches = (s.head h).touches.map (fun k => if k.id = id then { k with long := true } else k)
        ∧ (∀ j, j ≠ h → t.head j = s.head j) ∧ (s.standby = true → t.dram = s.dram))
    ∧ (∀ p (v : Word), h < 24 → mayWrite s p → ∃ t, exec (.touchRingRdWrite p h v) s = .next t
        ∧ t.fld (Reg.TCH_RING_PTR h) 15 0 = wbits v 15 0
        ∧ t.fld (Reg.TCH_RING_PTR h) 31 16 = (if s.standby then wbits v 15 0 else s.fld (Reg.TCH_RING_PTR h) 31 16)
        ∧ keepsRegs s t [Reg.TCH_RING_PTR h] ∧ t.dram = s.dram)
    ∧ (∀ p (v : Word), h < 24 → mayWrite s p → ∃ t, exec (.touchRingWrite p h v) s = .next t
        ∧ t.reg (Reg.TCH_RING h) = v &&& 0xF3FF_FFFF
        ∧ t.fld (Reg.TCH_RING_PTR h) 15 0 = s.fld (Reg.TCH_RING_PTR h) 31 16
        ∧ t.fld (Reg.TCH_RING_PTR h) 31 16 = s.fld (Reg.TCH_RING_PTR h) 31 16 ∧ (t.head h).lost = 0
        ∧ (∀ j, j ≠ h → t.head j = s.head j) ∧ keepsRegs s t [Reg.TCH_RING h, Reg.TCH_RING_PTR h] ∧ t.dram = s.dram)

/-! ### Twin pair (chapter 19) -/

/-- R496 to R503, R511: the beats and MAYPOLE periods a device sends and hears, the loss of a path, and the rows of the
standby's table. -/
def Obligations.TwinPathsDecideTheRole : Prop :=
  ∀ s : State,
    (s.ready = true → s.standby = true ∨ s.active = true → ∃ t, exec .heartbeatSend s = .next t
        ∧ t.twin.beatNo = s.twin.beatNo + 1
        ∧ (∀ i, i < 2 → s.txOn (120 + i) = true → ∃ seq pl, Emit.packet (120 + i) (packetBytes 0x21 0 0 seq pl) ∈ t.out
            ∧ pl.length = 80 ∧ leAt pl 0 1 = (if s.active then 1 else 0) ∧ leAt pl 2 1 = s.sync
            ∧ leAt pl 8 4 = s.ts.toNat ∧ leAt pl 24 4 = s.fld Reg.TWN_LAST_EPOCH 31 0)
        ∧ keepsRegs s t twinTx ∧ t.dram = s.dram)
    ∧ (∀ i pl b, i < 2 → s.standby = true → pl.length = 80 → leAt pl 0 1 = 0 → arrives s (120 + i) 0x21 0 pl b →
        ∃ t, exec (.heartbeatRx i b) s = .next t ∧ t.hornpipe i = true ∧ t.bit Reg.TWN_PATHS 27 = false
        ∧ t.reg Reg.TWN_PEER_GEN = w32 (leAt pl 20 4) ∧ t.pair Reg.TWN_PEER_UID_LO = BitVec.ofNat 64 (leAt pl 32 8)
        ∧ (s.bit Reg.TWN_STATUS 25 = false → leAt pl 1 1 ≠ s.sideStrap →
            t.bit Reg.TWN_STATUS 25 = false ∧ t.sideNow = s.sideStrap)
        ∧ (leAt pl 1 1 = s.sideStrap → t.bit Reg.TWN_STATUS 25 = true
            ∧ t.sideNow = (if Config.uid.toNat < leAt pl 32 8 then 0 else 1))
        ∧ t.role = 1 ∧ t.sync = s.sync
        ∧ keepsRegs s t ([Reg.TWN_PATHS, Reg.TWN_STATUS, Reg.TWN_PEER_GEN, Reg.TWN_PEER_UID_LO, Reg.TWN_PEER_UID_HI,
            Reg.TWN_PEER_OFFSET] ++ flagRegs .twinLinkDown ++ flagRegs .healthFail ++ linkRegs (120 + i))
        ∧ t.dram = s.dram)
    ∧ (∀ i pl b, i < 2 → s.standby = true → s.sync = 3 → pl.length = 80 → leAt pl 0 1 = 1 →
        arrives s (120 + i) 0x21 0 pl b → ∃ t, exec (.heartbeatRx i b) s = .next t ∧ t.hornpipe i = true
        ∧ t.bit Reg.TWN_PATHS 27 = true ∧ t.sync = 2
        ∧ t.reg Reg.TWN_RESYNC = w32 (2 ^ 28 + s.fld Reg.TWN_RESYNC 27 24 * 2 ^ 24)
        ∧ mirrorSent s t 7 (s.fld Reg.TWN_LAST_EPOCH 31 0) 0 (s.fld Reg.TWN_RESYNC 27 24) [] ∧ t.role = 1
        ∧ t.dram = s.dram)
    ∧ (∀ i pl b, i < 2 → s.active = true → s.twin.since = none → s.sideStrap = 0 → s.bit Reg.TWN_STATUS 25 = false →
        pl.length = 80 → leAt pl 0 1 = 1 → leAt pl 1 1 = 1 → arrives s (120 + i) 0x21 0 pl b →
        ∃ t, exec (.heartbeatRx i b) s = .next t ∧ t.bit Reg.TWN_STATUS 23 = true ∧ t.role = 2
        ∧ t.twin.handover = none ∧ t.dram = s.dram)
    ∧ (∀ i pl b, i < 2 → s.active = true → s.twin.since = none → s.sideStrap = 1 → s.bit Reg.TWN_STATUS 25 = false →
        pl.length = 80 → leAt pl 0 1 = 1 → leAt pl 1 1 = 0 → arrives s (120 + i) 0x21 0 pl b →
        ∃ t, exec (.heartbeatRx i b) s = .next t ∧ t.bit Reg.TWN_STATUS 23 = true ∧ t.role = 1 ∧ t.sync = 3
        ∧ (∀ q, q < 16 → t.qState q = 4) ∧ t.boot.gpioDriven = 0 ∧ historyAdded s t 0x04 0)
    ∧ (∀ i, i < 2 → s.ready = true → ∃ t, exec (.hornpipeLost i) s = .next t ∧ t.hornpipe i = false
        ∧ t.hornpipe (1 - i) = s.hornpipe (1 - i) ∧ t.role = s.role
        ∧ (s.hornpipe (1 - i) = true → t.sync = s.sync)
        ∧ (s.hornpipe (1 - i) = false → s.standby = true → t.sync = 3)
        ∧ (s.hornpipe (1 - i) = false → s.active = true → t.sync = (if s.maypole = 0 then 5 else 3))
        ∧ keepsRegs s t ([Reg.TWN_PATHS, Reg.TWN_STATUS, Reg.TWN_PEER_OFFSET, Reg.TWN_RESYNC] ++ flagRegs .twinLinkDown)
        ∧ t.dram = s.dram)
    ∧ (s.ready = true → ∃ t, exec .maypoleToggle s = .next t
        ∧ t.twin.mpHigh = (if s.active then 75000 else if s.standby then 25000 else 0)
        ∧ t.out = (if s.active then [Emit.maypole 75000] else if s.standby then [Emit.maypole 25000] else []) ++ s.out
        ∧ t = { s with twin := { s.twin with mpHigh := t.twin.mpHigh }, out := t.out })
    ∧ (s.ready = true → ∃ t, exec (.maypoleEdge true) s = .next t ∧ t.twin.mpRise = some s.ts
        ∧ t.maypole = (if s.maypole = 0 then 3 else s.maypole) ∧ t.role = s.role
        ∧ t.sync = (if s.active = true ∧ s.sync = 5 ∧ s.hornpipeAny = false then 3 else s.sync)
        ∧ keepsRegs s t ([Reg.TWN_PATHS, Reg.TWN_STATUS] ++ flagRegs .twinLinkDown) ∧ t.dram = s.dram)
    ∧ (∀ r, s.ready = true → s.active = false → s.twin.mpRise = some r → ∃ t, exec (.maypoleEdge false) s = .next t
        ∧ t.twin.mpRise = none ∧ t.twin.mpLast = Maypole.ofHigh (tsDiff r s.ts).toNat
        ∧ (s.twin.mpLast = Maypole.ofHigh (tsDiff r s.ts).toNat → t.maypole = (Maypole.ofHigh (tsDiff r s.ts).toNat).code)
        ∧ (s.twin.mpLast ≠ Maypole.ofHigh (tsDiff r s.ts).toNat → t.maypole = (if s.maypole = 0 then 3 else s.maypole))
        ∧ keepsRegs s t (Reg.TWN_PATHS :: flagRegs .twinLinkDown) ∧ t.dram = s.dram)
    ∧ (s.ready = true → ∃ t, exec .maypoleSilent s = .next t ∧ t.maypole = 0 ∧ t.role = s.role
        ∧ t.sync = (if s.active = true ∧ s.hornpipeAny = false then 5 else s.sync)
        ∧ keepsRegs s t ([Reg.TWN_PATHS, Reg.TWN_STATUS] ++ flagRegs .twinLinkDown) ∧ t.dram = s.dram)
    ∧ (s.standby = true → s.hornpipeAny = true → s.bit Reg.TWN_PATHS 27 = true → ∃ t, exec .pathEvaluation s = .next t
        ∧ t = { s with twin := { s.twin with promote := false } })
    ∧ (s.standby = true → s.twin.listened = true →
        (s.hornpipeAny = true ∧ s.bit Reg.TWN_PATHS 27 = false) ∨ (s.hornpipeAny = false ∧ s.maypole = 2) →
        ∃ t, exec .pathEvaluation s = .next t ∧ t = { s with twin := { s.twin with promote := s.sideNow == 0 } })
    ∧ (s.standby = true → s.hornpipeAny = false → s.maypole = 1 ∨ s.maypole = 3 → ∃ t, exec .pathEvaluation s = .next t
        ∧ t = { s with twin := { s.twin with promote := false } })
    ∧ (s.standby = true → s.hornpipeAny = false → s.maypole = 0 → s.twin.met = true →
        ∃ t, exec .pathEvaluation s = .next t ∧ t.role = 2 ∧ t.reg Reg.TWN_TAKEOVER_TS = s.ts
        ∧ t.reg Reg.TWN_LAST_EPOCH = s.reg Reg.TWN_LAST_EPOCH ∧ t.condOn 25 3 = true ∧ historyAdded s t 0x03 0
        ∧ (∀ q, q < 16 → t.qState q = 0)
        ∧ (∀ a, s.twin.applied = some a → ∀ q, q < 16 → t.qHead q = a.heads.getD q 0 % 65536 ∧ t.qTail q = t.qHead q)
        ∧ (∀ f, f < 64 → t.fence f = s.fence f)
        ∧ t.boot.gpioDriven = s.boot.gpioDriven ||| s.boot.gpioShadow.1)

/-- R506 to R508, R510, R512, R515: an active seals the epoch it fills, decides its fate from the standby's answer,
takes the standby's verdicts and signatures and serves its resync. -/
def Obligations.ActiveSealsAndDecidesEpochs : Prop :=
  ∀ s : State, s.active = true →
    (s.twin.sealed = none → (s.fclkOf 0).on = true → ∃ t, exec .sealPoint s = .next t
        ∧ t.twin.sealed = some (Sealed.mk s.twin.filling s.twin.items.reverse
            (s.trailer (s.twin.fclk0 + 1) (s.twin.items.reverse.flatMap Item.bytes)) (s.twin.fclk0 + 1) 0 .none false false)
        ∧ t.twin.filling = s.twin.filling + 1 ∧ t.twin.items = []
        ∧ (∃ n, mirrorSent s t 1 s.twin.filling n 0
            (s.trailer (s.twin.fclk0 + 1) (s.twin.items.reverse.flatMap Item.bytes)).bytes)
        ∧ keepsRegs s t twinTx ∧ t.dram = s.dram)
    ∧ (s.twin.sealed ≠ none → exec .sealPoint s = .next s)
    ∧ (∀ e, s.twin.sealed = some e → e.decided = false → e.target = s.twin.fclk0 + 1 →
        (e.answer = .ack → ∃ t, exec .epochDecision s = .next t ∧ t.twin = { s.twin with sealed := some { e with decided := true } }
          ∧ mirrorSent s t 4 e.num (e.target % 2 ^ 32) 0 [] ∧ keepsRegs s t twinTx ∧ t.dram = s.dram)
        ∧ (∀ c, e.answer = .nack c → ∃ t, exec .epochDecision s = .next t
          ∧ t.twin.sealed = some { e with decided := true, alone := true } ∧ t.sync = 4 ∧ t.condOn 25 2 = true
          ∧ historyAdded s t 0x06 2 ∧ keepsRegs s t (Reg.TWN_STATUS :: flagRegs .shadowFault) ∧ t.dram = s.dram)
        ∧ (e.answer = .none → s.hornpipeAny = false ∨ s.sync = 3 → ∃ t, exec .epochDecision s = .next t
          ∧ t.twin = { s.twin with sealed := some { e with decided := true, alone := true } }
          ∧ t.fld Reg.TWN_SLIPS 7 0 = min (s.fld Reg.TWN_SLIPS 7 0 + 1) 255
          ∧ t.fld Reg.TWN_SLIPS 31 8 = s.fld Reg.TWN_SLIPS 31 8 ∧ keepsRegs s t [Reg.TWN_SLIPS] ∧ t.dram = s.dram)
        ∧ (e.answer = .none → s.hornpipeAny = true → s.sync ≠ 3 → s.slipMax ≤ e.slips → ∃ t, exec .epochDecision s = .next t
          ∧ t.twin.sealed = some { e with decided := true, alone := true } ∧ t.sync = 4 ∧ t.condOn 25 2 = true
          ∧ historyAdded s t 0x06 3 ∧ keepsRegs s t (Reg.TWN_STATUS :: flagRegs .shadowFault) ∧ t.dram = s.dram)
        ∧ (e.answer = .none → s.hornpipeAny = true → s.sync ≠ 3 → e.slips < s.slipMax → ∃ t, exec .epochDecision s = .next t
          ∧ t.twin = { s.twin with sealed := some { e with target := e.target + 1, slips := e.slips + 1 } }
          ∧ t.fld Reg.TWN_SLIPS 31 16 = min (s.fld Reg.TWN_SLIPS 31 16 + 1) 65535
          ∧ t.fld Reg.TWN_SLIPS 15 8 = e.slips + 1 ∧ t.fld Reg.TWN_SLIPS 7 0 = s.fld Reg.TWN_SLIPS 7 0
          ∧ raised s t .commitSlip ∧ mirrorSent s t 5 e.num ((e.target + 1) % 2 ^ 32) 0 []
          ∧ keepsRegs s t (Reg.TWN_SLIPS :: flagRegs .commitSlip ++ twinTx) ∧ t.dram = s.dram))
    ∧ (∀ e i index aux b body, s.twin.sealed = some e → e.decided = false →
        (mirrorArrives s i 2 e.num index aux body b → ∃ t, exec (.mirrorAck i b) s = .next t
          ∧ t.twin = { s.twin with sealed := some { e with answer := .ack }, seen := t.twin.seen }
          ∧ keepsRegs s t (Reg.TWN_FILL :: linkRegs (120 + i)) ∧ t.dram = s.dram)
        ∧ (mirrorArrives s i 3 e.num index aux body b → ∃ t, exec (.mirrorNack i b) s = .next t
          ∧ t.twin = { s.twin with sealed := some { e with answer := .nack index }, seen := t.twin.seen }
          ∧ keepsRegs s t (linkRegs (120 + i)) ∧ t.dram = s.dram))
    ∧ (∀ i epoch index aux body b, mirrorArrives s i 6 epoch index aux body b → ∃ t f, exec (.sig i b) s = .next t
        ∧ t.twin = { s.twin with peer := (f :: s.twin.peer).take 96, seen := t.twin.seen }
        ∧ f.out = index ∧ f.frame = aux % 65536 ∧ f.settling = (leAt body 1 1 != 0) ∧ f.sigs.length = leAt body 0 1
        ∧ (∀ r, r < leAt body 0 1 → f.sigs.getD r 0 = w32 (leAt body (4 + 4 * r) 4))
        ∧ keepsRegs s t (linkRegs (120 + i)) ∧ t.dram = s.dram)
    ∧ (∀ i epoch index aux body b, mirrorArrives s i 7 epoch index aux body b → ∃ t, exec (.resyncReq i b) s = .next t
        ∧ t.sync = 2 ∧ t.twin.qual = [] ∧ t.twin.sealed = s.twin.sealed
        ∧ (aux = 1 ∨ aux = 2 ∨ aux = 3 ∨ aux = 7 → t.condOn 25 2 = true)
        ∧ (s.twin.sealed = none → ∃ n trl, mirrorSent s t 1 (s.fld Reg.TWN_LAST_EPOCH 31 0) n 1 trl)
        ∧ (∀ e, s.twin.sealed = some e → e.alone = true → t.twin.wantSnap = true) ∧ t.dram = s.dram)
    ∧ (∀ i epoch index aux body b r, s.twin.verdict = some r → r.gen = index → aux ≠ 0 → aux < 256 →
        s.bit Reg.SYS_LOAD_STATUS 31 = false → mirrorArrives s i 9 epoch index aux body b →
        ∃ t, exec (.verdict i b) s = .next t ∧ t.twin.verdict = none ∧ t.ld.deltaVerdict = none ∧ t.ld.nextVerdict = none
        ∧ t.ld.deltas = s.ld.deltas ∧ t.ld.next = s.ld.next ∧ loadShown s t aux r.source r.gen r.record r.object false
        ∧ keepsRegs s t (loadRegs ++ linkRegs (120 + i)) ∧ t.dram = s.dram)
    ∧ (∀ i epoch index body b r d, s.twin.verdict = some r → r.gen = index → r.code = 0 →
        s.bit Reg.SYS_LOAD_STATUS 31 = false → s.ld.deltaVerdict = some d → imgDelta d.image = true →
        mirrorArrives s i 9 epoch index 0 body b → ∃ t, exec (.verdict i b) s = .next t ∧ t.twin.verdict = none
        ∧ t.ld.deltaVerdict = none ∧ t.twin.items = Item.image (imgGen d.image) true :: s.twin.items
        ∧ t.ld.deltas = s.ld.deltas ++ [deltaOfImage d.image (some s.twin.filling)]
        ∧ loadShown s t 0 r.source r.gen r.record r.object r.unprov
        ∧ keepsRegs s t (loadRegs ++ linkRegs (120 + i)) ∧ t.dram = s.dram)
    ∧ (∀ i epoch index body b r n, s.twin.verdict = some r → r.gen = index → r.code = 0 →
        s.bit Reg.SYS_LOAD_STATUS 31 = false → s.ld.deltaVerdict = none → s.ld.nextVerdict = some n →
        imgDelta n.image = false → mirrorArrives s i 9 epoch index 0 body b → ∃ t, exec (.verdict i b) s = .next t
        ∧ t.twin.verdict = none ∧ t.ld.nextVerdict = none ∧ t.ld.deltas = s.ld.deltas
        ∧ t.twin.items = Item.image (imgGen n.image) false :: s.twin.items
        ∧ t.ld.next = some (planOfImage n.image .accepted (some s.twin.filling))
        ∧ loadShown s t 0 r.source r.gen r.record r.object r.unprov
        ∧ keepsRegs s t (loadRegs ++ linkRegs (120 + i)) ∧ t.dram = s.dram)
    ∧ (∀ r, s.twin.verdict = some r → s.bit Reg.SYS_LOAD_STATUS 31 = false → ∃ t, exec .verdictTimeout s = .next t
        ∧ t.twin = { s.twin with verdict := none } ∧ t.ld.deltaVerdict = none ∧ t.ld.nextVerdict = none
        ∧ t.ld.deltas = s.ld.deltas ∧ t.ld.next = s.ld.next
        ∧ loadShown s t 0x32 r.source r.gen r.record r.object false ∧ keepsRegs s t loadRegs ∧ t.dram = s.dram)

/-- R504, R505, R507, R509, R510, R515: a standby keeps DATA packets, answers a SEAL by the first check that fails,
notes COMMIT and SLIP, and gathers the packets of a snapshot and of an image. -/
def Obligations.StandbyHoldsAndAnswersEpochs : Prop :=
  ∀ (s : State) (i epoch index aux : Nat) (body b : List Byte), s.standby = true →
    (∀ items, mirrorArrives s i 0 epoch index aux body b → s.fld Reg.TWN_LAST_EPOCH 31 0 < epoch →
        itemsOf (body.length + 1) body = some items → (∀ d ∈ s.twin.rxData, ¬(d.epoch = epoch ∧ d.index = index)) →
        ∃ t, exec (.mirrorData i b) s = .next t
        ∧ t.twin.rxData = s.twin.rxData ++ [RxData.mk epoch index (items.map fun x => RxItem.mk s.fclkCounts x) body]
        ∧ t.twin = { s.twin with rxData := t.twin.rxData, seen := t.twin.seen }
        ∧ keepsRegs s t (linkRegs (120 + i)) ∧ t.dram = s.dram)
    ∧ (mirrorArrives s i 1 epoch index 0 body b → s.fld Reg.TWN_LAST_EPOCH 31 0 < epoch → s.sync ≠ 2 →
        (∀ x ∈ s.twin.rxSealed, x.num ≠ epoch) → ∃ t e, exec (.seal i b) s = .next t
        ∧ t.twin.rxSealed = s.twin.rxSealed ++ [e] ∧ e.num = epoch ∧ e.committed = false ∧ e.trailer = Trailer.ofBytes body
        ∧ e.target = s.countOf (leAt body 0 4)
        ∧ e.answer = (if 2 ≤ (s.twin.rxSealed.filter fun x => x.answer == .ack).length then .nack 4
            else if (s.epochData epoch).map (·.index) ≠ List.range index then .nack 2
            else if Crc.value Crc.crc32c ((s.epochData epoch).flatMap (·.body)) ≠ (w32 (leAt body 4 4)).toNat then .nack 1
            else if ¬(∀ d ∈ s.epochData epoch, ∀ x ∈ d.items, s.holdsItem x.item = true) then .nack 3 else .ack)
        ∧ (e.answer = .ack → mirrorSent s t 2 epoch 0 0 []) ∧ (∀ c, e.answer = .nack c → mirrorSent s t 3 epoch c 0 [])
        ∧ keepsRegs s t (linkRegs (120 + i) ++ twinTx) ∧ t.dram = s.dram)
    ∧ (mirrorArrives s i 4 epoch index aux body b → ∃ t, exec (.commit i b) s = .next t
        ∧ t.twin.rxSealed = s.twin.rxSealed.map (fun x =>
            if x.num = epoch ∧ x.answer = .ack ∧ (s.sync = 2 ∨ s.twin.fclk0 < x.target) then { x with committed := true }
            else x)
        ∧ t.twin = { s.twin with seen := t.twin.seen, rxSealed := t.twin.rxSealed }
        ∧ keepsRegs s t (linkRegs (120 + i)) ∧ t.dram = s.dram)
    ∧ (∀ x, mirrorArrives s i 5 epoch index aux body b → s.twin.rxSealed.find? (fun y => y.num == epoch) = some x →
        x.answer = .ack → ∃ t, exec (.slip i b) s = .next t
        ∧ t.twin.rxSealed = s.twin.rxSealed.map (fun y => if y.num = epoch then
            { y with target := s.countOf index, slips := y.slips + 1 } else y)
        ∧ t.twin = { s.twin with seen := t.twin.seen, rxSealed := t.twin.rxSealed }
        ∧ mirrorSent s t 2 epoch 0 0 [] ∧ keepsRegs s t (linkRegs (120 + i) ++ twinTx) ∧ t.dram = s.dram)
    ∧ (∀ items, mirrorArrives s i 8 epoch index aux body b → s.sync = 2 → itemsOf (body.length + 1) body = some items →
        (∀ e ∈ s.twin.snap, e.1 ≠ index) → ∃ t, exec (.snapshot i b) s = .next t
        ∧ t.twin.snap = s.twin.snap ++ [(index, items)] ∧ t.twin.xfer = s.twin.xfer + body.length
        ∧ t.fld Reg.TWN_RESYNC 31 28 = 2 ∧ t.fld Reg.TWN_RESYNC 23 0 = min ((s.twin.xfer + body.length) / 1024) (2 ^ 24 - 1)
        ∧ t.fld Reg.TWN_RESYNC 27 24 = s.fld Reg.TWN_RESYNC 27 24
        ∧ keepsRegs s t (Reg.TWN_RESYNC :: linkRegs (120 + i)) ∧ t.dram = s.dram)
    ∧ (mirrorArrives s i 10 epoch 0 aux body b → epoch ≠ 0 → body.length < aux → ∃ t, exec (.mirrorImage i b) s = .next t
        ∧ t.twin = { s.twin with seen := t.twin.seen, image := body, imageLen := aux }
        ∧ keepsRegs s t (linkRegs (120 + i)) ∧ t.dram = s.dram)
    ∧ (mirrorArrives s i 10 epoch index aux body b → epoch ≠ 0 → index ≠ 0 → index = s.twin.image.length →
        s.twin.imageLen = aux → aux ≤ index + body.length → ∃ t code, exec (.mirrorImage i b) s = .next t
        ∧ t.twin.image = [] ∧ mirrorSent s t 9 (s.fld Reg.TWN_LAST_EPOCH 31 0)
            (leAt ((s.twin.image ++ body).take aux) 12 4) code []
        ∧ (code = 0 → ∃ e ∈ t.twin.checked, e.2 = (s.twin.image ++ body).take aux)
        ∧ (code ≠ 0 → t.twin.checked = s.twin.checked) ∧ t.dram = s.dram)

/-- R513, R514, R515, R517, R518, R521: a host's requests through TWN.CTRL, and a run of a health test. -/
def Obligations.TwinRequestsAndHealthTests : Prop :=
  ∀ (s : State) (p : Port),
    (twinCtrl s p → s.active = true → s.peerQualified = true → s.hornpipeAny = true → s.twin.handover = none →
        ∃ t, exec (.handover p) s = .next t ∧ t.bit Reg.TWN_STATUS 21 = false
        ∧ t.twin = { s.twin with items := Item.handover :: s.twin.items, handover := some s.twin.filling }
        ∧ xCounted s t ∧ keepsRegs s t [Reg.TWN_STATUS] ∧ t.dram = s.dram)
    ∧ (twinCtrl s p → s.active = false ∨ s.peerQualified = false ∨ s.hornpipeAny = false → s.twin.handover = none →
        ∃ t, exec (.handover p) s = .next t ∧ t.bit Reg.TWN_STATUS 21 = true ∧ t.twin = s.twin ∧ xCounted s t
        ∧ keepsRegs s t [Reg.TWN_STATUS] ∧ t.dram = s.dram)
    ∧ (twinCtrl s p → s.standby = true → ∃ t, exec (.resync p) s = .next t ∧ t.sync = 2
        ∧ t.reg Reg.TWN_RESYNC = 0x1600_0000 ∧ t.twin.snap = [] ∧ t.twin.fetched = [] ∧ t.twin.image = []
        ∧ mirrorSent s t 7 (s.fld Reg.TWN_LAST_EPOCH 31 0) 0 6 [] ∧ xCounted s t
        ∧ keepsRegs s t ([Reg.TWN_STATUS, Reg.TWN_RESYNC] ++ twinTx) ∧ t.dram = s.dram)
    ∧ (s.access p = true → s.xOpen = false → ∃ t, exec (.takeoverAck p) s = .next t ∧ t.condOn 25 3 = false
        ∧ (s.condOn 25 3 = true → t.bit (Reg.INT_STATUS 25) 3 = false)
        ∧ keepsRegs s t [Reg.INT_STATUS 25] ∧ t.twin = s.twin ∧ t.mram = s.mram ∧ t.dram = s.dram)
    ∧ (∀ u, u < 12 → s.ready = true → s.autoHandover = false → 1 < s.twin.health.length → s.twin.failed.getLsbD 4 = false →
        ∃ t, exec (.healthTest 4 u .fail) s = .next t ∧ t.twin.failed = s.twin.failed ||| 16
        ∧ (t.twin.health.getD 1 0).getLsbD u = true ∧ t.condOn 27 2 = true ∧ historyAdded s t 0x08 4
        ∧ t.twin.items = s.twin.items ∧ keepsRegs s t (flagRegs .healthFail) ∧ t.dram = s.dram)
    ∧ (∀ item u, item ≤ 9 → s.ready = true → s.autoHandover = false →
        Cells.get (fun _ => 0) s.twin.untested item = 9 → s.twin.degraded.getLsbD item = false →
        ∃ t, exec (.healthTest item u .notRun) s = .next t ∧ t.twin.degraded.getLsbD item = true
        ∧ Cells.get (fun _ => 0) t.twin.untested item = 10 ∧ t.twin.failed = s.twin.failed ∧ t.regs = s.regs
        ∧ t.dram = s.dram)
    ∧ (∀ item u, item ≤ 9 → s.ready = true → s.autoHandover = false → s.unitIdle item u = true →
        ∃ t, exec (.healthTest item u .pass) s = .next t
        ∧ Cells.get (fun _ => 0) t.twin.untested item = 0 ∧ t.twin.failed = s.twin.failed
        ∧ (item ≠ 7 ∨ 40 ≤ u → t.regs = s.regs)
        ∧ (item = 7 → u < 40 → t.reg Reg.SCL_PRE_TEST = w32 u
          ∧ t.reg Reg.SCL_PRE_TEST_CNT = s.reg Reg.SCL_PRE_TEST_CNT + 1
          ∧ keepsRegs s t [Reg.SCL_PRE_TEST, Reg.SCL_PRE_TEST_CNT]) ∧ t.dram = s.dram)
    ∧ (∀ item u r, s.autoHandover = false → s.unitIdle item u = false → r = .pass ∨ r = .fail →
        exec (.healthTest item u r) s = .next s)
    ∧ (∀ blk port lane m u, s.ready = true → s.autoHandover = false → blk < 256 → port < 128 → lane < 8 → m ≤ 38 →
        s.twin.margins = [] → 5 < s.twin.health.length → ∃ t, exec (.healthTest 3 u (.margin blk port lane m)) s = .next t
        ∧ t.twin.health.getD 5 0 = w32 (blk * 2 ^ 24 + port * 2 ^ 16 + lane * 2 ^ 13 + m)
        ∧ t.twin.degraded.getLsbD 3 = true ∧ t.twin.failed = s.twin.failed ∧ t.regs = s.regs ∧ t.dram = s.dram)

/-! ### Ring (chapter 20) -/

/-- R524, R525, R527, R537, R538, R540, R541, R542: CASCADE_TIME sent and heard, ports and members that fall silent, the
frames that were arriving on such a port, ring commits. -/
def Obligations.RingMembersHearAndCommitTogether : Prop :=
  ∀ s : State,
    (s.ready = true → s.inRing = true → ∃ t, exec .cascadeTimeSend s = .next t ∧ t.cas.beat = s.cas.beat + 1
        ∧ (∀ q, q < 4 → s.txOn (112 + q) = true →
            ∃ seq pl, Emit.packet (112 + q) (packetBytes 0x30 0 0 seq pl) ∈ t.out ∧ pl.length = 64
            ∧ leAt pl 0 1 = s.cascadeId ∧ leAt pl 1 1 = s.ringSide ∧ leAt pl 4 1 = 0
            ∧ leAt pl 8 4 = (s.cas.beat + 1) % 2 ^ 32 ∧ leAt pl 12 4 = s.ts.toNat ∧ leAt pl 48 4 = s.pendGen % 2 ^ 32
            ∧ leAt pl 16 4 = (s.cas.echo.getD q (0, 0)).1.toNat ∧ leAt pl 20 4 = (s.cas.echo.getD q (0, 0)).2.toNat)
        ∧ (∀ g, s.ringMaster = true → s.cas.abort = none → s.cas.ring = none → 0 < g → 0 < s.members → s.pendGen = g →
            (∀ m, 0 < m → m < s.members → s.fld (Reg.CAS_MEMBER_GEN m) 31 0 = g) →
            (∀ m, m < s.members → s.memberAlive m = true) → t.cas.ring = some (g, s.twin.fclk0 + 3))
        ∧ keepsRegs s t ([Reg.CAS_STATUS, Reg.CAS_MEMBER_GEN s.cascadeId] ++ ringTx) ∧ t.dram = s.dram)
    ∧ (∀ i pl b, i < 4 → s.inRing = true → s.members ≤ 8 → pl.length = 64 → leAt pl 4 1 = 0 → leAt pl 0 1 ≠ s.cascadeId →
        leAt pl 8 4 ∉ (s.casDev (leAt pl 0 1 * 2 + leAt pl 1 1 % 2)).beats → arrives s (112 + i) 0x30 0 pl b →
        ((leAt pl 0 1, leAt pl 1 1) = s.neighbour i → ∃ t, exec (.cascadeTimeRx i b) s = .next t ∧ t.casUp i = true
          ∧ t.bit (Reg.CAS_LINK i) 30 = false ∧ t.fld (Reg.CAS_LINK i) 26 23 = leAt pl 0 1 * 2 + leAt pl 1 1
          ∧ leAt pl 0 1 ∉ t.cas.lost ∧ (leAt pl 2 1 ≠ 0 → t.reg (Reg.CAS_MEMBER_GEN (leAt pl 0 1)) = w32 (leAt pl 48 4))
          ∧ t.dram = s.dram)
        ∧ ((leAt pl 0 1, leAt pl 1 1) ≠ s.neighbour i → ∃ t, exec (.cascadeTimeRx i b) s = .next t ∧ t.casUp i = false
          ∧ t.bit (Reg.CAS_LINK i) 30 = true ∧ leAt pl 0 1 ∉ t.cas.lost ∧ t.dram = s.dram)
        ∧ ((leAt pl 0 1, leAt pl 1 1) = s.neighbour i → s.ringFollower = true → s.cas.upstream = some i →
          s.cas.direct.length = 4 → (∀ j, j < 4 → j ≠ i → s.casLive j = false) → leAt pl 3 1 < s.members →
          s.cas.upEpoch = some (w32 (leAt pl 24 4)) → leAt pl 16 4 ≠ 0 →
          tsDiff (w32 (leAt pl 20 4)) (w32 (leAt pl 12 4)) ≤ (16 * s.ctPeriod * 1000 : Nat) →
          ∃ t, exec (.cascadeTimeRx i b) s = .next t ∧ t.cas.upstream = some i ∧ t.reg Reg.CAS_RING_OFFSET
              = satS32 ((tsDiff (w32 (leAt pl 12 4)) s.ts - tsDiff (w32 (leAt pl 16 4)) (w32 (leAt pl 20 4))) / 2)))
    ∧ (∀ i, i < 4 → s.ready = true → s.casUp i = true → s.ringFollower = false → s.cas.upstream = none →
        (∀ e ∈ s.cas.copies, ∀ c, e.2 = some c → c.port = i → c.done = true) →
        ∃ t, exec (.cascadePortDown i) s = .next t ∧ t.casUp i = false
        ∧ t.fld (Reg.CAS_LINK i) 15 0 = min (s.fld (Reg.CAS_LINK i) 15 0 + 1) 65535
        ∧ (s.has RT.CASCADE 0 = true → s.bit (Reg.JLX_PORT_CTRL i) 31 = true → t.condOn 26 0 = true)
        ∧ keepsRegs s t (Reg.CAS_LINK i :: flagRegs .ringBreak ++ flagRegs .memberLost) ∧ t.dram = s.dram)
    ∧ (∀ i n d c, i < 4 → s.ready = true → s.casUp i = true → s.ringFollower = false → s.cas.upstream = none → d < 2 →
        s.cas.copies = [(2 * n + d, some c)] → c.port = i → c.done = false →
        ∃ t, exec (.cascadePortDown i) s = .next t ∧ t.casUp i = false ∧ t.copy n d = none ∧ t.streams = s.streams
        ∧ t.fld (Reg.CAS_DROP i) 15 0 = min (s.fld (Reg.CAS_DROP i) 15 0 + 1) 65535
        ∧ keepsRegs s t (Reg.CAS_LINK i :: Reg.CAS_DROP i :: flagRegs .ringBreak ++ flagRegs .memberLost) ∧ t.dram = s.dram)
    ∧ (∀ i, i < 4 → s.ready = true → s.ringFollower = true → s.cas.upstream = some i →
        (∀ e ∈ s.cas.copies, ∀ c, e.2 = some c → c.port = i → c.done = true) →
        (∀ j, j < 4 → j ≠ i → s.casLive j = false) → ∃ t, exec (.cascadePortDown i) s = .next t ∧ t.casUp i = false
        ∧ t.cas.upstream = none ∧ t.bit (Reg.CAS_LINK i) 29 = false ∧ t.dram = s.dram)
    ∧ (∀ m, s.has RT.CASCADE 0 = true → m < s.members → m ≠ s.cascadeId → m ∉ s.cas.lost →
        ∃ t, exec (.memberLost m) s = .next t ∧ t.cas.lost = s.cas.lost ++ [m] ∧ t.condOn 26 1 = true
        ∧ t.fld (Reg.CAS_MEMBER m) 15 0 = min (s.fld (Reg.CAS_MEMBER m) 15 0 + 1) 65535
        ∧ keepsRegs s t (Reg.CAS_MEMBER m :: flagRegs .ringBreak ++ flagRegs .memberLost) ∧ t.dram = s.dram)
    ∧ (∀ g u, s.ringMaster = true → s.cas.abort = none → s.cas.first = some (g, u) →
        ∃ t, exec .commitWaitExpire s = .next t ∧ t.cas.abort = some g ∧ t.cas.first = none
        ∧ (∀ d, d ∈ t.ld.deltas ↔ d ∈ s.ld.deltas ∧ d.gen < g)
        ∧ t.fld Reg.CAS_COMMIT_INFO 31 24 = min (s.fld Reg.CAS_COMMIT_INFO 31 24 + 1) 255
        ∧ keepsRegs s t [Reg.CAS_COMMIT_INFO] ∧ t.dram = s.dram)

/-- R526, R530, R536, R539: subscriptions, relayed register accesses and forwarded commands. That a relayed write
which R114 or R302 does not relay is answered ERROR is the model's choice (assumption 60), and when an accepted forwarded
command counts here as taking effect is DEDUCED (assumption 76). -/
def Obligations.RingMessagesAreAnswered : Prop :=
  ∀ (s : State) (i tag : Nat) (b : List Byte),
    (∀ n, n < 65536 → ringArrives s i 1 tag (leBytes 2 n) b → ∃ t code, exec (.subscribe i b) s = .next t
        ∧ ringSent s t 3 (tag % 8) (tag / 8 % 2) tag (leBytes 2 n ++ leBytes 1 code)
        ∧ ((∃ e ∈ s.cas.sends, e.member = tag % 8 ∧ e.strm = n) → code = 0 ∧ t.cas.sends = s.cas.sends)
        ∧ ((∀ e ∈ s.cas.sends, ¬(e.member = tag % 8 ∧ e.strm = n)) → (s.stream n).on = false → code = 7)
        ∧ (code = 0 → ∃ e ∈ t.cas.sends, e.member = tag % 8 ∧ e.strm = n)
        ∧ (code ≠ 0 → t.cas.sends = s.cas.sends ∧ t.fld Reg.CAS_SUBS 15 8 = min (s.fld Reg.CAS_SUBS 15 8 + 1) 255)
        ∧ t.fld Reg.CAS_SUBS 31 16 = min t.cas.sends.length 65535
        ∧ keepsRegs s t (Reg.CAS_SUBS :: linkRegs (112 + i) ++ ringTx) ∧ t.dram = s.dram)
    ∧ (∀ n, n < 65536 → ringArrives s i 2 tag (leBytes 2 n) b → ∃ t, exec (.unsubscribe i b) s = .next t
        ∧ (∀ e, e ∈ t.cas.sends ↔ e ∈ s.cas.sends ∧ ¬(e.member = tag % 8 ∧ e.strm = n))
        ∧ t.fld Reg.CAS_SUBS 31 16 = min t.cas.sends.length 65535
        ∧ keepsRegs s t (Reg.CAS_SUBS :: linkRegs (112 + i)) ∧ t.dram = s.dram)
    ∧ (∀ n code, n < 65536 → code < 256 → ringArrives s i 3 tag (leBytes 2 n ++ leBytes 1 code) b →
        ∃ t, exec (.subAns i b) s = .next t
        ∧ t.cas.subs = s.cas.subs.map (fun x => if x.src = n ∧ x.tag = tag then
            (if code = 0 then { x with ok := true } else { x with refused := true }) else x)
        ∧ t.fld Reg.CAS_SUBS 7 0 = min 255 (t.cas.subs.filter (·.ok)).length
        ∧ t.fld Reg.CAS_SUBS 15 8 = (if code = 0 then s.fld Reg.CAS_SUBS 15 8 else min (s.fld Reg.CAS_SUBS 15 8 + 1) 255)
        ∧ keepsRegs s t (Reg.CAS_SUBS :: linkRegs (112 + i)) ∧ t.dram = s.dram)
    ∧ (∃ t, exec .subscribeRetry s = .next t
        ∧ t.cas.subs = s.cas.subs.map (fun x => { x with refused := false })
        ∧ (∀ x ∈ s.cas.subs, x.refused = true → ∀ q ∈ s.ringPorts (s.dirTo x.member) x.member 2,
            s.txOn (112 + q) = true → ∃ seq k, Emit.packet (112 + q) (packetBytes 0x30 1 0 seq
              (ringBytes 1 x.member 2 k (leBytes 2 x.src))) ∈ t.out)
        ∧ keepsRegs s t ringTx ∧ t.dram = s.dram)
    ∧ (∀ off (v : Word), off < 2 ^ 24 → notRelayed off v = true →
        ringArrives s i 4 tag (leBytes 1 1 ++ leBytes 3 off ++ leBytes 4 v.toNat) b → ∃ t, exec (.relayReq i b) s = .next t
        ∧ ringSent s t 5 (tag % 8) (tag / 8 % 2) tag (leBytes 1 5 ++ leBytes 4 0)
        ∧ keepsRegs s t (linkRegs (112 + i) ++ ringTx) ∧ t.dram = s.dram)
    ∧ (∀ off d (v : Word), basicReg off d → off < 2 ^ 24 → notRelayed off v = false → off ∉ linkRegs (112 + i) ++ ringTx → s.standby = false →
        ringArrives s i 4 tag (leBytes 1 1 ++ leBytes 3 off ++ leBytes 4 v.toNat) b →
        ∃ t, exec (.relayReq i b) s = .next t ∧ t.reg off = merge (s.reg off) d.rw v &&& ~~~ (d.w1c &&& v)
        ∧ ringSent s t 5 (tag % 8) (tag / 8 % 2) tag (leBytes 1 0 ++ leBytes 4 0)
        ∧ keepsRegs s t (off :: linkRegs (112 + i) ++ ringTx) ∧ t.dram = s.dram)
    ∧ (∀ off (v : Word), off < 2 ^ 24 → off % 4 = 0 → mapped off = true → Reg.isX off = false → off ≠ Reg.STM_PROG_DATA →
        ringArrives s i 4 tag (leBytes 1 0 ++ leBytes 3 off ++ leBytes 4 v.toNat) b →
        ∃ t u, exec (.relayReq i b) s = .next t ∧ keepsRegs s u (linkRegs (112 + i))
        ∧ ringSent s t 5 (tag % 8) (tag / 8 % 2) tag (leBytes 1 0 ++ leBytes 4 (u.readWord off).toNat)
        ∧ keepsRegs s t (linkRegs (112 + i) ++ ringTx) ∧ t.dram = s.dram)
    ∧ (∀ r code (v : Word), s.cas.relay = some r → r.tag = tag → code < 256 →
        ringArrives s i 5 tag (leBytes 1 code ++ leBytes 4 v.toNat) b → ∃ t, exec (.relayAns i b) s = .next t
        ∧ relayed s t code v ∧ keepsRegs s t ([Reg.CAS_RELAY_STATUS, Reg.CAS_RELAY_RESULT] ++ linkRegs (112 + i))
        ∧ t.dram = s.dram)
    ∧ (s.cas.relay ≠ none → ∃ t, exec .relayTimeout s = .next t ∧ relayed s t 3 0
        ∧ keepsRegs s t [Reg.CAS_RELAY_STATUS, Reg.CAS_RELAY_RESULT] ∧ t = { s with regs := t.regs, cas := t.cas })
    ∧ (∀ r : CmdRec, s.standby = false → s.cas.forwarded = [] → CmdRec.ofBytes r.bytes = r →
        ringArrives s i 6 tag r.bytes b → 0x10 < r.op ∨ (1 ≤ r.op ∧ r.op ≤ 5 ∧ s.heldCommands < 1024) →
        ∃ t code, exec (.cmdFwd i b) s = .next t ∧ ringSent s t 7 (tag % 8) (tag / 8 % 2) tag (leBytes 1 code)
        ∧ (0x10 < r.op → code = 1) ∧ (code ≠ 0 → t.cmd = s.cmd)
        ∧ (code = 0 → ∃ h, t.cmd.held = s.cmd.held ++ [h] ∧ h.least = s.twin.fclk0 + 2 ∧ (r.op = 1 →
            h.change = .words [(0x24_0000 + 64 * (s.slotCmd r).obj, 0x0000_FFFF, w32 (r.arg 0))]))
        ∧ keepsRegs s t (linkRegs (112 + i) ++ ringTx) ∧ t.dram = s.dram)
    ∧ (∀ r : CmdRec, s.standby = false → s.cas.forwarded = [] → CmdRec.ofBytes r.bytes = r →
        ringArrives s i 6 tag r.bytes b → 1 ≤ r.op → r.op ≤ 5 → s.heldCommands = 1024 → (∀ h ∈ s.cmd.held, h.seq < s.cmd.nextSeq) →
        ∃ t, exec (.cmdFwd i b) s = .next t ∧ t.cmd = s.cmd
        ∧ (t.cas.forwarded = [(tag, r)] ∨ ∃ code, code ≠ 0 ∧ ringSent s t 7 (tag % 8) (tag / 8 % 2) tag (leBytes 1 code))
        ∧ keepsRegs s t (linkRegs (112 + i) ++ ringTx) ∧ t.dram = s.dram)
    ∧ (∀ r : CmdRec, s.standby = false → s.cas.forwarded ≠ [] → CmdRec.ofBytes r.bytes = r →
        ringArrives s i 6 tag r.bytes b → ∃ t, exec (.cmdFwd i b) s = .next t
        ∧ t.cas.forwarded = s.cas.forwarded ++ [(tag, r)] ∧ t.cmd = s.cmd
        ∧ keepsRegs s t (linkRegs (112 + i)) ∧ t.dram = s.dram)
    ∧ (∀ q r, q < 16 → (s.queue q).wait = .forward tag r →
        (∀ k, k < 16 → k ≠ q → ∀ x, (s.queue k).wait ≠ .forward tag x) →
        (s.qState q = 2 → s.qRun q = true → (s.queue q).ringFull = false →
          ringArrives s i 7 tag (leBytes 1 0) b → ∃ t h, exec (.cmdAns i b) s = .next t ∧ t.qState q = 1
          ∧ (t.queue q).wait = .none ∧ t.qHead q = s.qHead q
          ∧ t.cmd.held = s.cmd.held ++ [h] ∧ h.change = .remote ∧ h.clock = 0 ∧ h.least = s.twin.fclk0 + 2
          ∧ h.origin = .queue q (s.queue q).waitIndex r.op r.tag r.obj (r.flags.testBit 0)
          ∧ keepsRegs s t (Reg.CMD_Q_STATUS q :: linkRegs (112 + i)) ∧ t.dram = s.dram)
        ∧ (∀ code, code ≠ 0 → code < 256 → ringTakes s q → ringArrives s i 7 tag (leBytes 1 code) b →
          ∃ t, exec (.cmdAns i b) s = .next t ∧ (t.queue q).wait = .none ∧ t.qHead q = s.qHead q ∧ raised s t .cmdRefused
          ∧ evWritten s t q { evOf s q r 1 code 0 with index := (s.queue q).waitIndex }
          ∧ keepsRegs s t ([Reg.CMD_Q_STATUS q, Reg.CMD_EV_PTR q] ++ flagRegs .cmdRefused ++ linkRegs (112 + i))))
    ∧ (∀ q k r, q < 16 → (s.queue q).wait = .forward k r → ringTakes s q → ∃ t, exec (.cmdFwdTimeout q) s = .next t
        ∧ (t.queue q).wait = .none ∧ t.qHead q = s.qHead q ∧ raised s t .cmdRefused
        ∧ evWritten s t q { evOf s q r 1 7 0 with index := (s.queue q).waitIndex }
        ∧ keepsRegs s t ([Reg.CMD_Q_STATUS q, Reg.CMD_EV_PTR q] ++ flagRegs .cmdRefused))

/-- R531, R533, R534, R539, R302: the relay window's GO, and SURFACE_SEG packets: received, or passed on. That GO answers a
write which R114 or R302 does not relay with ERROR is the model's choice (assumption 60). -/
def Obligations.RelayGoesOutAndSurfacesArrive : Prop :=
  ∀ s : State,
    (∀ p, s.access p = true → s.cas.relay = none → s.bit Reg.CAS_RELAY_STATUS 31 = false → s.ringMaster = true →
        s.memberAlive (s.fld Reg.CAS_RELAY_ADDR 30 28) = true →
        s.bit Reg.CAS_RELAY_ADDR 26 = false ∨ notRelayed (s.fld Reg.CAS_RELAY_ADDR 23 0) (s.reg Reg.CAS_RELAY_DATA) = false →
        ∃ t r, exec (.relayGo p) s = .next t ∧ t.cas.relay = some r ∧ r.tag = s.ringTag
          ∧ r.due = s.uptime + s.relayTimeout * 600000
          ∧ ringSent s t 4 (s.fld Reg.CAS_RELAY_ADDR 30 28) (s.fld Reg.CAS_RELAY_ADDR 27 27) s.ringTag
              (leBytes 1 ((if s.bit Reg.CAS_RELAY_ADDR 26 then 1 else 0) + (if s.xOpen then 2 else 0))
                ++ leBytes 3 (s.fld Reg.CAS_RELAY_ADDR 23 0) ++ leBytes 4 (s.reg Reg.CAS_RELAY_DATA).toNat)
          ∧ t.cas.tag = s.cas.tag + 1 ∧ keepsRegs s t ringTx ∧ t.dram = s.dram)
    ∧ (∀ p, s.access p = true → s.cas.relay = none → s.bit Reg.CAS_RELAY_STATUS 31 = false → s.ringMaster = true →
        s.memberAlive (s.fld Reg.CAS_RELAY_ADDR 30 28) = true → s.bit Reg.CAS_RELAY_ADDR 26 = true →
        notRelayed (s.fld Reg.CAS_RELAY_ADDR 23 0) (s.reg Reg.CAS_RELAY_DATA) = true → ∃ t, exec (.relayGo p) s = .next t ∧ relayed s t 5 0
          ∧ keepsRegs s t [Reg.CAS_RELAY_STATUS, Reg.CAS_RELAY_RESULT] ∧ t.dram = s.dram)
    ∧ (∀ p, s.access p = true → s.cas.relay ≠ none ∨ s.bit Reg.CAS_RELAY_STATUS 31 = true →
        ∃ t, exec (.relayGo p) s = .next t ∧ t.bit Reg.CAS_RELAY_CTRL 30 = true ∧ t.cas = s.cas
          ∧ keepsRegs s t [Reg.CAS_RELAY_CTRL] ∧ t.dram = s.dram)
    ∧ (∀ p, s.access p = true → s.cas.relay = none → s.bit Reg.CAS_RELAY_STATUS 31 = false → s.ringMaster = false →
        ∃ t, exec (.relayGo p) s = .next t ∧ relayed s t 1 0
          ∧ keepsRegs s t [Reg.CAS_RELAY_STATUS, Reg.CAS_RELAY_RESULT] ∧ t.dram = s.dram)
    ∧ (∀ p, s.access p = true → s.cas.relay = none → s.bit Reg.CAS_RELAY_STATUS 31 = false → s.ringMaster = true →
        s.memberAlive (s.fld Reg.CAS_RELAY_ADDR 30 28) = false → ∃ t, exec (.relayGo p) s = .next t ∧ relayed s t 2 0
          ∧ keepsRegs s t [Reg.CAS_RELAY_STATUS, Reg.CAS_RELAY_RESULT] ∧ t.dram = s.dram)
    ∧ (∀ i pl b x, segArrives s i pl b x → leAt pl 0 1 = 0 → s.copy x.strm (leAt pl 1 1 / 8 % 2) = none →
        ∃ t c, exec (.surfaceSegRx i b) s = .next t
          ∧ t.copy x.strm (leAt pl 1 1 / 8 % 2) = some c ∧ c.inc.alive = leAt pl 6 2 ∧ c.inc.w = leAt pl 18 2
          ∧ c.inc.h = leAt pl 20 2 ∧ c.inc.fmt = leAt pl 22 1 ∧ c.inc.cap = w32 (leAt pl 24 4) ∧ c.count = 0
          ∧ c.onAir = (leAt pl 1 1).testBit 4 ∧ c.port = i ∧ c.done = false
          ∧ t.streams = s.streams ∧ keepsRegs s t (linkRegs (112 + i)) ∧ t.dram = s.dram)
    ∧ (∀ i pl b x c, segArrives s i pl b x → leAt pl 0 1 = 1 → s.copy x.strm (leAt pl 1 1 / 8 % 2) = some c → c.done = false →
        ∃ t, exec (.surfaceSegRx i b) s = .next t
          ∧ t.copy x.strm (leAt pl 1 1 / 8 % 2) = some (c.data (Segment.ofBytes pl))
          ∧ t.streams = s.streams ∧ keepsRegs s t (linkRegs (112 + i)) ∧ t.dram = s.dram)
    ∧ (∀ i pl b x c, segArrives s i pl b x → leAt pl 0 1 = 2 → s.copy x.strm (leAt pl 1 1 / 8 % 2) = some c → c.done = false →
        c.port < 4 → c.whole (Segment.ofBytes pl) = false →
        c.onAir = false ∨ s.copy x.strm (1 - leAt pl 1 1 / 8 % 2) = none → ∃ t, exec (.surfaceSegRx i b) s = .next t
          ∧ t.copy x.strm (leAt pl 1 1 / 8 % 2) = none
          ∧ t.fld (Reg.CAS_DROP c.port) 15 0 = min (s.fld (Reg.CAS_DROP c.port) 15 0 + 1) 65535
          ∧ t.streams = s.streams ∧ keepsRegs s t (Reg.CAS_DROP c.port :: linkRegs (112 + i)) ∧ t.dram = s.dram)
    ∧ (∀ i pl b x c w, segArrives s i pl b x → leAt pl 0 1 = 2 → s.copy x.strm (leAt pl 1 1 / 8 % 2) = some c →
        c.done = false → c.onAir = true → c.whole (Segment.ofBytes pl) = true → s.hasTaken x.strm c.inc.alive = false →
        (s.stream x.strm).kind = 4 → (s.stream x.strm).held = false → (s.stream x.strm).mode ≠ 0 →
        (s.stream x.strm).freeBuffer = some w → ∃ t, exec (.surfaceSegRx i b) s = .next t
          ∧ t.copy x.strm (leAt pl 1 1 / 8 % 2) = none ∧ t.hasTaken x.strm c.inc.alive = true
          ∧ (t.stream x.strm).complete = some w ∧ (t.stream x.strm).frames = ((s.stream x.strm).frames + 1) % 2 ^ 32)
    ∧ (∀ i pl b x c, segArrives s i pl b x → leAt pl 0 1 = 2 → s.copy x.strm (leAt pl 1 1 / 8 % 2) = some c →
        c.done = false → c.onAir = false → c.whole (Segment.ofBytes pl) = true → s.hasTaken x.strm c.inc.alive = false →
        s.awaitsOnAir x.strm (leAt pl 1 1 / 8 % 2) c = true → ∃ t, exec (.surfaceSegRx i b) s = .next t
          ∧ t.copy x.strm (leAt pl 1 1 / 8 % 2) = some { c with done := true }
          ∧ t.streams = s.streams ∧ keepsRegs s t (linkRegs (112 + i)) ∧ t.dram = s.dram)
    ∧ (∀ i pl b, i < 4 → i < 2 ∨ s.casLive (i - 2) = false → s.inRing = true → 16 ≤ pl.length →
        arrives s (112 + i) 0x31 0 pl b → leAt pl 2 1 ≠ s.cascadeId → ∃ t, exec (.surfaceSegRx i b) s = .next t
        ∧ (∀ q ∈ dirPorts (1 - i % 2), s.txOn q = true → ∃ seq, Emit.packet q (packetBytes 0x31 0 0 seq pl) ∈ t.out)
        ∧ t.cas = s.cas ∧ t.streams = s.streams ∧ keepsRegs s t (linkRegs (112 + i) ++ ringTx) ∧ t.dram = s.dram)

/-! ### Steps -/

/-- A step takes the command at the front of the queue and runs it on the queue's rest. -/
def Obligations.StepRunsTheFrontCommand : Prop :=
  ∀ (s : State) (c : Instr) (rest : List Instr), s.pending = c :: rest → step s = exec c { s with pending := rest }

/-- R250: a step on an empty queue lets one CLK_F cycle pass (assumption 7, the model's choice): device time advances by
TIM.ADDEND. In every 40th the J-Link transmitters send a block as well (assumption 55), and a running migration may copy
the next MiB of its rank, never the last, which MIGRATION_DONE ends (R298; when it does, assumption 60). -/
def Obligations.IdleStepAdvancesDeviceTime : Prop :=
  ∀ s : State, s.pending = [] → s.tim.running = true → s.boot.stopped = false → s.active = false →
    (∀ i, i < 4 → s.casUp i = false ∧ (s.aligned (112 + i) && (s.cas.direct.getD i none).isSome) = false) → (s.uptime + 1) % 40 ≠ 0 → ∃ t, step s = .next t ∧ t.uptime = s.uptime + 1
      ∧ t.tim.acc = s.tim.acc
          + BitVec.ofNat 72 (s.fld Reg.TIM_ADDEND_HI 15 0 * 2 ^ 32 + (s.reg Reg.TIM_ADDEND_LO).toNat)
      ∧ t.dram = s.dram ∧ t.out = s.out ∧ (s.bit Reg.MEM_MIGRATE 31 = false → t.regs = s.regs ∧ t.mem = s.mem)
      ∧ (s.bit Reg.MEM_MIGRATE 31 = true → t.bit Reg.MEM_MIGRATE 31 = true
          ∧ (t.fld Reg.MEM_MIGRATE 17 0 = s.fld Reg.MEM_MIGRATE 17 0 ∧ t.regs = s.regs ∧ t.mem = s.mem
            ∨ t.fld Reg.MEM_MIGRATE 17 0 = s.fld Reg.MEM_MIGRATE 17 0 + 1
              ∧ s.fld Reg.MEM_MIGRATE 17 0 + 1 < s.rankMib ∧ ∀ i, t.rankState i = s.rankState i))

/-! ### Rules stated word for word -/

/-- R137: a record whose SEQ differs from its index mod 256 is not executed, whatever command it holds: its queue enters
HALTED with RING_SEQ, HEAD stays, RUN reads 0 (the model's choice, assumption 22), and of the queues, of what waits for commit points and of DRAM only the HALTED record
in the event ring changes. -/
def Obligations.StaleRecordHaltsItsQueue : Prop :=
  ∀ (s : State) (q : Nat) (b : List Byte), q < 16 → s.ready = true → s.qState q = 1 → s.qHead q ≠ s.qTail q →
    s.dramFetch (ringSlot (s.reg (Reg.CMD_Q_RING q)) (s.qHead q)) 32 = some b →
    (CmdRec.ofBytes b).seq ≠ s.qHead q % 256 → ringTakes s q →
    ∀ c ∈ [Instr.cmdNop q, .setSource q, .setGeometry q, .setBlend q, .setGuard q, .setFreeze q, .flip q, .dma q,
        .fenceSignalAccept q, .fenceSignalCommit q, .fenceWait q, .waitCommit q, .cmdRegWrite q, .tableWrite q,
        .touchZone q, .decCtrlStop q, .decCtrlStart q, .decCtrlDiscard q, .encCtrlStop q, .encCtrlStart q,
        .encCtrlIrap q, .mark q, .cmdBadOp q],
      ∃ t, exec c s = .next t ∧ t.qState q = 3 ∧ t.fld (Reg.CMD_Q_STATUS q) 23 16 = 0x0D ∧ t.qHead q = s.qHead q
        ∧ t.qRun q = false ∧ evWritten s t q (evOf s q (CmdRec.ofBytes b) 5 0x0D 0)
        ∧ t.cmd.held = s.cmd.held ∧ t.cmd.fences = s.cmd.fences ∧ t.cmd.dmas = s.cmd.dmas ∧ t.streams = s.streams
        ∧ keepsRegs s t [Reg.CMD_Q_STATUS q, Reg.CMD_Q_CTRL q, Reg.CMD_EV_PTR q]

/-- R113, R111: an X request of the mailbox without X access is answered X_REQUIRED, sets X_REFUSED and leaves the port
and the opcode in SYS.X_REFUSED_ADDR; nothing else changes. -/
def Obligations.XRequestsNeedXAccess : Prop :=
  ∀ (s : State) (p : Port), s.access p = true → mboxOpen s → s.xOpen = false →
    ∀ e ∈ [(Instr.keyProvision p, 5), (.keyRevoke p, 6), (.genFloorSet p, 8), (.patchInstall p, 9), (.patchRemove p, 10)],
      ∃ t, exec e.1 s = .next t ∧ mboxAnswered s t e.2 3 []
        ∧ t.reg Reg.SYS_X_REFUSED_ADDR = w32 (2 ^ 31 + portCode p * 2 ^ 28 + e.2) ∧ raised s t .xRefused
        ∧ keepsRegs s t (Reg.SYS_X_REFUSED_ADDR :: flagRegs .xRefused ++ mboxRegs)
        ∧ t.mram = s.mram ∧ t.dram = s.dram ∧ t.ld = s.ld

/-- R66: the loader writes none of the boot copies as it checks an image, loads at start-up or starts a structure at a
commit point; a copy-write request that completes puts its image at the start of the copy it names. -/
def Obligations.LoaderNeverWritesBootCopies : Prop :=
  ∀ s : State,
    (∀ k, ∀ c ∈ [Instr.imageCheck, .bootLoad, .commitPoint k], ∃ t, exec c s = .next t
        ∧ ∀ n, n < 3 → t.bootCopy n = s.bootCopy n)
    ∧ (∀ a b, s.svpUp = true → s.svp.req = some { op := 3, args := a } → (a.getD 3 0).toNat < 3 →
        s.dramFetch (mboxAddr a) (mboxLen a) = some b → (s.integrity b true).code = 0 →
        ∃ t, exec (.mboxReply true) s = .next t ∧ mboxAnswered s t 3 0 [0]
        ∧ t.bootCopy (a.getD 3 0).toNat = b ++ (s.bootCopy (a.getD 3 0).toNat).drop b.length
        ∧ (∀ n, n < 3 → n ≠ (a.getD 3 0).toNat → t.bootCopy n = s.bootCopy n)
        ∧ (portsQuiet s → keepsRegs s t mboxRegs ∧ t.dram = s.dram))
end

