-- ==== Sys2Proof/Laws/Cells.lean ====
section
/-!
SUPPORT. Laws/Cells.lean: reading after writing a sparse array, and its canonical form kept by a write.
-/
namespace Sys2Proof.Machine

variable {α : Type}

theorem Cells.get_drop_ne (d : Nat → α) (m : Cells α) (k j : Nat) (h : j ≠ k) :
    Cells.get d (Cells.drop k m) j = Cells.get d m j := by
  induction m with
  | nil => rfl
  | cons e t ih =>
    obtain ⟨k', v⟩ := e
    by_cases hk : k' = k
    · have hj : ¬ k' = j := fun e => h (by omega)
      simp [Cells.drop, Cells.get, hk, ih]
      intro e; exact absurd e.symm h
    · simp [Cells.drop, Cells.get, hk, ih]

theorem Cells.get_drop_same (d : Nat → α) (m : Cells α) (k : Nat) :
    Cells.get d (Cells.drop k m) k = d k := by
  induction m with
  | nil => rfl
  | cons e t ih =>
    obtain ⟨k', v⟩ := e
    by_cases hk : k' = k <;> simp [Cells.drop, Cells.get, hk, ih]

theorem Cells.get_insert_ne (d : Nat → α) (m : Cells α) (k j : Nat) (v : α) (h : j ≠ k) :
    Cells.get d (Cells.insert k v m) j = Cells.get d m j := by
  have hk : ¬ k = j := fun e => h e.symm
  induction m with
  | nil => simp [Cells.insert, Cells.get, hk]
  | cons e t ih =>
    obtain ⟨k', v'⟩ := e
    by_cases hl : k < k'
    · simp [Cells.insert, Cells.get, hl, hk]
    · simp [Cells.insert, Cells.get, hl, ih]

theorem Cells.get_insert_drop (d : Nat → α) (m : Cells α) (k : Nat) (v : α) :
    Cells.get d (Cells.insert k v (Cells.drop k m)) k = v := by
  induction m with
  | nil => simp [Cells.drop, Cells.insert, Cells.get]
  | cons e t ih =>
    obtain ⟨k', v'⟩ := e
    by_cases hk : k' = k
    · simp [Cells.drop, hk, ih]
    · by_cases hl : k < k'
      · simp [Cells.drop, Cells.insert, Cells.get, hk, hl]
      · simp [Cells.drop, Cells.insert, Cells.get, hk, hl, ih]

/-- Reading after a write: the written number reads the value, every other number reads as before. -/
@[simp] theorem Cells.get_put [DecidableEq α] (d : Nat → α) (m : Cells α) (k j : Nat) (v : α) :
    Cells.get d (Cells.put d m k v) j = if j = k then v else Cells.get d m j := by
  unfold Cells.put
  by_cases hv : v = d k
  · by_cases hj : j = k
    · subst hj; simp [hv, Cells.get_drop_same]
    · simp [hv, hj, Cells.get_drop_ne]
  · by_cases hj : j = k
    · subst hj; simp [hv, Cells.get_insert_drop]
    · simp [hv, hj, Cells.get_drop_ne, Cells.get_insert_ne]

@[simp] theorem Cells.get_nil (d : Nat → α) (k : Nat) : Cells.get d [] k = d k := rfl

theorem Cells.above_mono (m : Cells α) (a b : Nat) (hab : a ≤ b) (h : Cells.above b m = true) :
    Cells.above a m = true := by
  cases m with
  | nil => rfl
  | cons e t => simp [Cells.above] at h ⊢; exact ⟨by omega, h.2⟩

theorem Cells.above_drop (m : Cells α) (k b : Nat) (h : Cells.above b m = true) :
    Cells.above b (Cells.drop k m) = true := by
  induction m generalizing b with
  | nil => rfl
  | cons e t ih =>
    simp [Cells.above] at h
    by_cases hk : e.1 = k
    · simp [Cells.drop, hk]; exact ih b (Cells.above_mono t _ _ (by omega) h.2)
    · simp [Cells.drop, hk, Cells.above]; exact ⟨h.1, ih _ h.2⟩

theorem Cells.above_insert (m : Cells α) (k b : Nat) (v : α) (hb : b < k) (h : Cells.above b m = true)
    (hn : m.all (fun e => decide (e.1 ≠ k)) = true) : Cells.above b (Cells.insert k v m) = true := by
  induction m generalizing b with
  | nil => simp [Cells.insert, Cells.above, hb]
  | cons e t ih =>
    simp [Cells.above] at h
    simp at hn
    by_cases hl : k < e.1
    · simp [Cells.insert, hl, Cells.above, hb, h.2]
    · simp [Cells.insert, hl, Cells.above, h.1]
      exact ih e.1 (by omega) h.2 (by simpa using hn.2)

theorem Cells.drop_not_mem (m : Cells α) (k : Nat) :
    (Cells.drop k m).all (fun e => decide (e.1 ≠ k)) = true := by
  induction m with
  | nil => rfl
  | cons e t ih => by_cases hk : e.1 = k <;> simp [Cells.drop, hk] <;> simpa using ih

theorem Cells.all_drop (m : Cells α) (k : Nat) (p : Nat × α → Bool) (h : m.all p = true) :
    (Cells.drop k m).all p = true := by
  induction m with
  | nil => rfl
  | cons e t ih =>
    simp only [List.all_cons, Bool.and_eq_true] at h
    by_cases hk : e.1 = k
    · simp only [Cells.drop, hk, if_true]; exact ih h.2
    · simp only [Cells.drop, hk, if_false, List.all_cons, Bool.and_eq_true]; exact ⟨h.1, ih h.2⟩

theorem Cells.all_insert (m : Cells α) (k : Nat) (v : α) (p : Nat × α → Bool) (hp : p (k, v) = true)
    (h : m.all p = true) : (Cells.insert k v m).all p = true := by
  induction m with
  | nil => simpa [Cells.insert] using hp
  | cons e t ih =>
    have h' := h
    simp only [List.all_cons, Bool.and_eq_true] at h
    by_cases hl : k < e.1
    · simp only [Cells.insert, hl, if_true, List.all_cons, Bool.and_eq_true]; exact ⟨hp, h.1, h.2⟩
    · simp only [Cells.insert, hl, if_false, List.all_cons, Bool.and_eq_true]; exact ⟨h.1, ih h.2⟩

theorem Cells.sorted_of_above (m : Cells α) (b : Nat) (h : Cells.above b m = true) : Cells.sorted m = true := by
  cases m with
  | nil => rfl
  | cons e t => simp [Cells.above] at h; simpa [Cells.sorted] using h.2

theorem Cells.sorted_drop (m : Cells α) (k : Nat) (h : Cells.sorted m = true) :
    Cells.sorted (Cells.drop k m) = true := by
  cases m with
  | nil => rfl
  | cons e t =>
    have ht : Cells.above e.1 t = true := h
    by_cases hk : e.1 = k
    · simp only [Cells.drop, hk, if_true]
      exact Cells.sorted_of_above _ e.1 (Cells.above_drop t k e.1 ht)
    · simp only [Cells.drop, hk, if_false]; exact Cells.above_drop t k e.1 ht

theorem Cells.sorted_insert (m : Cells α) (k : Nat) (v : α) (h : Cells.sorted m = true)
    (hn : m.all (fun e => decide (e.1 ≠ k)) = true) : Cells.sorted (Cells.insert k v m) = true := by
  cases m with
  | nil => rfl
  | cons e t =>
    have ht : Cells.above e.1 t = true := h
    simp at hn
    by_cases hl : k < e.1
    · simp [Cells.insert, hl, Cells.sorted, Cells.above, ht]
    · simp only [Cells.insert, hl, if_false]
      exact Cells.above_insert t k e.1 v (by omega) ht (by simpa using hn.2)

/-- A write keeps the canonical form. -/
theorem Cells.wf_put [DecidableEq α] (d : Nat → α) (m : Cells α) (k : Nat) (v : α) (h : Cells.wf d m = true) :
    Cells.wf d (Cells.put d m k v) = true := by
  simp only [Cells.wf, Bool.and_eq_true] at *
  unfold Cells.put
  by_cases hv : v = d k
  · simp only [hv, if_true]
    exact ⟨Cells.sorted_drop m k h.1, Cells.all_drop m k _ h.2⟩
  · simp only [hv, if_false]
    exact ⟨Cells.sorted_insert _ k v (Cells.sorted_drop m k h.1) (Cells.drop_not_mem m k),
      Cells.all_insert _ k v _ (by simp [hv]) (Cells.all_drop m k _ h.2)⟩

theorem Cells.wf_nil [DecidableEq α] (d : Nat → α) : Cells.wf d ([] : Cells α) = true := rfl

end Sys2Proof.Machine
end

