-- ==== Sys2Proof/Laws/Dram.lean ====
section
/-!
SUPPORT. Laws/Dram.lean: every operation on external DRAM keeps the canonical form of its byte list, and the machine at
power-on has it.
-/
namespace Sys2Proof.Machine

/-- The bytes of DRAM stand in canonical form: addresses strictly rising, none listed with what an unlisted byte reads. -/
abbrev Memory.wf (m : List Host.Cell) : Bool := Cells.wf (fun _ => (0 : Byte)) m

theorem Memory.wf_reset : Memory.wf State.reset.dram = true := by decide

theorem State.setDramByte_wf (s : State) (a : Nat) (b : Byte) (h : Memory.wf s.dram = true) :
    Memory.wf (s.setDramByte a b).dram = true := Cells.wf_put _ s.dram a b h

theorem dramPut_wf (l : List Byte) : ∀ (m : List Host.Cell) (a : Nat), Memory.wf m = true → Memory.wf (dramPut m a l) = true := by
  induction l with
  | nil => exact fun _ _ h => h
  | cons b t ih => exact fun m a h => ih _ _ (Cells.wf_put _ m a b h)

theorem State.dramWrite_wf (s : State) (a : Nat) (l : List Byte) (h : Memory.wf s.dram = true) :
    Memory.wf (s.dramWrite a l).dram = true := dramPut_wf l s.dram a h

theorem State.setDramWord_wf (s : State) (a : Nat) (v : Word) (h : Memory.wf s.dram = true) :
    Memory.wf (s.setDramWord a v).dram = true := s.dramWrite_wf a _ h

@[simp] theorem State.freshen_dram (s : State) (a b : Nat) : (s.freshen a b).dram = s.dram := by
  unfold State.freshen
  split <;> rfl

@[simp] theorem State.settleBytes_dram (s : State) (a b : Nat) : (s.settleBytes a b).dram = s.dram := by
  unfold State.settleBytes
  split <;> rfl

theorem State.setDramByteIf_wf (c : Prop) [Decidable c] (s : State) (a : Nat) (b : Byte) (h : Memory.wf s.dram = true) :
    Memory.wf (if c then s.setDramByte a b else s).dram = true := by
  by_cases hc : c
  · rw [if_pos hc]; exact s.setDramByte_wf a b h
  · rw [if_neg hc]; exact h

/-- Bytes written where DRAM takes them, one at a time. -/
theorem State.dramTaken_wf (u : State) (a : Nat) (l : List Byte) (ks : List Nat) (s : State) (h : Memory.wf s.dram = true) :
    Memory.wf (ks.foldl (fun t k => if u.dramTakes (a + k) then t.setDramByte (a + k) (l.getD k 0) else t) s).dram = true := by
  induction ks generalizing s with
  | nil => exact h
  | cons k t ih =>
    rw [List.foldl_cons]
    exact ih _ (s.setDramByteIf_wf (u.dramTakes (a + k) = true) (a + k) (l.getD k 0) h)

theorem State.storeNow_wf (s : State) (a : Nat) (l : List Byte) (h : Memory.wf s.dram = true) :
    Memory.wf (s.storeNow a l).dram = true := by
  unfold State.storeNow
  split
  · exact h
  · simp only [State.settleBytes_dram, State.freshen_dram]
    split
    · exact s.dramWrite_wf a l h
    · exact State.dramTaken_wf s a l (List.range l.length) s h

/-! ### The requests that an access comes behind (R279), and the ranks that it wakes (R287) -/

theorem State.settleList_wf (a b : Nat) (l : List MemReq) :
    ∀ s : State, Memory.wf s.dram = true → Memory.wf (s.settleList a b l).1.dram = true := by
  induction l with
  | nil => exact fun _ h => h
  | cons r t ih =>
    intro s h
    simp only [State.settleList]
    refine ih _ ?_
    split
    · exact h
    · split
      · exact s.storeNow_wf r.addr r.data h
      · exact h

theorem State.settleChannel_wf (a b : Nat) (s : State) (c : Nat) (h : Memory.wf s.dram = true) :
    Memory.wf (s.settleChannel a b c).dram = true :=
  State.settleList_wf a b _ _ (State.settleList_wf a b _ s h)

theorem State.settleReqs_wf (s : State) (a b : Nat) (h : Memory.wf s.dram = true) :
    Memory.wf (s.settleReqs a b).dram = true := by
  unfold State.settleReqs
  split
  · exact h
  · exact State.settleChannel_wf a b _ 3 (State.settleChannel_wf a b _ 2 (State.settleChannel_wf a b _ 1
      (State.settleChannel_wf a b s 0 h)))

@[simp] theorem State.wakeRank_dram (s : State) (i : Nat) : (s.wakeRank i).dram = s.dram := by
  unfold State.wakeRank
  split <;> rfl

theorem State.wakeRange_dram (s : State) (a b : Nat) : (s.wakeRange a b).dram = s.dram := by
  unfold State.wakeRange
  split
  · rfl
  · generalize List.range (cdiv b 128 - a / 128) = ks
    suffices h : ∀ t : State, t.dram = s.dram → (ks.foldl (fun t k =>
        match t.dramHome (128 * (a / 128 + k)) with
        | some (_, i) => t.wakeRank (t.servingRank (128 * (a / 128 + k)) i)
        | none => t) t).dram = s.dram from h s rfl
    induction ks with
    | nil => exact fun _ h => h
    | cons k ks ih =>
      intro t h
      rw [List.foldl_cons]
      refine ih _ ?_
      split
      · rw [State.wakeRank_dram, h]
      · exact h

theorem State.dramStore_wf (s : State) (a : Nat) (l : List Byte) (h : Memory.wf s.dram = true) :
    Memory.wf (s.dramStore a l).dram = true := by
  unfold State.dramStore
  split
  · exact h
  · exact State.storeNow_wf _ a l (State.settleReqs_wf _ a _ (by rw [State.wakeRange_dram]; exact h))

/-! ### Accesses while nothing waits at the memory ports and no rank sleeps -/

theorem State.settleReqs_idle (s : State) (a b : Nat) (hp : s.mem.pool = []) (hw : s.mem.waiting = []) :
    s.settleReqs a b = s := by
  simp [State.settleReqs, hp, hw]

theorem State.wakeRange_awake (s : State) (a b : Nat) (h : ∀ i, i < 16 → s.rankState i ≠ 2) : s.wakeRange a b = s := by
  unfold State.wakeRange
  rw [if_pos]
  simp only [List.all_eq_true, bne_iff_ne, List.mem_range]
  exact h

theorem State.dramStore_idle (s : State) (a : Nat) (l : List Byte) (hp : s.mem.pool = []) (hw : s.mem.waiting = [])
    (h : ∀ i, i < 16 → s.rankState i ≠ 2) : s.dramStore a l = s.storeNow a l := by
  unfold State.dramStore
  rw [s.wakeRange_awake a _ h, s.settleReqs_idle a _ hp hw]
  split
  · next he => rw [State.storeNow, if_pos he]
  · rfl

theorem State.dramFetch_idle (s : State) (a n : Nat) (hp : s.mem.pool = []) (hw : s.mem.waiting = []) :
    s.dramFetch a n = s.fetchNow a n := by
  rw [State.dramFetch, s.settleReqs_idle a _ hp hw]

end Sys2Proof.Machine
end

