-- ==== Sys2Proof/Laws/State.lean ====
section
/-!
SUPPORT. Laws/State.lean: what each basic update leaves as it was, one lemma for each other field.
-/
namespace Sys2Proof.Machine

@[simp] theorem State.setReg_pending (s : State) (k : Nat) (v : Word) : (s.setReg k v).pending = s.pending := rfl
@[simp] theorem State.setReg_pairs (s : State) (k : Nat) (v : Word) : (s.setReg k v).pairs = s.pairs := rfl
@[simp] theorem State.setReg_alarmCond (s : State) (k : Nat) (v : Word) : (s.setReg k v).alarmCond = s.alarmCond := rfl
@[simp] theorem State.setReg_dram (s : State) (k : Nat) (v : Word) : (s.setReg k v).dram = s.dram := rfl
@[simp] theorem State.setReg_mram (s : State) (k : Nat) (v : Word) : (s.setReg k v).mram = s.mram := rfl
@[simp] theorem State.setReg_flashA (s : State) (k : Nat) (v : Word) : (s.setReg k v).flashA = s.flashA := rfl
@[simp] theorem State.setReg_flashB (s : State) (k : Nat) (v : Word) : (s.setReg k v).flashB = s.flashB := rfl
@[simp] theorem State.setReg_out (s : State) (k : Nat) (v : Word) : (s.setReg k v).out = s.out := rfl
@[simp] theorem State.setReg_free (s : State) (k : Nat) (v : Word) : (s.setReg k v).free = s.free := rfl
@[simp] theorem State.setReg_uptime (s : State) (k : Nat) (v : Word) : (s.setReg k v).uptime = s.uptime := rfl
@[simp] theorem State.setReg_ticks (s : State) (k : Nat) (v : Word) : (s.setReg k v).ticks = s.ticks := rfl
@[simp] theorem State.setReg_host (s : State) (k : Nat) (v : Word) : (s.setReg k v).host = s.host := rfl
@[simp] theorem State.setReg_svp (s : State) (k : Nat) (v : Word) : (s.setReg k v).svp = s.svp := rfl
@[simp] theorem State.setReg_ld (s : State) (k : Nat) (v : Word) : (s.setReg k v).ld = s.ld := rfl
@[simp] theorem State.setReg_stm (s : State) (k : Nat) (v : Word) : (s.setReg k v).stm = s.stm := rfl
@[simp] theorem State.setReg_cmd (s : State) (k : Nat) (v : Word) : (s.setReg k v).cmd = s.cmd := rfl
@[simp] theorem State.setReg_boot (s : State) (k : Nat) (v : Word) : (s.setReg k v).boot = s.boot := rfl
@[simp] theorem State.setReg_tim (s : State) (k : Nat) (v : Word) : (s.setReg k v).tim = s.tim := rfl
@[simp] theorem State.setReg_streams (s : State) (k : Nat) (v : Word) : (s.setReg k v).streams = s.streams := rfl
@[simp] theorem State.setReg_links (s : State) (k : Nat) (v : Word) : (s.setReg k v).links = s.links := rfl
@[simp] theorem State.setReg_txSeq (s : State) (k : Nat) (v : Word) : (s.setReg k v).txSeq = s.txSeq := rfl
@[simp] theorem State.setReg_tx (s : State) (k : Nat) (v : Word) : (s.setReg k v).tx = s.tx := rfl
@[simp] theorem State.setReg_nodes (s : State) (k : Nat) (v : Word) : (s.setReg k v).nodes = s.nodes := rfl
@[simp] theorem State.setReg_layers (s : State) (k : Nat) (v : Word) : (s.setReg k v).layers = s.layers := rfl
@[simp] theorem State.setReg_outputs (s : State) (k : Nat) (v : Word) : (s.setReg k v).outputs = s.outputs := rfl
@[simp] theorem State.setReg_chk (s : State) (k : Nat) (v : Word) : (s.setReg k v).chk = s.chk := rfl
@[simp] theorem State.setReg_blk (s : State) (k : Nat) (v : Word) : (s.setReg k v).blk = s.blk := rfl
@[simp] theorem State.setReg_pre (s : State) (k : Nat) (v : Word) : (s.setReg k v).pre = s.pre := rfl
@[simp] theorem State.setReg_enc (s : State) (k : Nat) (v : Word) : (s.setReg k v).enc = s.enc := rfl
@[simp] theorem State.setReg_mem (s : State) (k : Nat) (v : Word) : (s.setReg k v).mem = s.mem := rfl
@[simp] theorem State.setReg_net (s : State) (k : Nat) (v : Word) : (s.setReg k v).net = s.net := rfl
@[simp] theorem State.setReg_encIrap (s : State) (k : Nat) (v : Word) : (s.setReg k v).encIrap = s.encIrap := rfl
@[simp] theorem State.setReg_touch (s : State) (k : Nat) (v : Word) : (s.setReg k v).touch = s.touch := rfl
@[simp] theorem State.setReg_twin (s : State) (k : Nat) (v : Word) : (s.setReg k v).twin = s.twin := rfl
@[simp] theorem State.setReg_cas (s : State) (k : Nat) (v : Word) : (s.setReg k v).cas = s.cas := rfl

@[simp] theorem State.setFld_pending (s : State) (k hi lo v : Nat) : (s.setFld k hi lo v).pending = s.pending := rfl
@[simp] theorem State.setFld_pairs (s : State) (k hi lo v : Nat) : (s.setFld k hi lo v).pairs = s.pairs := rfl
@[simp] theorem State.setFld_alarmCond (s : State) (k hi lo v : Nat) : (s.setFld k hi lo v).alarmCond = s.alarmCond := rfl
@[simp] theorem State.setFld_dram (s : State) (k hi lo v : Nat) : (s.setFld k hi lo v).dram = s.dram := rfl
@[simp] theorem State.setFld_mram (s : State) (k hi lo v : Nat) : (s.setFld k hi lo v).mram = s.mram := rfl
@[simp] theorem State.setFld_flashA (s : State) (k hi lo v : Nat) : (s.setFld k hi lo v).flashA = s.flashA := rfl
@[simp] theorem State.setFld_flashB (s : State) (k hi lo v : Nat) : (s.setFld k hi lo v).flashB = s.flashB := rfl
@[simp] theorem State.setFld_out (s : State) (k hi lo v : Nat) : (s.setFld k hi lo v).out = s.out := rfl
@[simp] theorem State.setFld_free (s : State) (k hi lo v : Nat) : (s.setFld k hi lo v).free = s.free := rfl
@[simp] theorem State.setFld_uptime (s : State) (k hi lo v : Nat) : (s.setFld k hi lo v).uptime = s.uptime := rfl
@[simp] theorem State.setFld_ticks (s : State) (k hi lo v : Nat) : (s.setFld k hi lo v).ticks = s.ticks := rfl
@[simp] theorem State.setFld_host (s : State) (k hi lo v : Nat) : (s.setFld k hi lo v).host = s.host := rfl
@[simp] theorem State.setFld_svp (s : State) (k hi lo v : Nat) : (s.setFld k hi lo v).svp = s.svp := rfl
@[simp] theorem State.setFld_ld (s : State) (k hi lo v : Nat) : (s.setFld k hi lo v).ld = s.ld := rfl
@[simp] theorem State.setFld_stm (s : State) (k hi lo v : Nat) : (s.setFld k hi lo v).stm = s.stm := rfl
@[simp] theorem State.setFld_cmd (s : State) (k hi lo v : Nat) : (s.setFld k hi lo v).cmd = s.cmd := rfl
@[simp] theorem State.setFld_boot (s : State) (k hi lo v : Nat) : (s.setFld k hi lo v).boot = s.boot := rfl
@[simp] theorem State.setFld_tim (s : State) (k hi lo v : Nat) : (s.setFld k hi lo v).tim = s.tim := rfl
@[simp] theorem State.setFld_streams (s : State) (k hi lo v : Nat) : (s.setFld k hi lo v).streams = s.streams := rfl
@[simp] theorem State.setFld_links (s : State) (k hi lo v : Nat) : (s.setFld k hi lo v).links = s.links := rfl
@[simp] theorem State.setFld_txSeq (s : State) (k hi lo v : Nat) : (s.setFld k hi lo v).txSeq = s.txSeq := rfl
@[simp] theorem State.setFld_tx (s : State) (k hi lo v : Nat) : (s.setFld k hi lo v).tx = s.tx := rfl
@[simp] theorem State.setFld_nodes (s : State) (k hi lo v : Nat) : (s.setFld k hi lo v).nodes = s.nodes := rfl
@[simp] theorem State.setFld_layers (s : State) (k hi lo v : Nat) : (s.setFld k hi lo v).layers = s.layers := rfl
@[simp] theorem State.setFld_outputs (s : State) (k hi lo v : Nat) : (s.setFld k hi lo v).outputs = s.outputs := rfl
@[simp] theorem State.setFld_chk (s : State) (k hi lo v : Nat) : (s.setFld k hi lo v).chk = s.chk := rfl
@[simp] theorem State.setFld_blk (s : State) (k hi lo v : Nat) : (s.setFld k hi lo v).blk = s.blk := rfl
@[simp] theorem State.setFld_pre (s : State) (k hi lo v : Nat) : (s.setFld k hi lo v).pre = s.pre := rfl
@[simp] theorem State.setFld_enc (s : State) (k hi lo v : Nat) : (s.setFld k hi lo v).enc = s.enc := rfl
@[simp] theorem State.setFld_mem (s : State) (k hi lo v : Nat) : (s.setFld k hi lo v).mem = s.mem := rfl
@[simp] theorem State.setFld_net (s : State) (k hi lo v : Nat) : (s.setFld k hi lo v).net = s.net := rfl
@[simp] theorem State.setFld_encIrap (s : State) (k hi lo v : Nat) : (s.setFld k hi lo v).encIrap = s.encIrap := rfl
@[simp] theorem State.setFld_touch (s : State) (k hi lo v : Nat) : (s.setFld k hi lo v).touch = s.touch := rfl
@[simp] theorem State.setFld_twin (s : State) (k hi lo v : Nat) : (s.setFld k hi lo v).twin = s.twin := rfl
@[simp] theorem State.setFld_cas (s : State) (k hi lo v : Nat) : (s.setFld k hi lo v).cas = s.cas := rfl

@[simp] theorem State.setBit_pending (s : State) (k n : Nat) (b : Bool) : (s.setBit k n b).pending = s.pending := rfl
@[simp] theorem State.setBit_pairs (s : State) (k n : Nat) (b : Bool) : (s.setBit k n b).pairs = s.pairs := rfl
@[simp] theorem State.setBit_alarmCond (s : State) (k n : Nat) (b : Bool) : (s.setBit k n b).alarmCond = s.alarmCond := rfl
@[simp] theorem State.setBit_dram (s : State) (k n : Nat) (b : Bool) : (s.setBit k n b).dram = s.dram := rfl
@[simp] theorem State.setBit_mram (s : State) (k n : Nat) (b : Bool) : (s.setBit k n b).mram = s.mram := rfl
@[simp] theorem State.setBit_flashA (s : State) (k n : Nat) (b : Bool) : (s.setBit k n b).flashA = s.flashA := rfl
@[simp] theorem State.setBit_flashB (s : State) (k n : Nat) (b : Bool) : (s.setBit k n b).flashB = s.flashB := rfl
@[simp] theorem State.setBit_out (s : State) (k n : Nat) (b : Bool) : (s.setBit k n b).out = s.out := rfl
@[simp] theorem State.setBit_free (s : State) (k n : Nat) (b : Bool) : (s.setBit k n b).free = s.free := rfl
@[simp] theorem State.setBit_uptime (s : State) (k n : Nat) (b : Bool) : (s.setBit k n b).uptime = s.uptime := rfl
@[simp] theorem State.setBit_ticks (s : State) (k n : Nat) (b : Bool) : (s.setBit k n b).ticks = s.ticks := rfl
@[simp] theorem State.setBit_host (s : State) (k n : Nat) (b : Bool) : (s.setBit k n b).host = s.host := rfl
@[simp] theorem State.setBit_svp (s : State) (k n : Nat) (b : Bool) : (s.setBit k n b).svp = s.svp := rfl
@[simp] theorem State.setBit_ld (s : State) (k n : Nat) (b : Bool) : (s.setBit k n b).ld = s.ld := rfl
@[simp] theorem State.setBit_stm (s : State) (k n : Nat) (b : Bool) : (s.setBit k n b).stm = s.stm := rfl
@[simp] theorem State.setBit_cmd (s : State) (k n : Nat) (b : Bool) : (s.setBit k n b).cmd = s.cmd := rfl
@[simp] theorem State.setBit_boot (s : State) (k n : Nat) (b : Bool) : (s.setBit k n b).boot = s.boot := rfl
@[simp] theorem State.setBit_tim (s : State) (k n : Nat) (b : Bool) : (s.setBit k n b).tim = s.tim := rfl
@[simp] theorem State.setBit_streams (s : State) (k n : Nat) (b : Bool) : (s.setBit k n b).streams = s.streams := rfl
@[simp] theorem State.setBit_links (s : State) (k n : Nat) (b : Bool) : (s.setBit k n b).links = s.links := rfl
@[simp] theorem State.setBit_txSeq (s : State) (k n : Nat) (b : Bool) : (s.setBit k n b).txSeq = s.txSeq := rfl
@[simp] theorem State.setBit_tx (s : State) (k n : Nat) (b : Bool) : (s.setBit k n b).tx = s.tx := rfl
@[simp] theorem State.setBit_nodes (s : State) (k n : Nat) (b : Bool) : (s.setBit k n b).nodes = s.nodes := rfl
@[simp] theorem State.setBit_layers (s : State) (k n : Nat) (b : Bool) : (s.setBit k n b).layers = s.layers := rfl
@[simp] theorem State.setBit_outputs (s : State) (k n : Nat) (b : Bool) : (s.setBit k n b).outputs = s.outputs := rfl
@[simp] theorem State.setBit_chk (s : State) (k n : Nat) (b : Bool) : (s.setBit k n b).chk = s.chk := rfl
@[simp] theorem State.setBit_blk (s : State) (k n : Nat) (b : Bool) : (s.setBit k n b).blk = s.blk := rfl
@[simp] theorem State.setBit_pre (s : State) (k n : Nat) (b : Bool) : (s.setBit k n b).pre = s.pre := rfl
@[simp] theorem State.setBit_enc (s : State) (k n : Nat) (b : Bool) : (s.setBit k n b).enc = s.enc := rfl
@[simp] theorem State.setBit_mem (s : State) (k n : Nat) (b : Bool) : (s.setBit k n b).mem = s.mem := rfl
@[simp] theorem State.setBit_net (s : State) (k n : Nat) (b : Bool) : (s.setBit k n b).net = s.net := rfl
@[simp] theorem State.setBit_encIrap (s : State) (k n : Nat) (b : Bool) : (s.setBit k n b).encIrap = s.encIrap := rfl
@[simp] theorem State.setBit_touch (s : State) (k n : Nat) (b : Bool) : (s.setBit k n b).touch = s.touch := rfl
@[simp] theorem State.setBit_twin (s : State) (k n : Nat) (b : Bool) : (s.setBit k n b).twin = s.twin := rfl
@[simp] theorem State.setBit_cas (s : State) (k n : Nat) (b : Bool) : (s.setBit k n b).cas = s.cas := rfl

@[simp] theorem State.addSat_pending (s : State) (k hi lo n : Nat) : (s.addSat k hi lo n).pending = s.pending := rfl
@[simp] theorem State.addSat_pairs (s : State) (k hi lo n : Nat) : (s.addSat k hi lo n).pairs = s.pairs := rfl
@[simp] theorem State.addSat_alarmCond (s : State) (k hi lo n : Nat) : (s.addSat k hi lo n).alarmCond = s.alarmCond := rfl
@[simp] theorem State.addSat_dram (s : State) (k hi lo n : Nat) : (s.addSat k hi lo n).dram = s.dram := rfl
@[simp] theorem State.addSat_mram (s : State) (k hi lo n : Nat) : (s.addSat k hi lo n).mram = s.mram := rfl
@[simp] theorem State.addSat_flashA (s : State) (k hi lo n : Nat) : (s.addSat k hi lo n).flashA = s.flashA := rfl
@[simp] theorem State.addSat_flashB (s : State) (k hi lo n : Nat) : (s.addSat k hi lo n).flashB = s.flashB := rfl
@[simp] theorem State.addSat_out (s : State) (k hi lo n : Nat) : (s.addSat k hi lo n).out = s.out := rfl
@[simp] theorem State.addSat_free (s : State) (k hi lo n : Nat) : (s.addSat k hi lo n).free = s.free := rfl
@[simp] theorem State.addSat_uptime (s : State) (k hi lo n : Nat) : (s.addSat k hi lo n).uptime = s.uptime := rfl
@[simp] theorem State.addSat_ticks (s : State) (k hi lo n : Nat) : (s.addSat k hi lo n).ticks = s.ticks := rfl
@[simp] theorem State.addSat_host (s : State) (k hi lo n : Nat) : (s.addSat k hi lo n).host = s.host := rfl
@[simp] theorem State.addSat_svp (s : State) (k hi lo n : Nat) : (s.addSat k hi lo n).svp = s.svp := rfl
@[simp] theorem State.addSat_ld (s : State) (k hi lo n : Nat) : (s.addSat k hi lo n).ld = s.ld := rfl
@[simp] theorem State.addSat_stm (s : State) (k hi lo n : Nat) : (s.addSat k hi lo n).stm = s.stm := rfl
@[simp] theorem State.addSat_cmd (s : State) (k hi lo n : Nat) : (s.addSat k hi lo n).cmd = s.cmd := rfl
@[simp] theorem State.addSat_boot (s : State) (k hi lo n : Nat) : (s.addSat k hi lo n).boot = s.boot := rfl
@[simp] theorem State.addSat_tim (s : State) (k hi lo n : Nat) : (s.addSat k hi lo n).tim = s.tim := rfl
@[simp] theorem State.addSat_streams (s : State) (k hi lo n : Nat) : (s.addSat k hi lo n).streams = s.streams := rfl
@[simp] theorem State.addSat_links (s : State) (k hi lo n : Nat) : (s.addSat k hi lo n).links = s.links := rfl
@[simp] theorem State.addSat_txSeq (s : State) (k hi lo n : Nat) : (s.addSat k hi lo n).txSeq = s.txSeq := rfl
@[simp] theorem State.addSat_tx (s : State) (k hi lo n : Nat) : (s.addSat k hi lo n).tx = s.tx := rfl
@[simp] theorem State.addSat_nodes (s : State) (k hi lo n : Nat) : (s.addSat k hi lo n).nodes = s.nodes := rfl
@[simp] theorem State.addSat_layers (s : State) (k hi lo n : Nat) : (s.addSat k hi lo n).layers = s.layers := rfl
@[simp] theorem State.addSat_outputs (s : State) (k hi lo n : Nat) : (s.addSat k hi lo n).outputs = s.outputs := rfl
@[simp] theorem State.addSat_chk (s : State) (k hi lo n : Nat) : (s.addSat k hi lo n).chk = s.chk := rfl
@[simp] theorem State.addSat_blk (s : State) (k hi lo n : Nat) : (s.addSat k hi lo n).blk = s.blk := rfl
@[simp] theorem State.addSat_pre (s : State) (k hi lo n : Nat) : (s.addSat k hi lo n).pre = s.pre := rfl
@[simp] theorem State.addSat_enc (s : State) (k hi lo n : Nat) : (s.addSat k hi lo n).enc = s.enc := rfl
@[simp] theorem State.addSat_mem (s : State) (k hi lo n : Nat) : (s.addSat k hi lo n).mem = s.mem := rfl
@[simp] theorem State.addSat_net (s : State) (k hi lo n : Nat) : (s.addSat k hi lo n).net = s.net := rfl
@[simp] theorem State.addSat_encIrap (s : State) (k hi lo n : Nat) : (s.addSat k hi lo n).encIrap = s.encIrap := rfl
@[simp] theorem State.addSat_touch (s : State) (k hi lo n : Nat) : (s.addSat k hi lo n).touch = s.touch := rfl
@[simp] theorem State.addSat_twin (s : State) (k hi lo n : Nat) : (s.addSat k hi lo n).twin = s.twin := rfl
@[simp] theorem State.addSat_cas (s : State) (k hi lo n : Nat) : (s.addSat k hi lo n).cas = s.cas := rfl

@[simp] theorem State.incWrap_pending (s : State) (k hi lo : Nat) : (s.incWrap k hi lo).pending = s.pending := rfl
@[simp] theorem State.incWrap_pairs (s : State) (k hi lo : Nat) : (s.incWrap k hi lo).pairs = s.pairs := rfl
@[simp] theorem State.incWrap_alarmCond (s : State) (k hi lo : Nat) : (s.incWrap k hi lo).alarmCond = s.alarmCond := rfl
@[simp] theorem State.incWrap_dram (s : State) (k hi lo : Nat) : (s.incWrap k hi lo).dram = s.dram := rfl
@[simp] theorem State.incWrap_mram (s : State) (k hi lo : Nat) : (s.incWrap k hi lo).mram = s.mram := rfl
@[simp] theorem State.incWrap_flashA (s : State) (k hi lo : Nat) : (s.incWrap k hi lo).flashA = s.flashA := rfl
@[simp] theorem State.incWrap_flashB (s : State) (k hi lo : Nat) : (s.incWrap k hi lo).flashB = s.flashB := rfl
@[simp] theorem State.incWrap_out (s : State) (k hi lo : Nat) : (s.incWrap k hi lo).out = s.out := rfl
@[simp] theorem State.incWrap_free (s : State) (k hi lo : Nat) : (s.incWrap k hi lo).free = s.free := rfl
@[simp] theorem State.incWrap_uptime (s : State) (k hi lo : Nat) : (s.incWrap k hi lo).uptime = s.uptime := rfl
@[simp] theorem State.incWrap_ticks (s : State) (k hi lo : Nat) : (s.incWrap k hi lo).ticks = s.ticks := rfl
@[simp] theorem State.incWrap_host (s : State) (k hi lo : Nat) : (s.incWrap k hi lo).host = s.host := rfl
@[simp] theorem State.incWrap_svp (s : State) (k hi lo : Nat) : (s.incWrap k hi lo).svp = s.svp := rfl
@[simp] theorem State.incWrap_ld (s : State) (k hi lo : Nat) : (s.incWrap k hi lo).ld = s.ld := rfl
@[simp] theorem State.incWrap_stm (s : State) (k hi lo : Nat) : (s.incWrap k hi lo).stm = s.stm := rfl
@[simp] theorem State.incWrap_cmd (s : State) (k hi lo : Nat) : (s.incWrap k hi lo).cmd = s.cmd := rfl
@[simp] theorem State.incWrap_boot (s : State) (k hi lo : Nat) : (s.incWrap k hi lo).boot = s.boot := rfl
@[simp] theorem State.incWrap_tim (s : State) (k hi lo : Nat) : (s.incWrap k hi lo).tim = s.tim := rfl
@[simp] theorem State.incWrap_streams (s : State) (k hi lo : Nat) : (s.incWrap k hi lo).streams = s.streams := rfl
@[simp] theorem State.incWrap_links (s : State) (k hi lo : Nat) : (s.incWrap k hi lo).links = s.links := rfl
@[simp] theorem State.incWrap_txSeq (s : State) (k hi lo : Nat) : (s.incWrap k hi lo).txSeq = s.txSeq := rfl
@[simp] theorem State.incWrap_tx (s : State) (k hi lo : Nat) : (s.incWrap k hi lo).tx = s.tx := rfl
@[simp] theorem State.incWrap_nodes (s : State) (k hi lo : Nat) : (s.incWrap k hi lo).nodes = s.nodes := rfl
@[simp] theorem State.incWrap_layers (s : State) (k hi lo : Nat) : (s.incWrap k hi lo).layers = s.layers := rfl
@[simp] theorem State.incWrap_outputs (s : State) (k hi lo : Nat) : (s.incWrap k hi lo).outputs = s.outputs := rfl
@[simp] theorem State.incWrap_chk (s : State) (k hi lo : Nat) : (s.incWrap k hi lo).chk = s.chk := rfl
@[simp] theorem State.incWrap_blk (s : State) (k hi lo : Nat) : (s.incWrap k hi lo).blk = s.blk := rfl
@[simp] theorem State.incWrap_pre (s : State) (k hi lo : Nat) : (s.incWrap k hi lo).pre = s.pre := rfl
@[simp] theorem State.incWrap_enc (s : State) (k hi lo : Nat) : (s.incWrap k hi lo).enc = s.enc := rfl
@[simp] theorem State.incWrap_mem (s : State) (k hi lo : Nat) : (s.incWrap k hi lo).mem = s.mem := rfl
@[simp] theorem State.incWrap_net (s : State) (k hi lo : Nat) : (s.incWrap k hi lo).net = s.net := rfl
@[simp] theorem State.incWrap_encIrap (s : State) (k hi lo : Nat) : (s.incWrap k hi lo).encIrap = s.encIrap := rfl
@[simp] theorem State.incWrap_touch (s : State) (k hi lo : Nat) : (s.incWrap k hi lo).touch = s.touch := rfl
@[simp] theorem State.incWrap_twin (s : State) (k hi lo : Nat) : (s.incWrap k hi lo).twin = s.twin := rfl
@[simp] theorem State.incWrap_cas (s : State) (k hi lo : Nat) : (s.incWrap k hi lo).cas = s.cas := rfl

@[simp] theorem State.emit_pending (s : State) (e : Emit) : (s.emit e).pending = s.pending := rfl
@[simp] theorem State.emit_regs (s : State) (e : Emit) : (s.emit e).regs = s.regs := rfl
@[simp] theorem State.emit_pairs (s : State) (e : Emit) : (s.emit e).pairs = s.pairs := rfl
@[simp] theorem State.emit_alarmCond (s : State) (e : Emit) : (s.emit e).alarmCond = s.alarmCond := rfl
@[simp] theorem State.emit_dram (s : State) (e : Emit) : (s.emit e).dram = s.dram := rfl
@[simp] theorem State.emit_mram (s : State) (e : Emit) : (s.emit e).mram = s.mram := rfl
@[simp] theorem State.emit_flashA (s : State) (e : Emit) : (s.emit e).flashA = s.flashA := rfl
@[simp] theorem State.emit_flashB (s : State) (e : Emit) : (s.emit e).flashB = s.flashB := rfl
@[simp] theorem State.emit_free (s : State) (e : Emit) : (s.emit e).free = s.free := rfl
@[simp] theorem State.emit_uptime (s : State) (e : Emit) : (s.emit e).uptime = s.uptime := rfl
@[simp] theorem State.emit_ticks (s : State) (e : Emit) : (s.emit e).ticks = s.ticks := rfl
@[simp] theorem State.emit_host (s : State) (e : Emit) : (s.emit e).host = s.host := rfl
@[simp] theorem State.emit_svp (s : State) (e : Emit) : (s.emit e).svp = s.svp := rfl
@[simp] theorem State.emit_ld (s : State) (e : Emit) : (s.emit e).ld = s.ld := rfl
@[simp] theorem State.emit_stm (s : State) (e : Emit) : (s.emit e).stm = s.stm := rfl
@[simp] theorem State.emit_cmd (s : State) (e : Emit) : (s.emit e).cmd = s.cmd := rfl
@[simp] theorem State.emit_boot (s : State) (e : Emit) : (s.emit e).boot = s.boot := rfl
@[simp] theorem State.emit_tim (s : State) (e : Emit) : (s.emit e).tim = s.tim := rfl
@[simp] theorem State.emit_streams (s : State) (e : Emit) : (s.emit e).streams = s.streams := rfl
@[simp] theorem State.emit_links (s : State) (e : Emit) : (s.emit e).links = s.links := rfl
@[simp] theorem State.emit_txSeq (s : State) (e : Emit) : (s.emit e).txSeq = s.txSeq := rfl
@[simp] theorem State.emit_tx (s : State) (e : Emit) : (s.emit e).tx = s.tx := rfl
@[simp] theorem State.emit_nodes (s : State) (e : Emit) : (s.emit e).nodes = s.nodes := rfl
@[simp] theorem State.emit_layers (s : State) (e : Emit) : (s.emit e).layers = s.layers := rfl
@[simp] theorem State.emit_outputs (s : State) (e : Emit) : (s.emit e).outputs = s.outputs := rfl
@[simp] theorem State.emit_chk (s : State) (e : Emit) : (s.emit e).chk = s.chk := rfl
@[simp] theorem State.emit_blk (s : State) (e : Emit) : (s.emit e).blk = s.blk := rfl
@[simp] theorem State.emit_pre (s : State) (e : Emit) : (s.emit e).pre = s.pre := rfl
@[simp] theorem State.emit_enc (s : State) (e : Emit) : (s.emit e).enc = s.enc := rfl
@[simp] theorem State.emit_mem (s : State) (e : Emit) : (s.emit e).mem = s.mem := rfl
@[simp] theorem State.emit_net (s : State) (e : Emit) : (s.emit e).net = s.net := rfl
@[simp] theorem State.emit_encIrap (s : State) (e : Emit) : (s.emit e).encIrap = s.encIrap := rfl
@[simp] theorem State.emit_touch (s : State) (e : Emit) : (s.emit e).touch = s.touch := rfl
@[simp] theorem State.emit_twin (s : State) (e : Emit) : (s.emit e).twin = s.twin := rfl
@[simp] theorem State.emit_cas (s : State) (e : Emit) : (s.emit e).cas = s.cas := rfl

@[simp] theorem State.nextFree_pending (s : State) : (s.nextFree).pending = s.pending := rfl
@[simp] theorem State.nextFree_regs (s : State) : (s.nextFree).regs = s.regs := rfl
@[simp] theorem State.nextFree_pairs (s : State) : (s.nextFree).pairs = s.pairs := rfl
@[simp] theorem State.nextFree_alarmCond (s : State) : (s.nextFree).alarmCond = s.alarmCond := rfl
@[simp] theorem State.nextFree_dram (s : State) : (s.nextFree).dram = s.dram := rfl
@[simp] theorem State.nextFree_mram (s : State) : (s.nextFree).mram = s.mram := rfl
@[simp] theorem State.nextFree_flashA (s : State) : (s.nextFree).flashA = s.flashA := rfl
@[simp] theorem State.nextFree_flashB (s : State) : (s.nextFree).flashB = s.flashB := rfl
@[simp] theorem State.nextFree_out (s : State) : (s.nextFree).out = s.out := rfl
@[simp] theorem State.nextFree_uptime (s : State) : (s.nextFree).uptime = s.uptime := rfl
@[simp] theorem State.nextFree_ticks (s : State) : (s.nextFree).ticks = s.ticks := rfl
@[simp] theorem State.nextFree_host (s : State) : (s.nextFree).host = s.host := rfl
@[simp] theorem State.nextFree_svp (s : State) : (s.nextFree).svp = s.svp := rfl
@[simp] theorem State.nextFree_ld (s : State) : (s.nextFree).ld = s.ld := rfl
@[simp] theorem State.nextFree_stm (s : State) : (s.nextFree).stm = s.stm := rfl
@[simp] theorem State.nextFree_cmd (s : State) : (s.nextFree).cmd = s.cmd := rfl
@[simp] theorem State.nextFree_boot (s : State) : (s.nextFree).boot = s.boot := rfl
@[simp] theorem State.nextFree_tim (s : State) : (s.nextFree).tim = s.tim := rfl
@[simp] theorem State.nextFree_streams (s : State) : (s.nextFree).streams = s.streams := rfl
@[simp] theorem State.nextFree_links (s : State) : (s.nextFree).links = s.links := rfl
@[simp] theorem State.nextFree_txSeq (s : State) : (s.nextFree).txSeq = s.txSeq := rfl
@[simp] theorem State.nextFree_tx (s : State) : (s.nextFree).tx = s.tx := rfl
@[simp] theorem State.nextFree_nodes (s : State) : (s.nextFree).nodes = s.nodes := rfl
@[simp] theorem State.nextFree_layers (s : State) : (s.nextFree).layers = s.layers := rfl
@[simp] theorem State.nextFree_outputs (s : State) : (s.nextFree).outputs = s.outputs := rfl
@[simp] theorem State.nextFree_chk (s : State) : (s.nextFree).chk = s.chk := rfl
@[simp] theorem State.nextFree_blk (s : State) : (s.nextFree).blk = s.blk := rfl
@[simp] theorem State.nextFree_pre (s : State) : (s.nextFree).pre = s.pre := rfl
@[simp] theorem State.nextFree_enc (s : State) : (s.nextFree).enc = s.enc := rfl
@[simp] theorem State.nextFree_mem (s : State) : (s.nextFree).mem = s.mem := rfl
@[simp] theorem State.nextFree_net (s : State) : (s.nextFree).net = s.net := rfl
@[simp] theorem State.nextFree_encIrap (s : State) : (s.nextFree).encIrap = s.encIrap := rfl
@[simp] theorem State.nextFree_touch (s : State) : (s.nextFree).touch = s.touch := rfl
@[simp] theorem State.nextFree_twin (s : State) : (s.nextFree).twin = s.twin := rfl
@[simp] theorem State.nextFree_cas (s : State) : (s.nextFree).cas = s.cas := rfl

@[simp] theorem State.setMachine_pending (s : State) (m : Nat) (x : StepMachine) : (s.setMachine m x).pending = s.pending := rfl
@[simp] theorem State.setMachine_regs (s : State) (m : Nat) (x : StepMachine) : (s.setMachine m x).regs = s.regs := rfl
@[simp] theorem State.setMachine_pairs (s : State) (m : Nat) (x : StepMachine) : (s.setMachine m x).pairs = s.pairs := rfl
@[simp] theorem State.setMachine_alarmCond (s : State) (m : Nat) (x : StepMachine) : (s.setMachine m x).alarmCond = s.alarmCond := rfl
@[simp] theorem State.setMachine_dram (s : State) (m : Nat) (x : StepMachine) : (s.setMachine m x).dram = s.dram := rfl
@[simp] theorem State.setMachine_mram (s : State) (m : Nat) (x : StepMachine) : (s.setMachine m x).mram = s.mram := rfl
@[simp] theorem State.setMachine_flashA (s : State) (m : Nat) (x : StepMachine) : (s.setMachine m x).flashA = s.flashA := rfl
@[simp] theorem State.setMachine_flashB (s : State) (m : Nat) (x : StepMachine) : (s.setMachine m x).flashB = s.flashB := rfl
@[simp] theorem State.setMachine_out (s : State) (m : Nat) (x : StepMachine) : (s.setMachine m x).out = s.out := rfl
@[simp] theorem State.setMachine_free (s : State) (m : Nat) (x : StepMachine) : (s.setMachine m x).free = s.free := rfl
@[simp] theorem State.setMachine_uptime (s : State) (m : Nat) (x : StepMachine) : (s.setMachine m x).uptime = s.uptime := rfl
@[simp] theorem State.setMachine_ticks (s : State) (m : Nat) (x : StepMachine) : (s.setMachine m x).ticks = s.ticks := rfl
@[simp] theorem State.setMachine_host (s : State) (m : Nat) (x : StepMachine) : (s.setMachine m x).host = s.host := rfl
@[simp] theorem State.setMachine_svp (s : State) (m : Nat) (x : StepMachine) : (s.setMachine m x).svp = s.svp := rfl
@[simp] theorem State.setMachine_ld (s : State) (m : Nat) (x : StepMachine) : (s.setMachine m x).ld = s.ld := rfl
@[simp] theorem State.setMachine_cmd (s : State) (m : Nat) (x : StepMachine) : (s.setMachine m x).cmd = s.cmd := rfl
@[simp] theorem State.setMachine_boot (s : State) (m : Nat) (x : StepMachine) : (s.setMachine m x).boot = s.boot := rfl
@[simp] theorem State.setMachine_tim (s : State) (m : Nat) (x : StepMachine) : (s.setMachine m x).tim = s.tim := rfl
@[simp] theorem State.setMachine_streams (s : State) (m : Nat) (x : StepMachine) : (s.setMachine m x).streams = s.streams := rfl
@[simp] theorem State.setMachine_links (s : State) (m : Nat) (x : StepMachine) : (s.setMachine m x).links = s.links := rfl
@[simp] theorem State.setMachine_txSeq (s : State) (m : Nat) (x : StepMachine) : (s.setMachine m x).txSeq = s.txSeq := rfl
@[simp] theorem State.setMachine_tx (s : State) (m : Nat) (x : StepMachine) : (s.setMachine m x).tx = s.tx := rfl
@[simp] theorem State.setMachine_nodes (s : State) (m : Nat) (x : StepMachine) : (s.setMachine m x).nodes = s.nodes := rfl
@[simp] theorem State.setMachine_layers (s : State) (m : Nat) (x : StepMachine) : (s.setMachine m x).layers = s.layers := rfl
@[simp] theorem State.setMachine_outputs (s : State) (m : Nat) (x : StepMachine) : (s.setMachine m x).outputs = s.outputs := rfl
@[simp] theorem State.setMachine_chk (s : State) (m : Nat) (x : StepMachine) : (s.setMachine m x).chk = s.chk := rfl
@[simp] theorem State.setMachine_blk (s : State) (m : Nat) (x : StepMachine) : (s.setMachine m x).blk = s.blk := rfl
@[simp] theorem State.setMachine_pre (s : State) (m : Nat) (x : StepMachine) : (s.setMachine m x).pre = s.pre := rfl
@[simp] theorem State.setMachine_enc (s : State) (m : Nat) (x : StepMachine) : (s.setMachine m x).enc = s.enc := rfl
@[simp] theorem State.setMachine_mem (s : State) (m : Nat) (x : StepMachine) : (s.setMachine m x).mem = s.mem := rfl
@[simp] theorem State.setMachine_net (s : State) (m : Nat) (x : StepMachine) : (s.setMachine m x).net = s.net := rfl
@[simp] theorem State.setMachine_encIrap (s : State) (m : Nat) (x : StepMachine) : (s.setMachine m x).encIrap = s.encIrap := rfl
@[simp] theorem State.setMachine_touch (s : State) (m : Nat) (x : StepMachine) : (s.setMachine m x).touch = s.touch := rfl
@[simp] theorem State.setMachine_twin (s : State) (m : Nat) (x : StepMachine) : (s.setMachine m x).twin = s.twin := rfl
@[simp] theorem State.setMachine_cas (s : State) (m : Nat) (x : StepMachine) : (s.setMachine m x).cas = s.cas := rfl

@[simp] theorem State.setQueue_pending (s : State) (q : Nat) (x : QueueSt) : (s.setQueue q x).pending = s.pending := rfl
@[simp] theorem State.setQueue_regs (s : State) (q : Nat) (x : QueueSt) : (s.setQueue q x).regs = s.regs := rfl
@[simp] theorem State.setQueue_pairs (s : State) (q : Nat) (x : QueueSt) : (s.setQueue q x).pairs = s.pairs := rfl
@[simp] theorem State.setQueue_alarmCond (s : State) (q : Nat) (x : QueueSt) : (s.setQueue q x).alarmCond = s.alarmCond := rfl
@[simp] theorem State.setQueue_dram (s : State) (q : Nat) (x : QueueSt) : (s.setQueue q x).dram = s.dram := rfl
@[simp] theorem State.setQueue_mram (s : State) (q : Nat) (x : QueueSt) : (s.setQueue q x).mram = s.mram := rfl
@[simp] theorem State.setQueue_flashA (s : State) (q : Nat) (x : QueueSt) : (s.setQueue q x).flashA = s.flashA := rfl
@[simp] theorem State.setQueue_flashB (s : State) (q : Nat) (x : QueueSt) : (s.setQueue q x).flashB = s.flashB := rfl
@[simp] theorem State.setQueue_out (s : State) (q : Nat) (x : QueueSt) : (s.setQueue q x).out = s.out := rfl
@[simp] theorem State.setQueue_free (s : State) (q : Nat) (x : QueueSt) : (s.setQueue q x).free = s.free := rfl
@[simp] theorem State.setQueue_uptime (s : State) (q : Nat) (x : QueueSt) : (s.setQueue q x).uptime = s.uptime := rfl
@[simp] theorem State.setQueue_ticks (s : State) (q : Nat) (x : QueueSt) : (s.setQueue q x).ticks = s.ticks := rfl
@[simp] theorem State.setQueue_host (s : State) (q : Nat) (x : QueueSt) : (s.setQueue q x).host = s.host := rfl
@[simp] theorem State.setQueue_svp (s : State) (q : Nat) (x : QueueSt) : (s.setQueue q x).svp = s.svp := rfl
@[simp] theorem State.setQueue_ld (s : State) (q : Nat) (x : QueueSt) : (s.setQueue q x).ld = s.ld := rfl
@[simp] theorem State.setQueue_stm (s : State) (q : Nat) (x : QueueSt) : (s.setQueue q x).stm = s.stm := rfl
@[simp] theorem State.setQueue_boot (s : State) (q : Nat) (x : QueueSt) : (s.setQueue q x).boot = s.boot := rfl
@[simp] theorem State.setQueue_tim (s : State) (q : Nat) (x : QueueSt) : (s.setQueue q x).tim = s.tim := rfl
@[simp] theorem State.setQueue_streams (s : State) (q : Nat) (x : QueueSt) : (s.setQueue q x).streams = s.streams := rfl
@[simp] theorem State.setQueue_links (s : State) (q : Nat) (x : QueueSt) : (s.setQueue q x).links = s.links := rfl
@[simp] theorem State.setQueue_txSeq (s : State) (q : Nat) (x : QueueSt) : (s.setQueue q x).txSeq = s.txSeq := rfl
@[simp] theorem State.setQueue_tx (s : State) (q : Nat) (x : QueueSt) : (s.setQueue q x).tx = s.tx := rfl
@[simp] theorem State.setQueue_nodes (s : State) (q : Nat) (x : QueueSt) : (s.setQueue q x).nodes = s.nodes := rfl
@[simp] theorem State.setQueue_layers (s : State) (q : Nat) (x : QueueSt) : (s.setQueue q x).layers = s.layers := rfl
@[simp] theorem State.setQueue_outputs (s : State) (q : Nat) (x : QueueSt) : (s.setQueue q x).outputs = s.outputs := rfl
@[simp] theorem State.setQueue_chk (s : State) (q : Nat) (x : QueueSt) : (s.setQueue q x).chk = s.chk := rfl
@[simp] theorem State.setQueue_blk (s : State) (q : Nat) (x : QueueSt) : (s.setQueue q x).blk = s.blk := rfl
@[simp] theorem State.setQueue_pre (s : State) (q : Nat) (x : QueueSt) : (s.setQueue q x).pre = s.pre := rfl
@[simp] theorem State.setQueue_enc (s : State) (q : Nat) (x : QueueSt) : (s.setQueue q x).enc = s.enc := rfl
@[simp] theorem State.setQueue_mem (s : State) (q : Nat) (x : QueueSt) : (s.setQueue q x).mem = s.mem := rfl
@[simp] theorem State.setQueue_net (s : State) (q : Nat) (x : QueueSt) : (s.setQueue q x).net = s.net := rfl
@[simp] theorem State.setQueue_encIrap (s : State) (q : Nat) (x : QueueSt) : (s.setQueue q x).encIrap = s.encIrap := rfl
@[simp] theorem State.setQueue_touch (s : State) (q : Nat) (x : QueueSt) : (s.setQueue q x).touch = s.touch := rfl
@[simp] theorem State.setQueue_twin (s : State) (q : Nat) (x : QueueSt) : (s.setQueue q x).twin = s.twin := rfl
@[simp] theorem State.setQueue_cas (s : State) (q : Nat) (x : QueueSt) : (s.setQueue q x).cas = s.cas := rfl

@[simp] theorem State.setStream_pending (s : State) (n : Nat) (x : StreamSt) : (s.setStream n x).pending = s.pending := rfl
@[simp] theorem State.setStream_regs (s : State) (n : Nat) (x : StreamSt) : (s.setStream n x).regs = s.regs := rfl
@[simp] theorem State.setStream_pairs (s : State) (n : Nat) (x : StreamSt) : (s.setStream n x).pairs = s.pairs := rfl
@[simp] theorem State.setStream_alarmCond (s : State) (n : Nat) (x : StreamSt) : (s.setStream n x).alarmCond = s.alarmCond := rfl
@[simp] theorem State.setStream_dram (s : State) (n : Nat) (x : StreamSt) : (s.setStream n x).dram = s.dram := rfl
@[simp] theorem State.setStream_mram (s : State) (n : Nat) (x : StreamSt) : (s.setStream n x).mram = s.mram := rfl
@[simp] theorem State.setStream_flashA (s : State) (n : Nat) (x : StreamSt) : (s.setStream n x).flashA = s.flashA := rfl
@[simp] theorem State.setStream_flashB (s : State) (n : Nat) (x : StreamSt) : (s.setStream n x).flashB = s.flashB := rfl
@[simp] theorem State.setStream_out (s : State) (n : Nat) (x : StreamSt) : (s.setStream n x).out = s.out := rfl
@[simp] theorem State.setStream_free (s : State) (n : Nat) (x : StreamSt) : (s.setStream n x).free = s.free := rfl
@[simp] theorem State.setStream_uptime (s : State) (n : Nat) (x : StreamSt) : (s.setStream n x).uptime = s.uptime := rfl
@[simp] theorem State.setStream_ticks (s : State) (n : Nat) (x : StreamSt) : (s.setStream n x).ticks = s.ticks := rfl
@[simp] theorem State.setStream_host (s : State) (n : Nat) (x : StreamSt) : (s.setStream n x).host = s.host := rfl
@[simp] theorem State.setStream_svp (s : State) (n : Nat) (x : StreamSt) : (s.setStream n x).svp = s.svp := rfl
@[simp] theorem State.setStream_ld (s : State) (n : Nat) (x : StreamSt) : (s.setStream n x).ld = s.ld := rfl
@[simp] theorem State.setStream_stm (s : State) (n : Nat) (x : StreamSt) : (s.setStream n x).stm = s.stm := rfl
@[simp] theorem State.setStream_cmd (s : State) (n : Nat) (x : StreamSt) : (s.setStream n x).cmd = s.cmd := rfl
@[simp] theorem State.setStream_boot (s : State) (n : Nat) (x : StreamSt) : (s.setStream n x).boot = s.boot := rfl
@[simp] theorem State.setStream_tim (s : State) (n : Nat) (x : StreamSt) : (s.setStream n x).tim = s.tim := rfl
@[simp] theorem State.setStream_links (s : State) (n : Nat) (x : StreamSt) : (s.setStream n x).links = s.links := rfl
@[simp] theorem State.setStream_txSeq (s : State) (n : Nat) (x : StreamSt) : (s.setStream n x).txSeq = s.txSeq := rfl
@[simp] theorem State.setStream_tx (s : State) (n : Nat) (x : StreamSt) : (s.setStream n x).tx = s.tx := rfl
@[simp] theorem State.setStream_nodes (s : State) (n : Nat) (x : StreamSt) : (s.setStream n x).nodes = s.nodes := rfl
@[simp] theorem State.setStream_layers (s : State) (n : Nat) (x : StreamSt) : (s.setStream n x).layers = s.layers := rfl
@[simp] theorem State.setStream_outputs (s : State) (n : Nat) (x : StreamSt) : (s.setStream n x).outputs = s.outputs := rfl
@[simp] theorem State.setStream_chk (s : State) (n : Nat) (x : StreamSt) : (s.setStream n x).chk = s.chk := rfl
@[simp] theorem State.setStream_blk (s : State) (n : Nat) (x : StreamSt) : (s.setStream n x).blk = s.blk := rfl
@[simp] theorem State.setStream_pre (s : State) (n : Nat) (x : StreamSt) : (s.setStream n x).pre = s.pre := rfl
@[simp] theorem State.setStream_enc (s : State) (n : Nat) (x : StreamSt) : (s.setStream n x).enc = s.enc := rfl
@[simp] theorem State.setStream_mem (s : State) (n : Nat) (x : StreamSt) : (s.setStream n x).mem = s.mem := rfl
@[simp] theorem State.setStream_net (s : State) (n : Nat) (x : StreamSt) : (s.setStream n x).net = s.net := rfl
@[simp] theorem State.setStream_encIrap (s : State) (n : Nat) (x : StreamSt) : (s.setStream n x).encIrap = s.encIrap := rfl
@[simp] theorem State.setStream_touch (s : State) (n : Nat) (x : StreamSt) : (s.setStream n x).touch = s.touch := rfl
@[simp] theorem State.setStream_twin (s : State) (n : Nat) (x : StreamSt) : (s.setStream n x).twin = s.twin := rfl
@[simp] theorem State.setStream_cas (s : State) (n : Nat) (x : StreamSt) : (s.setStream n x).cas = s.cas := rfl

@[simp] theorem State.setNode_pending (s : State) (n : Nat) (x : NodeSt) : (s.setNode n x).pending = s.pending := rfl
@[simp] theorem State.setNode_regs (s : State) (n : Nat) (x : NodeSt) : (s.setNode n x).regs = s.regs := rfl
@[simp] theorem State.setNode_pairs (s : State) (n : Nat) (x : NodeSt) : (s.setNode n x).pairs = s.pairs := rfl
@[simp] theorem State.setNode_alarmCond (s : State) (n : Nat) (x : NodeSt) : (s.setNode n x).alarmCond = s.alarmCond := rfl
@[simp] theorem State.setNode_dram (s : State) (n : Nat) (x : NodeSt) : (s.setNode n x).dram = s.dram := rfl
@[simp] theorem State.setNode_mram (s : State) (n : Nat) (x : NodeSt) : (s.setNode n x).mram = s.mram := rfl
@[simp] theorem State.setNode_flashA (s : State) (n : Nat) (x : NodeSt) : (s.setNode n x).flashA = s.flashA := rfl
@[simp] theorem State.setNode_flashB (s : State) (n : Nat) (x : NodeSt) : (s.setNode n x).flashB = s.flashB := rfl
@[simp] theorem State.setNode_out (s : State) (n : Nat) (x : NodeSt) : (s.setNode n x).out = s.out := rfl
@[simp] theorem State.setNode_free (s : State) (n : Nat) (x : NodeSt) : (s.setNode n x).free = s.free := rfl
@[simp] theorem State.setNode_uptime (s : State) (n : Nat) (x : NodeSt) : (s.setNode n x).uptime = s.uptime := rfl
@[simp] theorem State.setNode_ticks (s : State) (n : Nat) (x : NodeSt) : (s.setNode n x).ticks = s.ticks := rfl
@[simp] theorem State.setNode_host (s : State) (n : Nat) (x : NodeSt) : (s.setNode n x).host = s.host := rfl
@[simp] theorem State.setNode_svp (s : State) (n : Nat) (x : NodeSt) : (s.setNode n x).svp = s.svp := rfl
@[simp] theorem State.setNode_ld (s : State) (n : Nat) (x : NodeSt) : (s.setNode n x).ld = s.ld := rfl
@[simp] theorem State.setNode_stm (s : State) (n : Nat) (x : NodeSt) : (s.setNode n x).stm = s.stm := rfl
@[simp] theorem State.setNode_cmd (s : State) (n : Nat) (x : NodeSt) : (s.setNode n x).cmd = s.cmd := rfl
@[simp] theorem State.setNode_boot (s : State) (n : Nat) (x : NodeSt) : (s.setNode n x).boot = s.boot := rfl
@[simp] theorem State.setNode_tim (s : State) (n : Nat) (x : NodeSt) : (s.setNode n x).tim = s.tim := rfl
@[simp] theorem State.setNode_streams (s : State) (n : Nat) (x : NodeSt) : (s.setNode n x).streams = s.streams := rfl
@[simp] theorem State.setNode_links (s : State) (n : Nat) (x : NodeSt) : (s.setNode n x).links = s.links := rfl
@[simp] theorem State.setNode_txSeq (s : State) (n : Nat) (x : NodeSt) : (s.setNode n x).txSeq = s.txSeq := rfl
@[simp] theorem State.setNode_tx (s : State) (n : Nat) (x : NodeSt) : (s.setNode n x).tx = s.tx := rfl
@[simp] theorem State.setNode_layers (s : State) (n : Nat) (x : NodeSt) : (s.setNode n x).layers = s.layers := rfl
@[simp] theorem State.setNode_outputs (s : State) (n : Nat) (x : NodeSt) : (s.setNode n x).outputs = s.outputs := rfl
@[simp] theorem State.setNode_chk (s : State) (n : Nat) (x : NodeSt) : (s.setNode n x).chk = s.chk := rfl
@[simp] theorem State.setNode_blk (s : State) (n : Nat) (x : NodeSt) : (s.setNode n x).blk = s.blk := rfl
@[simp] theorem State.setNode_pre (s : State) (n : Nat) (x : NodeSt) : (s.setNode n x).pre = s.pre := rfl
@[simp] theorem State.setNode_enc (s : State) (n : Nat) (x : NodeSt) : (s.setNode n x).enc = s.enc := rfl
@[simp] theorem State.setNode_mem (s : State) (n : Nat) (x : NodeSt) : (s.setNode n x).mem = s.mem := rfl
@[simp] theorem State.setNode_net (s : State) (n : Nat) (x : NodeSt) : (s.setNode n x).net = s.net := rfl
@[simp] theorem State.setNode_encIrap (s : State) (n : Nat) (x : NodeSt) : (s.setNode n x).encIrap = s.encIrap := rfl
@[simp] theorem State.setNode_touch (s : State) (n : Nat) (x : NodeSt) : (s.setNode n x).touch = s.touch := rfl
@[simp] theorem State.setNode_twin (s : State) (n : Nat) (x : NodeSt) : (s.setNode n x).twin = s.twin := rfl
@[simp] theorem State.setNode_cas (s : State) (n : Nat) (x : NodeSt) : (s.setNode n x).cas = s.cas := rfl

@[simp] theorem State.setLayer_pending (s : State) (n : Nat) (x : LayerSt) : (s.setLayer n x).pending = s.pending := rfl
@[simp] theorem State.setLayer_regs (s : State) (n : Nat) (x : LayerSt) : (s.setLayer n x).regs = s.regs := rfl
@[simp] theorem State.setLayer_pairs (s : State) (n : Nat) (x : LayerSt) : (s.setLayer n x).pairs = s.pairs := rfl
@[simp] theorem State.setLayer_alarmCond (s : State) (n : Nat) (x : LayerSt) : (s.setLayer n x).alarmCond = s.alarmCond := rfl
@[simp] theorem State.setLayer_dram (s : State) (n : Nat) (x : LayerSt) : (s.setLayer n x).dram = s.dram := rfl
@[simp] theorem State.setLayer_mram (s : State) (n : Nat) (x : LayerSt) : (s.setLayer n x).mram = s.mram := rfl
@[simp] theorem State.setLayer_flashA (s : State) (n : Nat) (x : LayerSt) : (s.setLayer n x).flashA = s.flashA := rfl
@[simp] theorem State.setLayer_flashB (s : State) (n : Nat) (x : LayerSt) : (s.setLayer n x).flashB = s.flashB := rfl
@[simp] theorem State.setLayer_out (s : State) (n : Nat) (x : LayerSt) : (s.setLayer n x).out = s.out := rfl
@[simp] theorem State.setLayer_free (s : State) (n : Nat) (x : LayerSt) : (s.setLayer n x).free = s.free := rfl
@[simp] theorem State.setLayer_uptime (s : State) (n : Nat) (x : LayerSt) : (s.setLayer n x).uptime = s.uptime := rfl
@[simp] theorem State.setLayer_ticks (s : State) (n : Nat) (x : LayerSt) : (s.setLayer n x).ticks = s.ticks := rfl
@[simp] theorem State.setLayer_host (s : State) (n : Nat) (x : LayerSt) : (s.setLayer n x).host = s.host := rfl
@[simp] theorem State.setLayer_svp (s : State) (n : Nat) (x : LayerSt) : (s.setLayer n x).svp = s.svp := rfl
@[simp] theorem State.setLayer_ld (s : State) (n : Nat) (x : LayerSt) : (s.setLayer n x).ld = s.ld := rfl
@[simp] theorem State.setLayer_stm (s : State) (n : Nat) (x : LayerSt) : (s.setLayer n x).stm = s.stm := rfl
@[simp] theorem State.setLayer_cmd (s : State) (n : Nat) (x : LayerSt) : (s.setLayer n x).cmd = s.cmd := rfl
@[simp] theorem State.setLayer_boot (s : State) (n : Nat) (x : LayerSt) : (s.setLayer n x).boot = s.boot := rfl
@[simp] theorem State.setLayer_tim (s : State) (n : Nat) (x : LayerSt) : (s.setLayer n x).tim = s.tim := rfl
@[simp] theorem State.setLayer_streams (s : State) (n : Nat) (x : LayerSt) : (s.setLayer n x).streams = s.streams := rfl
@[simp] theorem State.setLayer_links (s : State) (n : Nat) (x : LayerSt) : (s.setLayer n x).links = s.links := rfl
@[simp] theorem State.setLayer_txSeq (s : State) (n : Nat) (x : LayerSt) : (s.setLayer n x).txSeq = s.txSeq := rfl
@[simp] theorem State.setLayer_tx (s : State) (n : Nat) (x : LayerSt) : (s.setLayer n x).tx = s.tx := rfl
@[simp] theorem State.setLayer_nodes (s : State) (n : Nat) (x : LayerSt) : (s.setLayer n x).nodes = s.nodes := rfl
@[simp] theorem State.setLayer_outputs (s : State) (n : Nat) (x : LayerSt) : (s.setLayer n x).outputs = s.outputs := rfl
@[simp] theorem State.setLayer_chk (s : State) (n : Nat) (x : LayerSt) : (s.setLayer n x).chk = s.chk := rfl
@[simp] theorem State.setLayer_blk (s : State) (n : Nat) (x : LayerSt) : (s.setLayer n x).blk = s.blk := rfl
@[simp] theorem State.setLayer_pre (s : State) (n : Nat) (x : LayerSt) : (s.setLayer n x).pre = s.pre := rfl
@[simp] theorem State.setLayer_enc (s : State) (n : Nat) (x : LayerSt) : (s.setLayer n x).enc = s.enc := rfl
@[simp] theorem State.setLayer_mem (s : State) (n : Nat) (x : LayerSt) : (s.setLayer n x).mem = s.mem := rfl
@[simp] theorem State.setLayer_net (s : State) (n : Nat) (x : LayerSt) : (s.setLayer n x).net = s.net := rfl
@[simp] theorem State.setLayer_encIrap (s : State) (n : Nat) (x : LayerSt) : (s.setLayer n x).encIrap = s.encIrap := rfl
@[simp] theorem State.setLayer_touch (s : State) (n : Nat) (x : LayerSt) : (s.setLayer n x).touch = s.touch := rfl
@[simp] theorem State.setLayer_twin (s : State) (n : Nat) (x : LayerSt) : (s.setLayer n x).twin = s.twin := rfl
@[simp] theorem State.setLayer_cas (s : State) (n : Nat) (x : LayerSt) : (s.setLayer n x).cas = s.cas := rfl

@[simp] theorem State.setOutput_pending (s : State) (n : Nat) (x : OutputSt) : (s.setOutput n x).pending = s.pending := rfl
@[simp] theorem State.setOutput_regs (s : State) (n : Nat) (x : OutputSt) : (s.setOutput n x).regs = s.regs := rfl
@[simp] theorem State.setOutput_pairs (s : State) (n : Nat) (x : OutputSt) : (s.setOutput n x).pairs = s.pairs := rfl
@[simp] theorem State.setOutput_alarmCond (s : State) (n : Nat) (x : OutputSt) : (s.setOutput n x).alarmCond = s.alarmCond := rfl
@[simp] theorem State.setOutput_dram (s : State) (n : Nat) (x : OutputSt) : (s.setOutput n x).dram = s.dram := rfl
@[simp] theorem State.setOutput_mram (s : State) (n : Nat) (x : OutputSt) : (s.setOutput n x).mram = s.mram := rfl
@[simp] theorem State.setOutput_flashA (s : State) (n : Nat) (x : OutputSt) : (s.setOutput n x).flashA = s.flashA := rfl
@[simp] theorem State.setOutput_flashB (s : State) (n : Nat) (x : OutputSt) : (s.setOutput n x).flashB = s.flashB := rfl
@[simp] theorem State.setOutput_out (s : State) (n : Nat) (x : OutputSt) : (s.setOutput n x).out = s.out := rfl
@[simp] theorem State.setOutput_free (s : State) (n : Nat) (x : OutputSt) : (s.setOutput n x).free = s.free := rfl
@[simp] theorem State.setOutput_uptime (s : State) (n : Nat) (x : OutputSt) : (s.setOutput n x).uptime = s.uptime := rfl
@[simp] theorem State.setOutput_ticks (s : State) (n : Nat) (x : OutputSt) : (s.setOutput n x).ticks = s.ticks := rfl
@[simp] theorem State.setOutput_host (s : State) (n : Nat) (x : OutputSt) : (s.setOutput n x).host = s.host := rfl
@[simp] theorem State.setOutput_svp (s : State) (n : Nat) (x : OutputSt) : (s.setOutput n x).svp = s.svp := rfl
@[simp] theorem State.setOutput_ld (s : State) (n : Nat) (x : OutputSt) : (s.setOutput n x).ld = s.ld := rfl
@[simp] theorem State.setOutput_stm (s : State) (n : Nat) (x : OutputSt) : (s.setOutput n x).stm = s.stm := rfl
@[simp] theorem State.setOutput_cmd (s : State) (n : Nat) (x : OutputSt) : (s.setOutput n x).cmd = s.cmd := rfl
@[simp] theorem State.setOutput_boot (s : State) (n : Nat) (x : OutputSt) : (s.setOutput n x).boot = s.boot := rfl
@[simp] theorem State.setOutput_tim (s : State) (n : Nat) (x : OutputSt) : (s.setOutput n x).tim = s.tim := rfl
@[simp] theorem State.setOutput_streams (s : State) (n : Nat) (x : OutputSt) : (s.setOutput n x).streams = s.streams := rfl
@[simp] theorem State.setOutput_links (s : State) (n : Nat) (x : OutputSt) : (s.setOutput n x).links = s.links := rfl
@[simp] theorem State.setOutput_txSeq (s : State) (n : Nat) (x : OutputSt) : (s.setOutput n x).txSeq = s.txSeq := rfl
@[simp] theorem State.setOutput_tx (s : State) (n : Nat) (x : OutputSt) : (s.setOutput n x).tx = s.tx := rfl
@[simp] theorem State.setOutput_nodes (s : State) (n : Nat) (x : OutputSt) : (s.setOutput n x).nodes = s.nodes := rfl
@[simp] theorem State.setOutput_layers (s : State) (n : Nat) (x : OutputSt) : (s.setOutput n x).layers = s.layers := rfl
@[simp] theorem State.setOutput_chk (s : State) (n : Nat) (x : OutputSt) : (s.setOutput n x).chk = s.chk := rfl
@[simp] theorem State.setOutput_blk (s : State) (n : Nat) (x : OutputSt) : (s.setOutput n x).blk = s.blk := rfl
@[simp] theorem State.setOutput_pre (s : State) (n : Nat) (x : OutputSt) : (s.setOutput n x).pre = s.pre := rfl
@[simp] theorem State.setOutput_enc (s : State) (n : Nat) (x : OutputSt) : (s.setOutput n x).enc = s.enc := rfl
@[simp] theorem State.setOutput_mem (s : State) (n : Nat) (x : OutputSt) : (s.setOutput n x).mem = s.mem := rfl
@[simp] theorem State.setOutput_net (s : State) (n : Nat) (x : OutputSt) : (s.setOutput n x).net = s.net := rfl
@[simp] theorem State.setOutput_encIrap (s : State) (n : Nat) (x : OutputSt) : (s.setOutput n x).encIrap = s.encIrap := rfl
@[simp] theorem State.setOutput_touch (s : State) (n : Nat) (x : OutputSt) : (s.setOutput n x).touch = s.touch := rfl
@[simp] theorem State.setOutput_twin (s : State) (n : Nat) (x : OutputSt) : (s.setOutput n x).twin = s.twin := rfl
@[simp] theorem State.setOutput_cas (s : State) (n : Nat) (x : OutputSt) : (s.setOutput n x).cas = s.cas := rfl

@[simp] theorem State.setLink_pending (s : State) (n : Nat) (x : Link) : (s.setLink n x).pending = s.pending := rfl
@[simp] theorem State.setLink_regs (s : State) (n : Nat) (x : Link) : (s.setLink n x).regs = s.regs := rfl
@[simp] theorem State.setLink_pairs (s : State) (n : Nat) (x : Link) : (s.setLink n x).pairs = s.pairs := rfl
@[simp] theorem State.setLink_alarmCond (s : State) (n : Nat) (x : Link) : (s.setLink n x).alarmCond = s.alarmCond := rfl
@[simp] theorem State.setLink_dram (s : State) (n : Nat) (x : Link) : (s.setLink n x).dram = s.dram := rfl
@[simp] theorem State.setLink_mram (s : State) (n : Nat) (x : Link) : (s.setLink n x).mram = s.mram := rfl
@[simp] theorem State.setLink_flashA (s : State) (n : Nat) (x : Link) : (s.setLink n x).flashA = s.flashA := rfl
@[simp] theorem State.setLink_flashB (s : State) (n : Nat) (x : Link) : (s.setLink n x).flashB = s.flashB := rfl
@[simp] theorem State.setLink_out (s : State) (n : Nat) (x : Link) : (s.setLink n x).out = s.out := rfl
@[simp] theorem State.setLink_free (s : State) (n : Nat) (x : Link) : (s.setLink n x).free = s.free := rfl
@[simp] theorem State.setLink_uptime (s : State) (n : Nat) (x : Link) : (s.setLink n x).uptime = s.uptime := rfl
@[simp] theorem State.setLink_ticks (s : State) (n : Nat) (x : Link) : (s.setLink n x).ticks = s.ticks := rfl
@[simp] theorem State.setLink_host (s : State) (n : Nat) (x : Link) : (s.setLink n x).host = s.host := rfl
@[simp] theorem State.setLink_svp (s : State) (n : Nat) (x : Link) : (s.setLink n x).svp = s.svp := rfl
@[simp] theorem State.setLink_ld (s : State) (n : Nat) (x : Link) : (s.setLink n x).ld = s.ld := rfl
@[simp] theorem State.setLink_stm (s : State) (n : Nat) (x : Link) : (s.setLink n x).stm = s.stm := rfl
@[simp] theorem State.setLink_cmd (s : State) (n : Nat) (x : Link) : (s.setLink n x).cmd = s.cmd := rfl
@[simp] theorem State.setLink_boot (s : State) (n : Nat) (x : Link) : (s.setLink n x).boot = s.boot := rfl
@[simp] theorem State.setLink_tim (s : State) (n : Nat) (x : Link) : (s.setLink n x).tim = s.tim := rfl
@[simp] theorem State.setLink_streams (s : State) (n : Nat) (x : Link) : (s.setLink n x).streams = s.streams := rfl
@[simp] theorem State.setLink_txSeq (s : State) (n : Nat) (x : Link) : (s.setLink n x).txSeq = s.txSeq := rfl
@[simp] theorem State.setLink_tx (s : State) (n : Nat) (x : Link) : (s.setLink n x).tx = s.tx := rfl
@[simp] theorem State.setLink_nodes (s : State) (n : Nat) (x : Link) : (s.setLink n x).nodes = s.nodes := rfl
@[simp] theorem State.setLink_layers (s : State) (n : Nat) (x : Link) : (s.setLink n x).layers = s.layers := rfl
@[simp] theorem State.setLink_outputs (s : State) (n : Nat) (x : Link) : (s.setLink n x).outputs = s.outputs := rfl
@[simp] theorem State.setLink_chk (s : State) (n : Nat) (x : Link) : (s.setLink n x).chk = s.chk := rfl
@[simp] theorem State.setLink_blk (s : State) (n : Nat) (x : Link) : (s.setLink n x).blk = s.blk := rfl
@[simp] theorem State.setLink_pre (s : State) (n : Nat) (x : Link) : (s.setLink n x).pre = s.pre := rfl
@[simp] theorem State.setLink_enc (s : State) (n : Nat) (x : Link) : (s.setLink n x).enc = s.enc := rfl
@[simp] theorem State.setLink_mem (s : State) (n : Nat) (x : Link) : (s.setLink n x).mem = s.mem := rfl
@[simp] theorem State.setLink_net (s : State) (n : Nat) (x : Link) : (s.setLink n x).net = s.net := rfl
@[simp] theorem State.setLink_encIrap (s : State) (n : Nat) (x : Link) : (s.setLink n x).encIrap = s.encIrap := rfl
@[simp] theorem State.setLink_touch (s : State) (n : Nat) (x : Link) : (s.setLink n x).touch = s.touch := rfl
@[simp] theorem State.setLink_twin (s : State) (n : Nat) (x : Link) : (s.setLink n x).twin = s.twin := rfl
@[simp] theorem State.setLink_cas (s : State) (n : Nat) (x : Link) : (s.setLink n x).cas = s.cas := rfl

@[simp] theorem State.setChan_pending (s : State) (n : Nat) (x : Channel) : (s.setChan n x).pending = s.pending := rfl
@[simp] theorem State.setChan_regs (s : State) (n : Nat) (x : Channel) : (s.setChan n x).regs = s.regs := rfl
@[simp] theorem State.setChan_pairs (s : State) (n : Nat) (x : Channel) : (s.setChan n x).pairs = s.pairs := rfl
@[simp] theorem State.setChan_alarmCond (s : State) (n : Nat) (x : Channel) : (s.setChan n x).alarmCond = s.alarmCond := rfl
@[simp] theorem State.setChan_dram (s : State) (n : Nat) (x : Channel) : (s.setChan n x).dram = s.dram := rfl
@[simp] theorem State.setChan_mram (s : State) (n : Nat) (x : Channel) : (s.setChan n x).mram = s.mram := rfl
@[simp] theorem State.setChan_flashA (s : State) (n : Nat) (x : Channel) : (s.setChan n x).flashA = s.flashA := rfl
@[simp] theorem State.setChan_flashB (s : State) (n : Nat) (x : Channel) : (s.setChan n x).flashB = s.flashB := rfl
@[simp] theorem State.setChan_out (s : State) (n : Nat) (x : Channel) : (s.setChan n x).out = s.out := rfl
@[simp] theorem State.setChan_free (s : State) (n : Nat) (x : Channel) : (s.setChan n x).free = s.free := rfl
@[simp] theorem State.setChan_uptime (s : State) (n : Nat) (x : Channel) : (s.setChan n x).uptime = s.uptime := rfl
@[simp] theorem State.setChan_ticks (s : State) (n : Nat) (x : Channel) : (s.setChan n x).ticks = s.ticks := rfl
@[simp] theorem State.setChan_host (s : State) (n : Nat) (x : Channel) : (s.setChan n x).host = s.host := rfl
@[simp] theorem State.setChan_svp (s : State) (n : Nat) (x : Channel) : (s.setChan n x).svp = s.svp := rfl
@[simp] theorem State.setChan_ld (s : State) (n : Nat) (x : Channel) : (s.setChan n x).ld = s.ld := rfl
@[simp] theorem State.setChan_stm (s : State) (n : Nat) (x : Channel) : (s.setChan n x).stm = s.stm := rfl
@[simp] theorem State.setChan_cmd (s : State) (n : Nat) (x : Channel) : (s.setChan n x).cmd = s.cmd := rfl
@[simp] theorem State.setChan_boot (s : State) (n : Nat) (x : Channel) : (s.setChan n x).boot = s.boot := rfl
@[simp] theorem State.setChan_tim (s : State) (n : Nat) (x : Channel) : (s.setChan n x).tim = s.tim := rfl
@[simp] theorem State.setChan_streams (s : State) (n : Nat) (x : Channel) : (s.setChan n x).streams = s.streams := rfl
@[simp] theorem State.setChan_links (s : State) (n : Nat) (x : Channel) : (s.setChan n x).links = s.links := rfl
@[simp] theorem State.setChan_txSeq (s : State) (n : Nat) (x : Channel) : (s.setChan n x).txSeq = s.txSeq := rfl
@[simp] theorem State.setChan_tx (s : State) (n : Nat) (x : Channel) : (s.setChan n x).tx = s.tx := rfl
@[simp] theorem State.setChan_nodes (s : State) (n : Nat) (x : Channel) : (s.setChan n x).nodes = s.nodes := rfl
@[simp] theorem State.setChan_layers (s : State) (n : Nat) (x : Channel) : (s.setChan n x).layers = s.layers := rfl
@[simp] theorem State.setChan_outputs (s : State) (n : Nat) (x : Channel) : (s.setChan n x).outputs = s.outputs := rfl
@[simp] theorem State.setChan_blk (s : State) (n : Nat) (x : Channel) : (s.setChan n x).blk = s.blk := rfl
@[simp] theorem State.setChan_pre (s : State) (n : Nat) (x : Channel) : (s.setChan n x).pre = s.pre := rfl
@[simp] theorem State.setChan_enc (s : State) (n : Nat) (x : Channel) : (s.setChan n x).enc = s.enc := rfl
@[simp] theorem State.setChan_mem (s : State) (n : Nat) (x : Channel) : (s.setChan n x).mem = s.mem := rfl
@[simp] theorem State.setChan_net (s : State) (n : Nat) (x : Channel) : (s.setChan n x).net = s.net := rfl
@[simp] theorem State.setChan_encIrap (s : State) (n : Nat) (x : Channel) : (s.setChan n x).encIrap = s.encIrap := rfl
@[simp] theorem State.setChan_touch (s : State) (n : Nat) (x : Channel) : (s.setChan n x).touch = s.touch := rfl
@[simp] theorem State.setChan_twin (s : State) (n : Nat) (x : Channel) : (s.setChan n x).twin = s.twin := rfl
@[simp] theorem State.setChan_cas (s : State) (n : Nat) (x : Channel) : (s.setChan n x).cas = s.cas := rfl

@[simp] theorem State.setEnc_pending (s : State) (n : Nat) (x : EncSt) : (s.setEnc n x).pending = s.pending := rfl
@[simp] theorem State.setEnc_regs (s : State) (n : Nat) (x : EncSt) : (s.setEnc n x).regs = s.regs := rfl
@[simp] theorem State.setEnc_pairs (s : State) (n : Nat) (x : EncSt) : (s.setEnc n x).pairs = s.pairs := rfl
@[simp] theorem State.setEnc_alarmCond (s : State) (n : Nat) (x : EncSt) : (s.setEnc n x).alarmCond = s.alarmCond := rfl
@[simp] theorem State.setEnc_dram (s : State) (n : Nat) (x : EncSt) : (s.setEnc n x).dram = s.dram := rfl
@[simp] theorem State.setEnc_mram (s : State) (n : Nat) (x : EncSt) : (s.setEnc n x).mram = s.mram := rfl
@[simp] theorem State.setEnc_flashA (s : State) (n : Nat) (x : EncSt) : (s.setEnc n x).flashA = s.flashA := rfl
@[simp] theorem State.setEnc_flashB (s : State) (n : Nat) (x : EncSt) : (s.setEnc n x).flashB = s.flashB := rfl
@[simp] theorem State.setEnc_out (s : State) (n : Nat) (x : EncSt) : (s.setEnc n x).out = s.out := rfl
@[simp] theorem State.setEnc_free (s : State) (n : Nat) (x : EncSt) : (s.setEnc n x).free = s.free := rfl
@[simp] theorem State.setEnc_uptime (s : State) (n : Nat) (x : EncSt) : (s.setEnc n x).uptime = s.uptime := rfl
@[simp] theorem State.setEnc_ticks (s : State) (n : Nat) (x : EncSt) : (s.setEnc n x).ticks = s.ticks := rfl
@[simp] theorem State.setEnc_host (s : State) (n : Nat) (x : EncSt) : (s.setEnc n x).host = s.host := rfl
@[simp] theorem State.setEnc_svp (s : State) (n : Nat) (x : EncSt) : (s.setEnc n x).svp = s.svp := rfl
@[simp] theorem State.setEnc_ld (s : State) (n : Nat) (x : EncSt) : (s.setEnc n x).ld = s.ld := rfl
@[simp] theorem State.setEnc_stm (s : State) (n : Nat) (x : EncSt) : (s.setEnc n x).stm = s.stm := rfl
@[simp] theorem State.setEnc_cmd (s : State) (n : Nat) (x : EncSt) : (s.setEnc n x).cmd = s.cmd := rfl
@[simp] theorem State.setEnc_boot (s : State) (n : Nat) (x : EncSt) : (s.setEnc n x).boot = s.boot := rfl
@[simp] theorem State.setEnc_tim (s : State) (n : Nat) (x : EncSt) : (s.setEnc n x).tim = s.tim := rfl
@[simp] theorem State.setEnc_streams (s : State) (n : Nat) (x : EncSt) : (s.setEnc n x).streams = s.streams := rfl
@[simp] theorem State.setEnc_links (s : State) (n : Nat) (x : EncSt) : (s.setEnc n x).links = s.links := rfl
@[simp] theorem State.setEnc_txSeq (s : State) (n : Nat) (x : EncSt) : (s.setEnc n x).txSeq = s.txSeq := rfl
@[simp] theorem State.setEnc_tx (s : State) (n : Nat) (x : EncSt) : (s.setEnc n x).tx = s.tx := rfl
@[simp] theorem State.setEnc_nodes (s : State) (n : Nat) (x : EncSt) : (s.setEnc n x).nodes = s.nodes := rfl
@[simp] theorem State.setEnc_layers (s : State) (n : Nat) (x : EncSt) : (s.setEnc n x).layers = s.layers := rfl
@[simp] theorem State.setEnc_outputs (s : State) (n : Nat) (x : EncSt) : (s.setEnc n x).outputs = s.outputs := rfl
@[simp] theorem State.setEnc_chk (s : State) (n : Nat) (x : EncSt) : (s.setEnc n x).chk = s.chk := rfl
@[simp] theorem State.setEnc_blk (s : State) (n : Nat) (x : EncSt) : (s.setEnc n x).blk = s.blk := rfl
@[simp] theorem State.setEnc_pre (s : State) (n : Nat) (x : EncSt) : (s.setEnc n x).pre = s.pre := rfl
@[simp] theorem State.setEnc_mem (s : State) (n : Nat) (x : EncSt) : (s.setEnc n x).mem = s.mem := rfl
@[simp] theorem State.setEnc_net (s : State) (n : Nat) (x : EncSt) : (s.setEnc n x).net = s.net := rfl
@[simp] theorem State.setEnc_encIrap (s : State) (n : Nat) (x : EncSt) : (s.setEnc n x).encIrap = s.encIrap := rfl
@[simp] theorem State.setEnc_touch (s : State) (n : Nat) (x : EncSt) : (s.setEnc n x).touch = s.touch := rfl
@[simp] theorem State.setEnc_twin (s : State) (n : Nat) (x : EncSt) : (s.setEnc n x).twin = s.twin := rfl
@[simp] theorem State.setEnc_cas (s : State) (n : Nat) (x : EncSt) : (s.setEnc n x).cas = s.cas := rfl

@[simp] theorem State.setHead_pending (s : State) (n : Nat) (x : TouchHead) : (s.setHead n x).pending = s.pending := rfl
@[simp] theorem State.setHead_regs (s : State) (n : Nat) (x : TouchHead) : (s.setHead n x).regs = s.regs := rfl
@[simp] theorem State.setHead_pairs (s : State) (n : Nat) (x : TouchHead) : (s.setHead n x).pairs = s.pairs := rfl
@[simp] theorem State.setHead_alarmCond (s : State) (n : Nat) (x : TouchHead) : (s.setHead n x).alarmCond = s.alarmCond := rfl
@[simp] theorem State.setHead_dram (s : State) (n : Nat) (x : TouchHead) : (s.setHead n x).dram = s.dram := rfl
@[simp] theorem State.setHead_mram (s : State) (n : Nat) (x : TouchHead) : (s.setHead n x).mram = s.mram := rfl
@[simp] theorem State.setHead_flashA (s : State) (n : Nat) (x : TouchHead) : (s.setHead n x).flashA = s.flashA := rfl
@[simp] theorem State.setHead_flashB (s : State) (n : Nat) (x : TouchHead) : (s.setHead n x).flashB = s.flashB := rfl
@[simp] theorem State.setHead_out (s : State) (n : Nat) (x : TouchHead) : (s.setHead n x).out = s.out := rfl
@[simp] theorem State.setHead_free (s : State) (n : Nat) (x : TouchHead) : (s.setHead n x).free = s.free := rfl
@[simp] theorem State.setHead_uptime (s : State) (n : Nat) (x : TouchHead) : (s.setHead n x).uptime = s.uptime := rfl
@[simp] theorem State.setHead_ticks (s : State) (n : Nat) (x : TouchHead) : (s.setHead n x).ticks = s.ticks := rfl
@[simp] theorem State.setHead_host (s : State) (n : Nat) (x : TouchHead) : (s.setHead n x).host = s.host := rfl
@[simp] theorem State.setHead_svp (s : State) (n : Nat) (x : TouchHead) : (s.setHead n x).svp = s.svp := rfl
@[simp] theorem State.setHead_ld (s : State) (n : Nat) (x : TouchHead) : (s.setHead n x).ld = s.ld := rfl
@[simp] theorem State.setHead_stm (s : State) (n : Nat) (x : TouchHead) : (s.setHead n x).stm = s.stm := rfl
@[simp] theorem State.setHead_cmd (s : State) (n : Nat) (x : TouchHead) : (s.setHead n x).cmd = s.cmd := rfl
@[simp] theorem State.setHead_boot (s : State) (n : Nat) (x : TouchHead) : (s.setHead n x).boot = s.boot := rfl
@[simp] theorem State.setHead_tim (s : State) (n : Nat) (x : TouchHead) : (s.setHead n x).tim = s.tim := rfl
@[simp] theorem State.setHead_streams (s : State) (n : Nat) (x : TouchHead) : (s.setHead n x).streams = s.streams := rfl
@[simp] theorem State.setHead_links (s : State) (n : Nat) (x : TouchHead) : (s.setHead n x).links = s.links := rfl
@[simp] theorem State.setHead_txSeq (s : State) (n : Nat) (x : TouchHead) : (s.setHead n x).txSeq = s.txSeq := rfl
@[simp] theorem State.setHead_tx (s : State) (n : Nat) (x : TouchHead) : (s.setHead n x).tx = s.tx := rfl
@[simp] theorem State.setHead_nodes (s : State) (n : Nat) (x : TouchHead) : (s.setHead n x).nodes = s.nodes := rfl
@[simp] theorem State.setHead_layers (s : State) (n : Nat) (x : TouchHead) : (s.setHead n x).layers = s.layers := rfl
@[simp] theorem State.setHead_outputs (s : State) (n : Nat) (x : TouchHead) : (s.setHead n x).outputs = s.outputs := rfl
@[simp] theorem State.setHead_chk (s : State) (n : Nat) (x : TouchHead) : (s.setHead n x).chk = s.chk := rfl
@[simp] theorem State.setHead_blk (s : State) (n : Nat) (x : TouchHead) : (s.setHead n x).blk = s.blk := rfl
@[simp] theorem State.setHead_pre (s : State) (n : Nat) (x : TouchHead) : (s.setHead n x).pre = s.pre := rfl
@[simp] theorem State.setHead_enc (s : State) (n : Nat) (x : TouchHead) : (s.setHead n x).enc = s.enc := rfl
@[simp] theorem State.setHead_mem (s : State) (n : Nat) (x : TouchHead) : (s.setHead n x).mem = s.mem := rfl
@[simp] theorem State.setHead_net (s : State) (n : Nat) (x : TouchHead) : (s.setHead n x).net = s.net := rfl
@[simp] theorem State.setHead_encIrap (s : State) (n : Nat) (x : TouchHead) : (s.setHead n x).encIrap = s.encIrap := rfl
@[simp] theorem State.setHead_twin (s : State) (n : Nat) (x : TouchHead) : (s.setHead n x).twin = s.twin := rfl
@[simp] theorem State.setHead_cas (s : State) (n : Nat) (x : TouchHead) : (s.setHead n x).cas = s.cas := rfl

@[simp] theorem State.setFclk_pending (s : State) (n : Nat) (x : Fclk) : (s.setFclk n x).pending = s.pending := rfl
@[simp] theorem State.setFclk_regs (s : State) (n : Nat) (x : Fclk) : (s.setFclk n x).regs = s.regs := rfl
@[simp] theorem State.setFclk_pairs (s : State) (n : Nat) (x : Fclk) : (s.setFclk n x).pairs = s.pairs := rfl
@[simp] theorem State.setFclk_alarmCond (s : State) (n : Nat) (x : Fclk) : (s.setFclk n x).alarmCond = s.alarmCond := rfl
@[simp] theorem State.setFclk_dram (s : State) (n : Nat) (x : Fclk) : (s.setFclk n x).dram = s.dram := rfl
@[simp] theorem State.setFclk_mram (s : State) (n : Nat) (x : Fclk) : (s.setFclk n x).mram = s.mram := rfl
@[simp] theorem State.setFclk_flashA (s : State) (n : Nat) (x : Fclk) : (s.setFclk n x).flashA = s.flashA := rfl
@[simp] theorem State.setFclk_flashB (s : State) (n : Nat) (x : Fclk) : (s.setFclk n x).flashB = s.flashB := rfl
@[simp] theorem State.setFclk_out (s : State) (n : Nat) (x : Fclk) : (s.setFclk n x).out = s.out := rfl
@[simp] theorem State.setFclk_free (s : State) (n : Nat) (x : Fclk) : (s.setFclk n x).free = s.free := rfl
@[simp] theorem State.setFclk_uptime (s : State) (n : Nat) (x : Fclk) : (s.setFclk n x).uptime = s.uptime := rfl
@[simp] theorem State.setFclk_ticks (s : State) (n : Nat) (x : Fclk) : (s.setFclk n x).ticks = s.ticks := rfl
@[simp] theorem State.setFclk_host (s : State) (n : Nat) (x : Fclk) : (s.setFclk n x).host = s.host := rfl
@[simp] theorem State.setFclk_svp (s : State) (n : Nat) (x : Fclk) : (s.setFclk n x).svp = s.svp := rfl
@[simp] theorem State.setFclk_ld (s : State) (n : Nat) (x : Fclk) : (s.setFclk n x).ld = s.ld := rfl
@[simp] theorem State.setFclk_stm (s : State) (n : Nat) (x : Fclk) : (s.setFclk n x).stm = s.stm := rfl
@[simp] theorem State.setFclk_cmd (s : State) (n : Nat) (x : Fclk) : (s.setFclk n x).cmd = s.cmd := rfl
@[simp] theorem State.setFclk_boot (s : State) (n : Nat) (x : Fclk) : (s.setFclk n x).boot = s.boot := rfl
@[simp] theorem State.setFclk_streams (s : State) (n : Nat) (x : Fclk) : (s.setFclk n x).streams = s.streams := rfl
@[simp] theorem State.setFclk_links (s : State) (n : Nat) (x : Fclk) : (s.setFclk n x).links = s.links := rfl
@[simp] theorem State.setFclk_txSeq (s : State) (n : Nat) (x : Fclk) : (s.setFclk n x).txSeq = s.txSeq := rfl
@[simp] theorem State.setFclk_tx (s : State) (n : Nat) (x : Fclk) : (s.setFclk n x).tx = s.tx := rfl
@[simp] theorem State.setFclk_nodes (s : State) (n : Nat) (x : Fclk) : (s.setFclk n x).nodes = s.nodes := rfl
@[simp] theorem State.setFclk_layers (s : State) (n : Nat) (x : Fclk) : (s.setFclk n x).layers = s.layers := rfl
@[simp] theorem State.setFclk_outputs (s : State) (n : Nat) (x : Fclk) : (s.setFclk n x).outputs = s.outputs := rfl
@[simp] theorem State.setFclk_chk (s : State) (n : Nat) (x : Fclk) : (s.setFclk n x).chk = s.chk := rfl
@[simp] theorem State.setFclk_blk (s : State) (n : Nat) (x : Fclk) : (s.setFclk n x).blk = s.blk := rfl
@[simp] theorem State.setFclk_pre (s : State) (n : Nat) (x : Fclk) : (s.setFclk n x).pre = s.pre := rfl
@[simp] theorem State.setFclk_enc (s : State) (n : Nat) (x : Fclk) : (s.setFclk n x).enc = s.enc := rfl
@[simp] theorem State.setFclk_mem (s : State) (n : Nat) (x : Fclk) : (s.setFclk n x).mem = s.mem := rfl
@[simp] theorem State.setFclk_net (s : State) (n : Nat) (x : Fclk) : (s.setFclk n x).net = s.net := rfl
@[simp] theorem State.setFclk_encIrap (s : State) (n : Nat) (x : Fclk) : (s.setFclk n x).encIrap = s.encIrap := rfl
@[simp] theorem State.setFclk_touch (s : State) (n : Nat) (x : Fclk) : (s.setFclk n x).touch = s.touch := rfl
@[simp] theorem State.setFclk_twin (s : State) (n : Nat) (x : Fclk) : (s.setFclk n x).twin = s.twin := rfl
@[simp] theorem State.setFclk_cas (s : State) (n : Nat) (x : Fclk) : (s.setFclk n x).cas = s.cas := rfl

@[simp] theorem State.setConds_pending (s : State) (n : Nat) (c : BitVec 8) : (s.setConds n c).pending = s.pending := rfl
@[simp] theorem State.setConds_regs (s : State) (n : Nat) (c : BitVec 8) : (s.setConds n c).regs = s.regs := rfl
@[simp] theorem State.setConds_pairs (s : State) (n : Nat) (c : BitVec 8) : (s.setConds n c).pairs = s.pairs := rfl
@[simp] theorem State.setConds_dram (s : State) (n : Nat) (c : BitVec 8) : (s.setConds n c).dram = s.dram := rfl
@[simp] theorem State.setConds_mram (s : State) (n : Nat) (c : BitVec 8) : (s.setConds n c).mram = s.mram := rfl
@[simp] theorem State.setConds_flashA (s : State) (n : Nat) (c : BitVec 8) : (s.setConds n c).flashA = s.flashA := rfl
@[simp] theorem State.setConds_flashB (s : State) (n : Nat) (c : BitVec 8) : (s.setConds n c).flashB = s.flashB := rfl
@[simp] theorem State.setConds_out (s : State) (n : Nat) (c : BitVec 8) : (s.setConds n c).out = s.out := rfl
@[simp] theorem State.setConds_free (s : State) (n : Nat) (c : BitVec 8) : (s.setConds n c).free = s.free := rfl
@[simp] theorem State.setConds_uptime (s : State) (n : Nat) (c : BitVec 8) : (s.setConds n c).uptime = s.uptime := rfl
@[simp] theorem State.setConds_ticks (s : State) (n : Nat) (c : BitVec 8) : (s.setConds n c).ticks = s.ticks := rfl
@[simp] theorem State.setConds_host (s : State) (n : Nat) (c : BitVec 8) : (s.setConds n c).host = s.host := rfl
@[simp] theorem State.setConds_svp (s : State) (n : Nat) (c : BitVec 8) : (s.setConds n c).svp = s.svp := rfl
@[simp] theorem State.setConds_ld (s : State) (n : Nat) (c : BitVec 8) : (s.setConds n c).ld = s.ld := rfl
@[simp] theorem State.setConds_stm (s : State) (n : Nat) (c : BitVec 8) : (s.setConds n c).stm = s.stm := rfl
@[simp] theorem State.setConds_cmd (s : State) (n : Nat) (c : BitVec 8) : (s.setConds n c).cmd = s.cmd := rfl
@[simp] theorem State.setConds_boot (s : State) (n : Nat) (c : BitVec 8) : (s.setConds n c).boot = s.boot := rfl
@[simp] theorem State.setConds_tim (s : State) (n : Nat) (c : BitVec 8) : (s.setConds n c).tim = s.tim := rfl
@[simp] theorem State.setConds_streams (s : State) (n : Nat) (c : BitVec 8) : (s.setConds n c).streams = s.streams := rfl
@[simp] theorem State.setConds_links (s : State) (n : Nat) (c : BitVec 8) : (s.setConds n c).links = s.links := rfl
@[simp] theorem State.setConds_txSeq (s : State) (n : Nat) (c : BitVec 8) : (s.setConds n c).txSeq = s.txSeq := rfl
@[simp] theorem State.setConds_tx (s : State) (n : Nat) (c : BitVec 8) : (s.setConds n c).tx = s.tx := rfl
@[simp] theorem State.setConds_nodes (s : State) (n : Nat) (c : BitVec 8) : (s.setConds n c).nodes = s.nodes := rfl
@[simp] theorem State.setConds_layers (s : State) (n : Nat) (c : BitVec 8) : (s.setConds n c).layers = s.layers := rfl
@[simp] theorem State.setConds_outputs (s : State) (n : Nat) (c : BitVec 8) : (s.setConds n c).outputs = s.outputs := rfl
@[simp] theorem State.setConds_chk (s : State) (n : Nat) (c : BitVec 8) : (s.setConds n c).chk = s.chk := rfl
@[simp] theorem State.setConds_blk (s : State) (n : Nat) (c : BitVec 8) : (s.setConds n c).blk = s.blk := rfl
@[simp] theorem State.setConds_pre (s : State) (n : Nat) (c : BitVec 8) : (s.setConds n c).pre = s.pre := rfl
@[simp] theorem State.setConds_enc (s : State) (n : Nat) (c : BitVec 8) : (s.setConds n c).enc = s.enc := rfl
@[simp] theorem State.setConds_mem (s : State) (n : Nat) (c : BitVec 8) : (s.setConds n c).mem = s.mem := rfl
@[simp] theorem State.setConds_net (s : State) (n : Nat) (c : BitVec 8) : (s.setConds n c).net = s.net := rfl
@[simp] theorem State.setConds_encIrap (s : State) (n : Nat) (c : BitVec 8) : (s.setConds n c).encIrap = s.encIrap := rfl
@[simp] theorem State.setConds_touch (s : State) (n : Nat) (c : BitVec 8) : (s.setConds n c).touch = s.touch := rfl
@[simp] theorem State.setConds_twin (s : State) (n : Nat) (c : BitVec 8) : (s.setConds n c).twin = s.twin := rfl
@[simp] theorem State.setConds_cas (s : State) (n : Nat) (c : BitVec 8) : (s.setConds n c).cas = s.cas := rfl

@[simp] theorem State.setDramByte_pending (s : State) (a : Nat) (b : Byte) : (s.setDramByte a b).pending = s.pending := rfl
@[simp] theorem State.setDramByte_regs (s : State) (a : Nat) (b : Byte) : (s.setDramByte a b).regs = s.regs := rfl
@[simp] theorem State.setDramByte_pairs (s : State) (a : Nat) (b : Byte) : (s.setDramByte a b).pairs = s.pairs := rfl
@[simp] theorem State.setDramByte_alarmCond (s : State) (a : Nat) (b : Byte) : (s.setDramByte a b).alarmCond = s.alarmCond := rfl
@[simp] theorem State.setDramByte_mram (s : State) (a : Nat) (b : Byte) : (s.setDramByte a b).mram = s.mram := rfl
@[simp] theorem State.setDramByte_flashA (s : State) (a : Nat) (b : Byte) : (s.setDramByte a b).flashA = s.flashA := rfl
@[simp] theorem State.setDramByte_flashB (s : State) (a : Nat) (b : Byte) : (s.setDramByte a b).flashB = s.flashB := rfl
@[simp] theorem State.setDramByte_out (s : State) (a : Nat) (b : Byte) : (s.setDramByte a b).out = s.out := rfl
@[simp] theorem State.setDramByte_free (s : State) (a : Nat) (b : Byte) : (s.setDramByte a b).free = s.free := rfl
@[simp] theorem State.setDramByte_uptime (s : State) (a : Nat) (b : Byte) : (s.setDramByte a b).uptime = s.uptime := rfl
@[simp] theorem State.setDramByte_ticks (s : State) (a : Nat) (b : Byte) : (s.setDramByte a b).ticks = s.ticks := rfl
@[simp] theorem State.setDramByte_host (s : State) (a : Nat) (b : Byte) : (s.setDramByte a b).host = s.host := rfl
@[simp] theorem State.setDramByte_svp (s : State) (a : Nat) (b : Byte) : (s.setDramByte a b).svp = s.svp := rfl
@[simp] theorem State.setDramByte_ld (s : State) (a : Nat) (b : Byte) : (s.setDramByte a b).ld = s.ld := rfl
@[simp] theorem State.setDramByte_stm (s : State) (a : Nat) (b : Byte) : (s.setDramByte a b).stm = s.stm := rfl
@[simp] theorem State.setDramByte_cmd (s : State) (a : Nat) (b : Byte) : (s.setDramByte a b).cmd = s.cmd := rfl
@[simp] theorem State.setDramByte_boot (s : State) (a : Nat) (b : Byte) : (s.setDramByte a b).boot = s.boot := rfl
@[simp] theorem State.setDramByte_tim (s : State) (a : Nat) (b : Byte) : (s.setDramByte a b).tim = s.tim := rfl
@[simp] theorem State.setDramByte_streams (s : State) (a : Nat) (b : Byte) : (s.setDramByte a b).streams = s.streams := rfl
@[simp] theorem State.setDramByte_links (s : State) (a : Nat) (b : Byte) : (s.setDramByte a b).links = s.links := rfl
@[simp] theorem State.setDramByte_txSeq (s : State) (a : Nat) (b : Byte) : (s.setDramByte a b).txSeq = s.txSeq := rfl
@[simp] theorem State.setDramByte_tx (s : State) (a : Nat) (b : Byte) : (s.setDramByte a b).tx = s.tx := rfl
@[simp] theorem State.setDramByte_nodes (s : State) (a : Nat) (b : Byte) : (s.setDramByte a b).nodes = s.nodes := rfl
@[simp] theorem State.setDramByte_layers (s : State) (a : Nat) (b : Byte) : (s.setDramByte a b).layers = s.layers := rfl
@[simp] theorem State.setDramByte_outputs (s : State) (a : Nat) (b : Byte) : (s.setDramByte a b).outputs = s.outputs := rfl
@[simp] theorem State.setDramByte_chk (s : State) (a : Nat) (b : Byte) : (s.setDramByte a b).chk = s.chk := rfl
@[simp] theorem State.setDramByte_blk (s : State) (a : Nat) (b : Byte) : (s.setDramByte a b).blk = s.blk := rfl
@[simp] theorem State.setDramByte_pre (s : State) (a : Nat) (b : Byte) : (s.setDramByte a b).pre = s.pre := rfl
@[simp] theorem State.setDramByte_enc (s : State) (a : Nat) (b : Byte) : (s.setDramByte a b).enc = s.enc := rfl
@[simp] theorem State.setDramByte_mem (s : State) (a : Nat) (b : Byte) : (s.setDramByte a b).mem = s.mem := rfl
@[simp] theorem State.setDramByte_net (s : State) (a : Nat) (b : Byte) : (s.setDramByte a b).net = s.net := rfl
@[simp] theorem State.setDramByte_encIrap (s : State) (a : Nat) (b : Byte) : (s.setDramByte a b).encIrap = s.encIrap := rfl
@[simp] theorem State.setDramByte_touch (s : State) (a : Nat) (b : Byte) : (s.setDramByte a b).touch = s.touch := rfl
@[simp] theorem State.setDramByte_twin (s : State) (a : Nat) (b : Byte) : (s.setDramByte a b).twin = s.twin := rfl
@[simp] theorem State.setDramByte_cas (s : State) (a : Nat) (b : Byte) : (s.setDramByte a b).cas = s.cas := rfl

@[simp] theorem State.dramWrite_pending (s : State) (a : Nat) (l : List Byte) : (s.dramWrite a l).pending = s.pending := rfl
@[simp] theorem State.dramWrite_regs (s : State) (a : Nat) (l : List Byte) : (s.dramWrite a l).regs = s.regs := rfl
@[simp] theorem State.dramWrite_pairs (s : State) (a : Nat) (l : List Byte) : (s.dramWrite a l).pairs = s.pairs := rfl
@[simp] theorem State.dramWrite_alarmCond (s : State) (a : Nat) (l : List Byte) : (s.dramWrite a l).alarmCond = s.alarmCond := rfl
@[simp] theorem State.dramWrite_mram (s : State) (a : Nat) (l : List Byte) : (s.dramWrite a l).mram = s.mram := rfl
@[simp] theorem State.dramWrite_flashA (s : State) (a : Nat) (l : List Byte) : (s.dramWrite a l).flashA = s.flashA := rfl
@[simp] theorem State.dramWrite_flashB (s : State) (a : Nat) (l : List Byte) : (s.dramWrite a l).flashB = s.flashB := rfl
@[simp] theorem State.dramWrite_out (s : State) (a : Nat) (l : List Byte) : (s.dramWrite a l).out = s.out := rfl
@[simp] theorem State.dramWrite_free (s : State) (a : Nat) (l : List Byte) : (s.dramWrite a l).free = s.free := rfl
@[simp] theorem State.dramWrite_uptime (s : State) (a : Nat) (l : List Byte) : (s.dramWrite a l).uptime = s.uptime := rfl
@[simp] theorem State.dramWrite_ticks (s : State) (a : Nat) (l : List Byte) : (s.dramWrite a l).ticks = s.ticks := rfl
@[simp] theorem State.dramWrite_host (s : State) (a : Nat) (l : List Byte) : (s.dramWrite a l).host = s.host := rfl
@[simp] theorem State.dramWrite_svp (s : State) (a : Nat) (l : List Byte) : (s.dramWrite a l).svp = s.svp := rfl
@[simp] theorem State.dramWrite_ld (s : State) (a : Nat) (l : List Byte) : (s.dramWrite a l).ld = s.ld := rfl
@[simp] theorem State.dramWrite_stm (s : State) (a : Nat) (l : List Byte) : (s.dramWrite a l).stm = s.stm := rfl
@[simp] theorem State.dramWrite_cmd (s : State) (a : Nat) (l : List Byte) : (s.dramWrite a l).cmd = s.cmd := rfl
@[simp] theorem State.dramWrite_boot (s : State) (a : Nat) (l : List Byte) : (s.dramWrite a l).boot = s.boot := rfl
@[simp] theorem State.dramWrite_tim (s : State) (a : Nat) (l : List Byte) : (s.dramWrite a l).tim = s.tim := rfl
@[simp] theorem State.dramWrite_streams (s : State) (a : Nat) (l : List Byte) : (s.dramWrite a l).streams = s.streams := rfl
@[simp] theorem State.dramWrite_links (s : State) (a : Nat) (l : List Byte) : (s.dramWrite a l).links = s.links := rfl
@[simp] theorem State.dramWrite_txSeq (s : State) (a : Nat) (l : List Byte) : (s.dramWrite a l).txSeq = s.txSeq := rfl
@[simp] theorem State.dramWrite_tx (s : State) (a : Nat) (l : List Byte) : (s.dramWrite a l).tx = s.tx := rfl
@[simp] theorem State.dramWrite_nodes (s : State) (a : Nat) (l : List Byte) : (s.dramWrite a l).nodes = s.nodes := rfl
@[simp] theorem State.dramWrite_layers (s : State) (a : Nat) (l : List Byte) : (s.dramWrite a l).layers = s.layers := rfl
@[simp] theorem State.dramWrite_outputs (s : State) (a : Nat) (l : List Byte) : (s.dramWrite a l).outputs = s.outputs := rfl
@[simp] theorem State.dramWrite_chk (s : State) (a : Nat) (l : List Byte) : (s.dramWrite a l).chk = s.chk := rfl
@[simp] theorem State.dramWrite_blk (s : State) (a : Nat) (l : List Byte) : (s.dramWrite a l).blk = s.blk := rfl
@[simp] theorem State.dramWrite_pre (s : State) (a : Nat) (l : List Byte) : (s.dramWrite a l).pre = s.pre := rfl
@[simp] theorem State.dramWrite_enc (s : State) (a : Nat) (l : List Byte) : (s.dramWrite a l).enc = s.enc := rfl
@[simp] theorem State.dramWrite_mem (s : State) (a : Nat) (l : List Byte) : (s.dramWrite a l).mem = s.mem := rfl
@[simp] theorem State.dramWrite_net (s : State) (a : Nat) (l : List Byte) : (s.dramWrite a l).net = s.net := rfl
@[simp] theorem State.dramWrite_encIrap (s : State) (a : Nat) (l : List Byte) : (s.dramWrite a l).encIrap = s.encIrap := rfl
@[simp] theorem State.dramWrite_touch (s : State) (a : Nat) (l : List Byte) : (s.dramWrite a l).touch = s.touch := rfl
@[simp] theorem State.dramWrite_twin (s : State) (a : Nat) (l : List Byte) : (s.dramWrite a l).twin = s.twin := rfl
@[simp] theorem State.dramWrite_cas (s : State) (a : Nat) (l : List Byte) : (s.dramWrite a l).cas = s.cas := rfl

end Sys2Proof.Machine
end

