-- ==== Sys2Proof/Laws/Ops.lean ====
section
/-!
SUPPORT. Laws/Ops.lean: what the shared operations over registers, bit fields and emissions can do, each said once.
-/
namespace Sys2Proof.Machine

/-! ### Bits of a field -/

theorem getLsbD_maskW (hi lo n : Nat) (hhi : hi < 32) (h : lo ≤ hi) :
    (maskW hi lo).getLsbD n = (decide (lo ≤ n) && decide (n ≤ hi)) := by
  unfold maskW
  rw [BitVec.getLsbD_ofNat, Nat.mul_comm, Nat.testBit_two_pow_mul]
  by_cases h1 : lo ≤ n
  · rw [Nat.testBit_two_pow_sub_one]
    by_cases h2 : n ≤ hi
    · have : n < 32 := by omega
      have : n - lo < hi - lo + 1 := by omega
      simp [*]
    · have : ¬ (n - lo < hi - lo + 1) := by omega
      simp [*]
  · simp [h1]

theorem getLsbD_wput (w : Word) (hi lo v n : Nat) (hhi : hi < 32) (h : lo ≤ hi) :
    (wput w hi lo v).getLsbD n =
      if lo ≤ n ∧ n ≤ hi then v.testBit (n - lo) else w.getLsbD n := by
  unfold wput
  rw [BitVec.getLsbD_or, BitVec.getLsbD_and, BitVec.getLsbD_not, getLsbD_maskW hi lo n hhi h, BitVec.getLsbD_ofNat,
    Nat.mul_comm, Nat.testBit_two_pow_mul, Nat.testBit_mod_two_pow]
  by_cases h1 : lo ≤ n ∧ n ≤ hi
  · have : n < 32 := by omega
    have : n - lo < hi - lo + 1 := by omega
    simp [*]
  · by_cases h2 : lo ≤ n
    · have h3 : ¬ n ≤ hi := fun e => h1 ⟨h2, e⟩
      have : ¬ (n - lo < hi - lo + 1) := by omega
      by_cases hn : n < 32
      · simp [*]
      · have : w.getLsbD n = false := BitVec.getLsbD_of_ge w n (by omega)
        simp [*]
    · by_cases hn : n < 32
      · simp [*]
      · have : w.getLsbD n = false := BitVec.getLsbD_of_ge w n (by omega)
        simp [*]

theorem testBit_wbits (w : Word) (hi lo n : Nat) :
    (wbits w hi lo).testBit n = (decide (n < hi - lo + 1) && w.getLsbD (lo + n)) := by
  unfold wbits bitsN
  rw [Nat.testBit_mod_two_pow, Nat.testBit_div_two_pow]
  simp [BitVec.getLsbD, Nat.add_comm]

/-- A field just written reads what was written, modulo its size. -/
@[simp] theorem wbits_wput_same (w : Word) (hi lo v : Nat) (hhi : hi < 32) (h : lo ≤ hi) :
    wbits (wput w hi lo v) hi lo = v % 2 ^ (hi - lo + 1) := by
  apply Nat.eq_of_testBit_eq
  intro n
  rw [testBit_wbits, Nat.testBit_mod_two_pow, getLsbD_wput w hi lo v _ hhi h]
  by_cases hn : n < hi - lo + 1
  · have : lo ≤ lo + n ∧ lo + n ≤ hi := by omega
    simp [hn, this]
  · simp [hn]

/-- A field that shares no bit with the field written reads as before. -/
theorem wbits_wput_other (w : Word) (hi lo v hi' lo' : Nat) (hhi : hi < 32) (h : lo ≤ hi)
    (hd : hi < lo' ∨ hi' < lo) (h' : lo' ≤ hi') :
    wbits (wput w hi lo v) hi' lo' = wbits w hi' lo' := by
  apply Nat.eq_of_testBit_eq
  intro n
  rw [testBit_wbits, testBit_wbits, getLsbD_wput w hi lo v _ hhi h]
  by_cases hn : n < hi' - lo' + 1
  · have : ¬ (lo ≤ lo' + n ∧ lo' + n ≤ hi) := by omega
    simp [this]
  · simp [hn]

/-! ### Registers -/

/-- A register just written reads what was written; every other reads as before. -/
@[simp] theorem State.reg_setReg (s : State) (k j : Nat) (v : Word) :
    (s.setReg k v).reg j = if j = k then v else s.reg j := by
  simp [State.reg, State.setReg]

/-- A field write reaches its own register alone. -/
theorem State.reg_setFld (s : State) (k hi lo v j : Nat) :
    (s.setFld k hi lo v).reg j = if j = k then wput (s.reg k) hi lo v else s.reg j := by
  simp [State.setFld]

@[simp] theorem State.reg_setFld_ne (s : State) (k hi lo v j : Nat) (h : j ≠ k) :
    (s.setFld k hi lo v).reg j = s.reg j := by
  simp [State.reg_setFld, h]

/-- A field just written reads what was written, modulo its size. -/
theorem State.fld_setFld_same (s : State) (k hi lo v : Nat) (hhi : hi < 32) (h : lo ≤ hi) :
    (s.setFld k hi lo v).fld k hi lo = v % 2 ^ (hi - lo + 1) := by
  simp [State.fld, State.reg_setFld, wbits_wput_same _ _ _ _ hhi h]

/-- Another field of the register reads as before. -/
theorem State.fld_setFld_other (s : State) (k hi lo v hi' lo' : Nat) (hhi : hi < 32) (h : lo ≤ hi)
    (hd : hi < lo' ∨ hi' < lo) (h' : lo' ≤ hi') :
    (s.setFld k hi lo v).fld k hi' lo' = s.fld k hi' lo' := by
  simp [State.fld, State.reg_setFld, wbits_wput_other _ _ _ _ _ _ hhi h hd h']

@[simp] theorem State.fld_setFld_ne (s : State) (k hi lo v j hi' lo' : Nat) (h : j ≠ k) :
    (s.setFld k hi lo v).fld j hi' lo' = s.fld j hi' lo' := by
  simp [State.fld, h]

@[simp] theorem State.reg_setBit_ne (s : State) (k n : Nat) (b : Bool) (j : Nat) (h : j ≠ k) :
    (s.setBit k n b).reg j = s.reg j := by
  simp [State.setBit, h]

/-- A bit just written reads what was written; every other bit of the register reads as before. -/
theorem State.bit_setBit (s : State) (k n : Nat) (b : Bool) (m : Nat) (hn : n < 32) :
    (s.setBit k n b).bit k m = if m = n then b else s.bit k m := by
  unfold State.setBit State.bit
  rw [State.reg_setFld, if_pos rfl, getLsbD_wput _ _ _ _ _ hn (Nat.le_refl n)]
  by_cases hm : m = n
  · subst hm
    cases b <;> simp
  · have : ¬ (n ≤ m ∧ m ≤ n) := by omega
    simp [this, hm]

theorem State.reg_emit (s : State) (e : Emit) (j : Nat) : (s.emit e).reg j = s.reg j := rfl

theorem State.reg_setMachine (s : State) (m : Nat) (x : StepMachine) (j : Nat) : (s.setMachine m x).reg j = s.reg j := rfl

/-- The machine just written reads what was written; every other reads as before. -/
@[simp] theorem State.machine_setMachine (s : State) (m k : Nat) (x : StepMachine) :
    (s.setMachine m x).machine k = if k = m then x else s.machine k := by
  simp [State.machine, State.setMachine]

@[simp] theorem State.machine_setReg (s : State) (k : Nat) (v : Word) (m : Nat) : (s.setReg k v).machine m = s.machine m := rfl
@[simp] theorem State.machine_setFld (s : State) (k hi lo v m : Nat) : (s.setFld k hi lo v).machine m = s.machine m := rfl

/-! ### Completing a step-machine instruction -/

/-- What completing an instruction does: the machine takes its new content and PC, STATE follows RUN, nothing else
changes. -/
theorem State.stmDone_spec (s : State) (m : Nat) (x : StepMachine) (pc : Nat) :
    (s.stmDone m x pc).machine m = { x with pc := pc % 512, wait := .none }
    ∧ (∀ k, k ≠ m → (s.stmDone m x pc).machine k = s.machine k)
    ∧ (∀ off, off ≠ Reg.STM_STATUS m → (s.stmDone m x pc).reg off = s.reg off)
    ∧ (s.stmDone m x pc).stmState m = (if s.stmRun m then 1 else 0)
    ∧ (s.stmDone m x pc).fld (Reg.STM_STATUS m) 28 0 = s.fld (Reg.STM_STATUS m) 28 0
    ∧ s.stmDone m x pc = { s with stm := (s.stmDone m x pc).stm, regs := (s.stmDone m x pc).regs } := by
  have hr : (s.setMachine m { x with pc := pc % 512, wait := .none }).stmRun m = s.stmRun m := rfl
  refine ⟨?_, ?_, ?_, ?_, ?_, rfl⟩
  · simp [State.stmDone, State.stmGo, State.setStmState]
  · intro k hk
    simp [State.stmDone, State.stmGo, State.setStmState, hk]
  · intro off ho
    simp [State.stmDone, State.stmGo, State.setStmState, ho, State.reg_setMachine]
  · unfold State.stmDone State.stmGo State.setStmState State.stmState
    rw [State.fld_setFld_same _ _ _ _ _ (by omega) (by omega), hr]
    cases s.stmRun m <;> rfl
  · unfold State.stmDone State.stmGo State.setStmState
    rw [State.fld_setFld_other _ _ _ _ _ _ _ (by omega) (by omega) (by omega) (by omega)]
    rfl

end Sys2Proof.Machine
end

