-- ==== Sys2Proof/WellFormed.lean ====
section
/-!
DEFINITION. WellFormed.lean: the ranges of the operands of each command, as the spec numbers its registers, ports, lanes,
queues, ranks, streams and the rest. The meanings are total: a command whose operand is out of range completes too.
-/
namespace Sys2Proof

/-- An offset within BAR0, 16 MiB (R75). -/
def inBar0 (off : Nat) : Bool := decide (off < 2 ^ 24)

/-- An 8-bit field: an opcode, a decoder context (R19), a PTP domain. -/
def isByte (n : Nat) : Bool := decide (n < 256)

/-- A step machine: 0 to 39 ingest, 40 to 63 output, 64 touch (R118). -/
def isReel (m : Nat) : Bool := decide (m ≤ 64)

/-- A host queue (R132). -/
def isQueue (q : Nat) : Bool := decide (q < 16)

/-- A J-Link port by its number in R56. -/
def isPort (p : Nat) : Bool :=
  decide (p < 40) || (decide (64 ≤ p) && decide (p < 88)) || (decide (112 ≤ p) && decide (p < 116)) || p == 120
    || p == 121

/-- A receive lane of a J-Link port: the lane BK of OUTn, four data lanes of any other (R176, R185). -/
def isLane (p k : Nat) : Bool := isPort p && decide (k < if 64 ≤ p ∧ p < 88 then 1 else 4)

/-- The bytes of a J-Link packet: at most 16 KiB of payload, its header and its CRC (R189, R190). -/
def isPacket (b : List Byte) : Bool := decide (b.length ≤ 16384 + 32)

/-- A canvas node, N0 to N255 (R15). -/
def isNode (n : Nat) : Bool := decide (n < 256)

/-- A stream, S0 to S4095 (R15). -/
def isStream (n : Nat) : Bool := decide (n < 4096)

/-- An output, and the touch head of one (R466). -/
def isOut (n : Nat) : Bool := decide (n < 24)

/-- A rank of DRAM: 4 of each of 4 channels (R273). -/
def isRank (r : Nat) : Bool := decide (r < 16)

/-- Every operand of the command is in its range. -/
def Instr.wf : Instr → Bool
  | .registerWrite _ off _ => inBar0 off
  | .levelKey _ _ => true
  | .keyWindowExpire => true
  | .levelStatusClose _ => true
  | .bar2BaseWrite _ _ => true
  | .bar2Access off n data => match data with
    | some l => decide (off + l.length ≤ 2 ^ 28) && decide (l.length ≤ 512)
    | none => decide (off + n ≤ 2 ^ 28) && decide (n ≤ 4096)
  | .defaultTargetAccess _ m _ dram addr _ beats => decide (m < 16) && decide (0 < beats)
    && (if dram then decide (addr < 2 ^ 40) else inBar0 addr)
  | .intStatusWrite _ k _ => decide (k < 28)
  | .intForce _ k _ => decide (k < 28)
  | .msixUnmask _ vec => decide (vec < 64)
  | .hostLinkReset => true
  | .pcieLinkLoss => true
  | .spiRegWrite _ => true
  | .spiRegRead addr count _ => inBar0 addr && decide (count < 256)
  | .spiDramWrite _ => true
  | .spiDramRead addr count _ => decide (addr < 2 ^ 40) && decide (count < 256)
  | .getStatus => true
  | .spiOtherOpcode op => isByte op
  | .getVersion _ => true
  | .imageLoad _ => true
  | .imageCheck => true
  | .loadAck _ _ => true
  | .copyWrite _ => true
  | .copyCheck _ => true
  | .keyProvision _ => true
  | .keyRevoke _ => true
  | .keyStatus _ => true
  | .genFloorSet _ => true
  | .patchInstall _ => true
  | .patchRemove _ => true
  | .healthReport _ => true
  | .historyRead _ => true
  | .mboxBadOp _ op => isByte op
  | .mboxReply _ => true
  | .mboxTimeout => true
  | .mboxAck _ _ => true
  | .lockstepMismatch => true
  | .supervisorRestartDone => true
  | .nop m => isReel m
  | .movi m => isReel m
  | .movh m => isReel m
  | .mov m => isReel m
  | .add m => isReel m
  | .addi m => isReel m
  | .sub m => isReel m
  | .and m => isReel m
  | .andi m => isReel m
  | .or m => isReel m
  | .ori m => isReel m
  | .xor m => isReel m
  | .shl m => isReel m
  | .shr m => isReel m
  | .cmp m => isReel m
  | .cmpi m => isReel m
  | .br m => isReel m
  | .call m => isReel m
  | .ret m => isReel m
  | .ld m => isReel m
  | .st m => isReel m
  | .inTap m => isReel m
  | .inAnc m => isReel m
  | .inLine m => isReel m
  | .inProposal m => isReel m
  | .inResume m => isReel m
  | .outAlarm m => isReel m
  | .outGpio m => isReel m
  | .outNote m => isReel m
  | .outTapX m => isReel m
  | .outTapY m => isReel m
  | .outAlive m => isReel m
  | .outLineSet m => isReel m
  | .outHeadCtrl m => isReel m
  | .outDecide m => isReel m
  | .waite m => isReel m
  | .waiteWake m => isReel m
  | .clre m => isReel m
  | .rdts m => isReel m
  | .halt m => isReel m
  | .stmFault m => isReel m
  | .illegalInstruction m _ => isReel m
  | .alarmTimeReached m => isReel m
  | .stmRun _ m _ => isReel m
  | .stmRestart _ m => isReel m
  | .kick _ m => isReel m
  | .stmGrant _ m g => isReel m && decide (g < 16)
  | .stmWords _ m n => isReel m && decide (n < 1024)
  | .progDataWrite _ _ => true
  | .progDataRead _ => true
  | .qTailWrite _ q _ => isQueue q
  | .qRun _ q _ => isQueue q
  | .qAbort _ q => isQueue q
  | .lostClr _ q => isQueue q
  | .evRdWrite _ q _ => isQueue q
  | .cmdNop q => isQueue q
  | .setSource q => isQueue q
  | .setGeometry q => isQueue q
  | .setBlend q => isQueue q
  | .setGuard q => isQueue q
  | .setFreeze q => isQueue q
  | .flip q => isQueue q
  | .dma q => isQueue q
  | .dmaComplete _ => true
  | .fenceSignalAccept q => isQueue q
  | .fenceSignalCommit q => isQueue q
  | .fenceWait q => isQueue q
  | .fenceWaitSatisfied q => isQueue q
  | .waitTimeout q => isQueue q
  | .waitCommit q => isQueue q
  | .waitCommitDone q => isQueue q
  | .cmdRegWrite q => isQueue q
  | .tableWrite q => isQueue q
  | .touchZone q => isQueue q
  | .decCtrlStop q => isQueue q
  | .decCtrlStart q => isQueue q
  | .decCtrlDiscard q => isQueue q
  | .encCtrlStop q => isQueue q
  | .encCtrlStart q => isQueue q
  | .encCtrlIrap q => isQueue q
  | .mark q => isQueue q
  | .cmdBadOp q => isQueue q
  | .commitPoint k => decide (k < 8)
  | .memoryNodeFlip n => isNode n
  | .porstNFall => true
  | .resetNAssert => true
  | .resetCtrl _ _ => true
  | .resetRelease straps _ => decide (straps < 64)
  | .strapReread straps _ => decide (straps < 64)
  | .refclkLoss => true
  | .rootLockLoss => true
  | .rootLocked _ => true
  | .registersReady fitted => decide (fitted < 2 ^ 16)
  | .dramTrainingDone density checked => decide (density < 2) && decide (checked < 2 ^ 32)
  | .bootLoad => true
  | .twinListenEnd => true
  | .sideBSilenceExpire => true
  | .cascadeWaitExpire => true
  | .blockReceived port k _ bits => isLane port k && decide (bits.length = 640)
  | .eidleEnter port k => isLane port k
  | .laneIdleDetect port k _ => isLane port k
  | .laneActiveDetect port k _ => isLane port k
  | .videoFsRx n b => decide (n < 40) && isPacket b
  | .videoLineRx n b => decide (n < 40) && isPacket b
  | .videoFeRx n b => decide (n < 40) && isPacket b
  | .headStatusRx n b => decide (n < 24) && isPacket b
  | .touchRawRx n b => decide (n < 24) && isPacket b
  | .idleRx port b => decide (112 ≤ port) && isPort port && isPacket b
  | .idleSend => true
  | .cntClr _ k _ => decide (8 ≤ k) && decide (k ≤ 10)
  | .ethFrameRx n _ => decide (n < 8)
  | .linkDown l => (match l with | .lock n => decide (n < 8) | .ref => true)
  | .linkUp n => decide (n < 8)
  | .igmpQuery n q => decide (n < 8) && (match q.group with | some g => decide (g.length = 16) | none => true)
  | .reportRepeat => true
  | .gapLost c => isByte c
  | .ssrcSwitch c => isByte c
  | .rtcpSr c _ ntpSec ntpFrac _ => isByte c && decide (ntpSec < 2 ^ 32) && decide (ntpFrac < 2 ^ 32)
  | .pictureDecodeStart k => decide (k < 8)
  | .pictureDecoded k _ => decide (k < 8)
  | .decTimeout k _ => decide (k < 8)
  | .ptpAnnounce n domain _ _ => decide (n < 8) && isByte domain
  | .ptpSample _ => true
  | .masterLost => true
  | .rearmStep _ => true
  | .servoHold _ _ => true
  | .addendWrite _ _ _ => true
  | .ptpCfgWrite _ _ => true
  | .almanac => true
  | .frameRefEdge => true
  | .fclkRefLost k => decide (k < 8)
  | .tpoArm _ k _ => decide (k < 8)
  | .tpoEdge k => decide (k < 8)
  | .memRequest port _ addr data => decide (port < 8) && decide (addr < 2 ^ 38) && decide (data.length ≤ 128)
  | .dramCommandIssue c refs banks ecc => decide (c < 4) && refs.all isRank && banks.all (fun b => decide (b < 512))
    && ecc.all (fun e => decide (e ≤ 11))
  | .refreshTick r => isRank r
  | .mr4Read r need => isRank r && decide (need < 3)
  | .selfRefreshEntry r => isRank r
  | .spareFillDone r => isRank r
  | .trainingPassDone n pt rd wr => isRank n && decide (pt < 2) && isByte rd && isByte wr
  | .trainingPassTimeout r => isRank r
  | .retrain r result => isRank r && (match result with | some x => decide (x < 3) | none => true)
  | .opSwitchRequest _ _ => true
  | .opSwitch _ => true
  | .switchHoldExpire _ => true
  | .writeCrcAlert addr port _ => decide (addr < 2 ^ 38) && decide (port < 8)
  | .scrubStep ecc => ecc.all (fun e => decide (e ≤ 11))
  | .retire _ n => isRank n
  | .retireClear _ n => isRank n
  | .migrationDone => true
  | .statClr _ => true
  | .statClrAll _ => true
  | .blkSubmit _ _ => true
  | .compress => true
  | .decompress => true
  | .verify => true
  | .jobDone => true
  | .blkAbort _ => true
  | .blkResultAck _ _ => true
  | .segmentComplete n _ _ => isNode n
  | .prescalerBand n _ => isStream n
  | .rasterLine n _ => isOut n
  | .scanFaultHoldEnd n => isOut n
  | .chkStart _ c => decide (c < 64)
  | .chkFinish _ c => decide (c < 64)
  | .chkData _ _ => true
  | .chkCtxWrite _ _ _ => true
  | .ageTick => true
  | .encLatch e => decide (e < 4)
  | .encPictureDone e => decide (e < 4)
  | .encRingRdWrite _ e _ => decide (e < 4)
  | .touchHeadLost h => isOut h
  | .mapCapture _ h => isOut h
  | .mapWritten h => isOut h
  | .rateStepDown h => isOut h
  | .proposalTimeout h kind => isOut h && decide (kind < 4)
  | .zoneTimeout h z => isOut h && decide (z < 64)
  | .longHold h _ => isOut h
  | .touchRingRdWrite _ h _ => isOut h
  | .touchRingWrite _ h _ => isOut h
  | .heartbeatSend => true
  | .heartbeatRx n b => decide (n < 2) && isPacket b
  | .hornpipeLost n => decide (n < 2)
  | .maypoleToggle => true
  | .maypoleEdge _ => true
  | .maypoleSilent => true
  | .pathEvaluation => true
  | .sealPoint => true
  | .epochDecision => true
  | .mirrorData n b => decide (n < 2) && isPacket b
  | .seal n b => decide (n < 2) && isPacket b
  | .mirrorAck n b => decide (n < 2) && isPacket b
  | .mirrorNack n b => decide (n < 2) && isPacket b
  | .commit n b => decide (n < 2) && isPacket b
  | .slip n b => decide (n < 2) && isPacket b
  | .sig n b => decide (n < 2) && isPacket b
  | .resyncReq n b => decide (n < 2) && isPacket b
  | .snapshot n b => decide (n < 2) && isPacket b
  | .mirrorImage n b => decide (n < 2) && isPacket b
  | .verdict n b => decide (n < 2) && isPacket b
  | .verdictTimeout => true
  | .handover _ => true
  | .resync _ => true
  | .takeoverAck _ => true
  | .healthTest item _ _ => decide (item < 10)
  | .cascadeTimeSend => true
  | .cascadeTimeRx n b => decide (n < 4) && isPacket b
  | .cascadePortDown n => decide (n < 4)
  | .memberLost m => decide (m < 8)
  | .subscribe n b => decide (n < 4) && isPacket b
  | .unsubscribe n b => decide (n < 4) && isPacket b
  | .subAns n b => decide (n < 4) && isPacket b
  | .subscribeRetry => true
  | .surfaceSegRx n b => decide (n < 4) && isPacket b
  | .relayReq n b => decide (n < 4) && isPacket b
  | .relayAns n b => decide (n < 4) && isPacket b
  | .relayTimeout => true
  | .relayGo _ => true
  | .relayAck _ _ => true
  | .cmdFwd n b => decide (n < 4) && isPacket b
  | .cmdAns n b => decide (n < 4) && isPacket b
  | .cmdFwdTimeout q => isQueue q
  | .commitWaitExpire => true
  | .voltAlarm m mv => decide (m < 16) && decide (mv < 2 ^ 16)
  | .supplyReset m mv => decide (m < 16) && decide (mv < 2 ^ 16)
  | .tempSample u c => decide (u < 16) && decide (-40 ≤ c) && decide (c ≤ 125)
  | .thermalTrip u c => decide (u < 16) && decide (115 ≤ c)
  | .voltAlarmClear => true
  | .pcieLinkUp => true
  | .pcieError _ => true

end Sys2Proof
end

