-- ==== Sys2Proof/Tests/Slice0.lean ====
section
/-!
SUPPORT. Tests/Slice0.lean: well-formed commands and ill-formed ones, the spec's worked values, and for every statement
of Certificates/Slice0/Obligations.lean a state and operands that meet the hypotheses of each of its clauses.
-/
namespace Sys2Proof.Tests
open Sys2Proof Sys2Proof.Machine

-- Each witness is checked in turn: checked side by side they take more memory than one process may have.
set_option Elab.async false

/-- A device with a loaded structure, its clocks running and its PCIe link up, with words written to registers. -/
def up (l : List (Nat × Word)) : State :=
  l.foldl (fun s e => s.setReg e.1 e.2)
    { State.reset with regs := [(Reg.SYS_BOOT_STAGE, 5)],
                       boot := { porst := true, inReset := false, strapsDone := true },
                       tim := { running := true }, host := { pcieUp := true } }

/-- Bytes from numbers. -/
def bytes (l : List Nat) : List Byte := l.map (BitVec.ofNat 8)

/-- A body of `n` bytes that begins with given numbers, the rest zero. -/
def body (n : Nat) (l : List Nat) : List Byte := bytes (l ++ List.replicate (n - l.length) 0)

/-- A state whose structure holds records. -/
def withRecs (s : State) (l : List Rec) : State := { s with ld := { s.ld with loaded := true, gen := 1, recs := l } }

/-! ### Well-formed commands -/

/-- A frame and a decoded picture, of which no check asks anything. -/
def anyFrame : EthFrame :=
  { len := 64, fcsOk := true, fifoFull := false, valid := true, sumOk := true, vlan := 0, ipv6 := false, dst := [], src := [],
    udp := 0, content := .ptp 0 .other }
def anyPicture : Decoded :=
  { badNal := false, poc := 0, refs := [], accesses := [], samples := [], skips := 0, blocks := 0, motion := [], rowBits := [],
    noPrior := false, unref := [],
    seq := { profile := .main, level := 40, highTier := false, interlaced := false, mono := false, otherFeature := false,
             depth := 8, codedW := 64, codedH := 64, w := 64, h := 64, dpb := 1, reorder := none } }

/-- Every command of a list is refused. -/
def refusesAll (l : List Instr) : Bool := l.all fun i => !i.wf

/-- Operands at the ends of their ranges. -/
theorem test_wf_accepts : ([.registerWrite .pcie 16777215 0, .bar2Access 268435455 1 none, .bar2Access 0 0 (some [0]),
    .defaultTargetAccess .spi 15 false true 1099511627775 8 1, .intForce .pcie 27 0, .msixUnmask .pcie 63,
    .spiOtherOpcode 255, .nop 64, .qAbort .pcie 15, .commitPoint 7, .memoryNodeFlip 255,
    .blockReceived 121 3 0 (List.replicate 640 true), .eidleEnter 87 0] : List Instr).all Instr.wf = true
    ∧ ([.videoFsRx 39 [], .idleRx 112 [], .igmpQuery 7 ⟨true, false, none⟩, .gapLost 255, .refreshTick 15, .retrain 0 (some 2),
    .prescalerBand 4095 0, .rasterLine 23 0, .chkStart .pcie 63, .zoneTimeout 23 63, .healthTest 9 0 .pass,
    .tempSample 15 (-40), .thermalTrip 15 115, .pictureDecoded 7 anyPicture, .ethFrameRx 7 anyFrame] : List Instr).all
      Instr.wf = true := by decide +kernel

/-- Each check of bytes nodes and offsets refuses. -/
theorem test_wf_refuses_bytes_nodes_and_offsets :
    refusesAll
      [.registerWrite .pcie 16777216 0, .spiRegRead 16777216 0 0, .spiOtherOpcode 256, .mboxBadOp .pcie 256,
       .memoryNodeFlip 256, .idleRx 40 [], .gapLost 256, .ssrcSwitch 256, .rtcpSr 256 0 0 0 0,
       .ptpAnnounce 0 256 ⟨0, 0, []⟩ 50, .trainingPassDone 0 0 256 0, .trainingPassDone 0 0 0 256,
       .segmentComplete 256 0 0, .prescalerBand 4096 0] = true := by decide +kernel

/-- Each check of numbers refuses. -/
theorem test_wf_refuses_numbers :
    refusesAll
      [.defaultTargetAccess .pcie 16 true true 0 0 1, .defaultTargetAccess .pcie 0 true true 0 0 0,
       .intStatusWrite .pcie 28 0, .intForce .pcie 28 0, .msixUnmask .pcie 64, .spiRegRead 0 256 0,
       .spiDramRead 1099511627776 0 0, .spiDramRead 0 256 0, .stmGrant .pcie 0 16, .stmWords .pcie 0 1024,
       .commitPoint 8, .resetRelease 64 true, .strapReread 64 true, .registersReady 65536, .dramTrainingDone 2 0,
       .dramTrainingDone 0 4294967296, .videoFsRx 40 [], .videoLineRx 40 [], .videoFeRx 40 [], .headStatusRx 24 [],
       .touchRawRx 24 [], .idleRx 111 [], .cntClr .pcie 7 0, .cntClr .pcie 11 0, .ethFrameRx 8 anyFrame,
       .linkDown (.lock 8), .linkUp 8, .igmpQuery 8 ⟨true, true, none⟩, .rtcpSr 0 0 4294967296 0 0,
       .rtcpSr 0 0 0 4294967296 0, .pictureDecodeStart 8, .pictureDecoded 8 anyPicture, .decTimeout 8 anyPicture,
       .ptpAnnounce 8 0 ⟨0, 0, []⟩ 50, .fclkRefLost 8, .tpoArm .pcie 8 0, .tpoEdge 8, .memRequest 8 true 0 [],
       .memRequest 0 true 274877906944 [], .dramCommandIssue 4 [] [] [], .mr4Read 0 3, .trainingPassDone 0 2 0 0,
       .writeCrcAlert 274877906944 0 true, .writeCrcAlert 0 8 true, .chkStart .pcie 64] = true
    ∧ refusesAll
      [.chkFinish .pcie 64, .encLatch 4, .encPictureDone 4, .encRingRdWrite .pcie 4 0, .proposalTimeout 0 4,
       .zoneTimeout 0 64, .heartbeatRx 2 [], .hornpipeLost 2, .mirrorData 2 [], .seal 2 [], .mirrorAck 2 [],
       .mirrorNack 2 [], .commit 2 [], .slip 2 [], .sig 2 [], .resyncReq 2 [], .snapshot 2 [], .mirrorImage 2 [],
       .verdict 2 [], .healthTest 10 0 .pass, .cascadeTimeRx 4 [], .cascadePortDown 4, .memberLost 8,
       .subscribe 4 [], .unsubscribe 4 [], .subAns 4 [], .surfaceSegRx 4 [], .relayReq 4 [], .relayAns 4 [],
       .cmdFwd 4 [], .cmdAns 4 [], .voltAlarm 16 0, .voltAlarm 0 65536, .supplyReset 16 0, .supplyReset 0 65536,
       .tempSample 16 50, .tempSample 0 126, .thermalTrip 16 115, .thermalTrip 0 114, .bar2Access 268435456 1 none,
       .bar2Access 268435455 0 (some [0, 0]), .defaultTargetAccess .pcie 0 true true 1099511627776 0 1,
       .defaultTargetAccess .pcie 0 true false 16777216 0 1, .blockReceived 0 0 0 (List.replicate 639 true),
       .igmpQuery 0 ⟨false, false, some []⟩] = true
    ∧ refusesAll
      [.memRequest 0 true 0 (List.replicate 129 0), .dramCommandIssue 0 [] [512] [], .retrain 0 (some 3),
       .tempSample 0 (-41), .scrubStep [12]] = true := by decide +kernel

/-- Each check of reels refuses. -/
theorem test_wf_refuses_reels :
    refusesAll
      [.nop 65, .movi 65, .movh 65, .mov 65, .add 65, .addi 65, .sub 65, .and 65, .andi 65, .or 65, .ori 65, .xor 65,
       .shl 65, .shr 65, .cmp 65, .cmpi 65, .br 65, .call 65, .ret 65, .ld 65, .st 65, .inTap 65, .inAnc 65,
       .inLine 65, .inProposal 65, .inResume 65, .outAlarm 65, .outGpio 65, .outNote 65, .outTapX 65, .outTapY 65,
       .outAlive 65, .outLineSet 65, .outHeadCtrl 65, .outDecide 65, .waite 65, .waiteWake 65, .clre 65, .rdts 65,
       .halt 65, .stmFault 65, .illegalInstruction 65 true, .alarmTimeReached 65, .stmRun .pcie 65 true,
       .stmRestart .pcie 65] = true
    ∧ refusesAll
      [.kick .pcie 65, .stmGrant .pcie 65 0, .stmWords .pcie 65 0] = true := by decide +kernel

/-- Each check of queues refuses. -/
theorem test_wf_refuses_queues :
    refusesAll
      [.qTailWrite .pcie 16 0, .qRun .pcie 16 true, .qAbort .pcie 16, .lostClr .pcie 16, .evRdWrite .pcie 16 0,
       .cmdNop 16, .setSource 16, .setGeometry 16, .setBlend 16, .setGuard 16, .setFreeze 16, .flip 16, .dma 16,
       .fenceSignalAccept 16, .fenceSignalCommit 16, .fenceWait 16, .fenceWaitSatisfied 16, .waitTimeout 16,
       .waitCommit 16, .waitCommitDone 16, .cmdRegWrite 16, .tableWrite 16, .touchZone 16, .decCtrlStop 16,
       .decCtrlStart 16, .decCtrlDiscard 16, .encCtrlStop 16, .encCtrlStart 16, .encCtrlIrap 16, .mark 16,
       .cmdBadOp 16, .cmdFwdTimeout 16] = true := by decide +kernel

/-- Each check of packets refuses. -/
theorem test_wf_refuses_packets :
    refusesAll
      [.videoFsRx 0 (List.replicate 16417 0), .videoLineRx 0 (List.replicate 16417 0),
       .videoFeRx 0 (List.replicate 16417 0), .headStatusRx 0 (List.replicate 16417 0),
       .touchRawRx 0 (List.replicate 16417 0), .idleRx 112 (List.replicate 16417 0),
       .heartbeatRx 0 (List.replicate 16417 0), .mirrorData 0 (List.replicate 16417 0),
       .seal 0 (List.replicate 16417 0), .mirrorAck 0 (List.replicate 16417 0),
       .mirrorNack 0 (List.replicate 16417 0), .commit 0 (List.replicate 16417 0), .slip 0 (List.replicate 16417 0),
       .sig 0 (List.replicate 16417 0), .resyncReq 0 (List.replicate 16417 0), .snapshot 0 (List.replicate 16417 0),
       .mirrorImage 0 (List.replicate 16417 0), .verdict 0 (List.replicate 16417 0),
       .cascadeTimeRx 0 (List.replicate 16417 0), .subscribe 0 (List.replicate 16417 0),
       .unsubscribe 0 (List.replicate 16417 0), .subAns 0 (List.replicate 16417 0),
       .surfaceSegRx 0 (List.replicate 16417 0), .relayReq 0 (List.replicate 16417 0),
       .relayAns 0 (List.replicate 16417 0), .cmdFwd 0 (List.replicate 16417 0), .cmdAns 0 (List.replicate 16417 0)] = true := by decide +kernel

/-- Each check of ranks refuses. -/
theorem test_wf_refuses_ranks :
    refusesAll
      [.refreshTick 16, .mr4Read 16 0, .selfRefreshEntry 16, .spareFillDone 16, .trainingPassDone 16 0 0 0,
       .trainingPassTimeout 16, .retrain 16 none, .retire .pcie 16, .retireClear .pcie 16,
       .dramCommandIssue 0 [15, 16] [] []] = true := by decide +kernel

/-- Each check of outputs refuses. -/
theorem test_wf_refuses_outputs :
    refusesAll
      [.rasterLine 24 0, .scanFaultHoldEnd 24, .touchHeadLost 24, .mapCapture .pcie 24, .mapWritten 24,
       .rateStepDown 24, .proposalTimeout 24 0, .zoneTimeout 24 0, .longHold 24 0, .touchRingRdWrite .pcie 24 0,
       .touchRingWrite .pcie 24 0] = true := by decide +kernel

/-- Each check of lanes refuses. -/
theorem test_wf_refuses_lanes :
    refusesAll
      [.blockReceived 0 4 0 (List.replicate 640 true), .blockReceived 64 1 0 (List.replicate 640 true),
       .eidleEnter 88 0, .laneIdleDetect 116 0 true, .laneActiveDetect 121 4 true] = true := by decide +kernel

/-! ### Witnesses: chapters 06 and 21 -/

/-- DeviceResetsKeepNonVolatileStore: a running device, one with X access, one whose clock root is locked, a supply
reading that resets. -/
theorem test_meets_device_resets : runs (up [(Reg.CLK_STATUS, 0x8000_0000)])
    ∧ (up [(Reg.CLK_STATUS, 0x8000_0000)]).bit Reg.CLK_STATUS 31 = true
    ∧ (up [(Reg.SYS_LEVEL_STATUS, 0x8000_0000)]).access .pcie = true
    ∧ (up [(Reg.SYS_LEVEL_STATUS, 0x8000_0000)]).xOpen = true ∧ 100 * 1655 < 92 * railNominal 15 := by
  unfold runs; decide +kernel

/-- HeldDeviceStaysHeldUntilReleased: the machine at power-on is held, its queue is empty, and a step keeps it so. -/
theorem test_meets_held : State.reset.held ∧ State.reset.pending = [] ∧ step State.reset = .next State.reset :=
  ⟨.inl ⟨State.reset, true, 0, by decide +kernel⟩, rfl, rfl⟩

/-- StartUpStagesFollowReset: the five situations of start-up, a fitted rank trained in the last. -/
theorem test_meets_startup : State.reset.boot.inReset = true ∧ State.reset.boot.stopped = false
    ∧ State.reset.bit Reg.CLK_STATUS 31 = false
    ∧ ({ State.reset with boot := { porst := true, inReset := false, strapTries := 2 } } : State).boot.strapsDone = false
    ∧ runs (up []) ∧ (up []).bit Reg.CLK_STATUS 31 = false
    ∧ (up [(Reg.SYS_BOOT_STAGE, 1)]).fld Reg.SYS_BOOT_STAGE 3 0 = 1
    ∧ (up [(Reg.SYS_BOOT_STAGE, 3), (Reg.MEM_RANK_STATUS 15, 0x4000_0000), (Reg.MEM_RANK_TRAIN 15, 3)]).fld Reg.SYS_BOOT_STAGE 3 0 = 3
    ∧ (∀ i, i < 16 → (up [(Reg.MEM_RANK_STATUS 15, 0x4000_0000), (Reg.MEM_RANK_TRAIN 15, 3)]).rankState i = 4 →
        (up [(Reg.MEM_RANK_STATUS 15, 0x4000_0000), (Reg.MEM_RANK_TRAIN 15, 3)]).trained i = true) := by
  unfold runs; decide +kernel

/-- A member whose structure waits for the ring. -/
def waitingMember (up' : Option Nat) : State :=
  { up [] with ld := { next := some (planOfImage [] .cascadeWait none) }, cas := { upstream := up' } }

/-- DiscoveryEndsInARole: a standby that hears nothing, on either side; a member that waits for the ring, without upstream
and with one. -/
theorem test_meets_discovery : (up [(Reg.TWN_STATUS, 0x4000_0000)]).standby = true
    ∧ (up [(Reg.TWN_STATUS, 0x4000_0000)]).twin.listened = false ∧ (up [(Reg.TWN_STATUS, 0x4000_0000)]).peerRole = 3
    ∧ (up [(Reg.TWN_STATUS, 0x4400_0000)]).standby = true ∧ (up [(Reg.TWN_STATUS, 0x4400_0000)]).sideNow = 1
    ∧ (up [(Reg.TWN_STATUS, 0x4400_0000)]).twin.met = false ∧ (up [(Reg.TWN_STATUS, 0x4400_0000)]).peerRole = 3
    ∧ (waitingMember none).ld.next = some (planOfImage [] .cascadeWait none)
    ∧ (planOfImage [] .cascadeWait none).phase = .cascadeWait ∧ (waitingMember none).cas.upstream = none
    ∧ (waitingMember (some 3)).cas.upstream ≠ none := by decide +kernel

/-- MonitorReadingsHoldTheirAlarms: a reading above nominal + 4 %, one at the threshold, one that trips. -/
theorem test_meets_monitors : runs (up []) ∧ 104 * railNominal 15 < 100 * 1873 ∧ (up []).bit Reg.THM_STATUS 29 = false
    ∧ (up []).condOn Blk.THM Flag.voltAlarm.place.2 = false ∧ (up []).tempThresh ≤ 125 ∧ (115 : Int) ≤ 115 := by
  unfold runs; decide +kernel

/-! ### Witnesses: chapter 03 -/

/-- X access open. -/
def opened : State := up [(Reg.SYS_LEVEL_STATUS, 0x8000_0000)]

/-- 32 GiB of HOT space. -/
def dramUp : State := up [(Reg.MEM_SPACE, 0x0020_0000)]

/-- RegisterWritesFollowAccessCodes: an ordinary register, an X register without X access, an unaligned offset. -/
theorem test_meets_register_writes : mayWrite (up []) .pcie
    ∧ basicReg Reg.CAS_RELAY_DATA ⟨0x1A0144, 0x4, 1, 0x4, 1, 0, 0xFFFF_FFFF, 0, 0, 0, 0, 0, false⟩
    ∧ (up []).access .spi = true ∧ (up []).xOpen = false ∧ (∃ d, Reg.find Reg.SYS_RESET_CTRL = some d ∧ d.xReg = true)
    ∧ (1 : Nat) % 4 ≠ 0 :=
  ⟨by unfold mayWrite; decide +kernel,
    ⟨by decide +kernel, by decide +kernel, by decide +kernel, by decide +kernel, by decide +kernel, fun _ _ _ _ _ => rfl⟩,
    by decide +kernel, by decide +kernel,
    ⟨⟨0x000208, 0x4, 1, 0x4, 1, 0, 0, 0, 0, 0xFFFF_FFFF, 0, 0xFFFF_FFFF, true⟩, by decide +kernel⟩, by decide⟩

/-- LevelKeyOpensXAccess: closed and unarmed, closed and armed. -/
theorem test_meets_level_key : (up []).access .pcie = true ∧ (up []).xOpen = false
    ∧ ({ up [] with host := { pcieUp := true, keyArmed := true } } : State).access .pcie = true
    ∧ ({ up [] with host := { pcieUp := true, keyArmed := true } } : State).xOpen = false
    ∧ (0xA559 : Word) ≠ 0x58A5 ∧ (0xA559 : Word) ≠ 0xA558 := by decide +kernel

/-- The last vector pending, MSI-X enabled. -/
def pendingVectors : State :=
  { up [] with host := { pcieUp := true, msixPending := 0x8000_0000_0000_0000, cfg := { enumerated := true } } }

/-- InterruptRegistersActAtOnce: the last block and bit, the last vector pending. -/
theorem test_meets_interrupts : 27 ∈ blocks ∧ mayWrite (up []) .pcie ∧ mayWriteX opened .pcie ∧ wbit 0x80 7 = true
    ∧ pendingVectors.access .pcie = true ∧ pendingVectors.msixOpen = true
    ∧ pendingVectors.host.msixPending.getLsbD 63 = true := by
  unfold mayWriteX mayWrite; decide +kernel

/-- Bar2ReachesHostRegions: the last byte of the host-accessible region, the first byte beyond it, requests of the greatest
size and past it. -/
theorem test_meets_bar2 : dramUp.access .pcie = true ∧ dramQuiet dramUp ∧ ([0x5A] : List Byte) ≠ []
    ∧ ([0x5A] : List Byte).length ≤ 512 ∧ 0 < 4096 ∧ 4096 ≤ 4096 ∧ 4096 < 4097 ∧ 512 < (List.replicate 513 (0 : Byte)).length
    ∧ dramUp.hostRange (dramUp.fld Reg.HIF_BAR2_BASE 17 0 * 2 ^ 20 + 0x3FF_F000) 4096 = true
    ∧ 0x3FF_FFFF + 1 ≤ 2 ^ 28
    ∧ dramUp.hostRange (dramUp.fld Reg.HIF_BAR2_BASE 17 0 * 2 ^ 20 + 0x3FF_FFFF) 1 = true
    ∧ dramUp.xOpen = false ∧ 0x400_0000 + 1 ≤ dramUp.dramSize
    ∧ dramUp.hostRange (dramUp.fld Reg.HIF_BAR2_BASE 17 0 * 2 ^ 20 + 0x400_0000) 1 = false := by
  unfold dramQuiet portsQuiet dramSound; decide +kernel

/-- DefaultTargetRecordsTheAccess: an offset that no register has. -/
theorem test_meets_default_target : (up []).access .pcie = true ∧ 0xFF_FFFC % 4 = 0 ∧ mapped 0xFF_FFFC = false
    ∧ (up []).bit Reg.BMX_ERR_INFO 31 = false := by decide +kernel

/-- HostLinkEventsSpareTheDevice. -/
theorem test_meets_host_link : (up []).inert = false ∧ (up []).condOn Blk.HIF 1 = false
    ∧ (up []).host.cfg.funcMask = false := by decide +kernel

/-- A REG_WRITE frame of one word to an offset, after its opcode. -/
def writeFrame (a : Nat) (v : Word) : List Byte :=
  beBytes 3 a ++ 0 :: beBytes 4 v.toNat ++ beBytes 2 (spiCrc (2 :: beBytes 3 a ++ 0 :: beBytes 4 v.toNat))

/-- SpiFramesOfOneWord: a register with X access closed, an X register, frames that are sound, unaligned and damaged, the
least count too large, the last word of DRAM, a device in reset. -/
theorem test_meets_spi : dramUp.ready = true ∧ Reg.CAS_RELAY_DATA % 4 = 0 ∧ Reg.CAS_RELAY_DATA < 2 ^ 24
    ∧ mapped Reg.CAS_RELAY_DATA = true ∧ Reg.isX Reg.CAS_RELAY_DATA = false ∧ Reg.CAS_RELAY_DATA ≠ Reg.STM_PROG_DATA
    ∧ spiCheck 2 3 [] = .badFrame
    ∧ spiCheck 2 3 (writeFrame 0xFF_FFFC 5) = .write 0xFF_FFFC [5] ∧ spiCheck 2 3 (writeFrame 0xFF_FFFD 5) = .unaligned
    ∧ mapped Reg.SYS_RESET_CTRL = true ∧ Reg.isX Reg.SYS_RESET_CTRL = true ∧ dramUp.xOpen = false ∧ 63 < 64 ∧ 64 < 256
    ∧ 0x7_FFFF_FFFC % 4 = 0 ∧ 0x7_FFFF_FFFC < 2 ^ 40 ∧ 0x7_FFFF_FFFC + 4 ≤ dramUp.dramSize
    ∧ dramQuiet dramUp ∧ dramUp.inert = false ∧ State.reset.inert = true := by
  unfold dramQuiet portsQuiet dramSound; decide +kernel

/-! ### Witnesses: the mailbox and the loader (chapters 02, 04) -/

/-- DRAM and X access, the mailbox free, its eight argument words given. -/
def mailed (l : List Word) : State :=
  ((List.range 8).foldl (fun (s : State) i => s.setReg (Reg.SVP_MBOX_ARG i) (l.getD i 0))
    (up [(Reg.MEM_SPACE, 0x0020_0000), (Reg.SYS_LEVEL_STATUS, 0x8000_0000)]))

/-- MailboxAnswersQuickRequests: the last history index, the opcodes beside the table, an image that ends with the
host-accessible region. -/
theorem test_meets_quick_requests : (mailed [0x0FFF]).access .pcie = true ∧ mboxOpen (mailed [0x0FFF])
    ∧ mboxArg (mailed [0x0FFF]) 0 < 4096 ∧ 12 < 13 ∧ mboxOpen (mailed [0x03FF_FF00, 0, 0x100])
    ∧ (mailed [0x03FF_FF00, 0, 0x100]).standby = false ∧ dramQuiet (mailed [0x03FF_FF00, 0, 0x100])
    ∧ 0 < mboxArg (mailed [0x03FF_FF00, 0, 0x100]) 2 ∧ mboxArg (mailed [0x03FF_FF00, 0, 0x100]) 2 ≤ 4194304
    ∧ mboxArg (mailed [0x03FF_FF00, 0, 0x100]) 1 < 64
    ∧ (mailed [0x03FF_FF00, 0, 0x100]).hostRange (mboxArg (mailed [0x03FF_FF00, 0, 0x100]) 0
        + mboxArg (mailed [0x03FF_FF00, 0, 0x100]) 1 * 2 ^ 32) (mboxArg (mailed [0x03FF_FF00, 0, 0x100]) 2) = true := by
  unfold mboxOpen dramQuiet portsQuiet dramSound mboxArg; decide +kernel

/-- MailboxSlowRequestsGoInProgress: each request with its arguments at the end of their ranges. -/
theorem test_meets_slow_requests :
    let c := mailed [0, 0, 0x40_0000, 2]
    let k := mailed [3, 0x03FF_FFE0, 0]
    let v : State := { mailed [0] with mram := { keys := [.mk .active [], .mk .active [], {}, {}], genFloor := 7 } }
    let g : State := { mailed [7] with mram := { genFloor := 7 }, ld := { gen := 7 } }
    let q := mailed [0x03FF_0000, 0, 0x1_0000]
    c.access .pcie = true ∧ mboxOpen c ∧ 0 < mboxArg c 2 ∧ mboxArg c 2 ≤ 4194304 ∧ mboxArg c 1 < 64 ∧ mboxArg c 3 < 3
    ∧ c.hostRange (mboxArg c 0 + mboxArg c 1 * 2 ^ 32) (mboxArg c 2) = true
    ∧ k.access .pcie = true ∧ mboxOpen k ∧ k.xOpen = true ∧ mboxArg k 0 < 4 ∧ mboxArg k 2 < 64
    ∧ (k.keySlot (mboxArg k 0)).state = .empty ∧ k.hostRange (mboxArg k 1 + mboxArg k 2 * 2 ^ 32) 32 = true
    ∧ v.access .pcie = true ∧ mboxOpen v ∧ v.xOpen = true ∧ mboxArg v 0 < 4 ∧ (v.keySlot (mboxArg v 0)).state = .active
    ∧ 1 < (v.mram.keys.filter fun k => k.state == .active).length
    ∧ g.access .pcie = true ∧ mboxOpen g ∧ g.xOpen = true ∧ g.mram.genFloor.toNat ≤ mboxArg g 0 ∧ mboxArg g 0 ≤ g.ld.gen
    ∧ q.access .pcie = true ∧ mboxOpen q ∧ q.xOpen = true ∧ 0 < mboxArg q 2 ∧ mboxArg q 2 ≤ 65536 ∧ mboxArg q 1 < 64
    ∧ q.hostRange (mboxArg q 0 + mboxArg q 1 * 2 ^ 32) (mboxArg q 2) = true := by
  unfold mboxOpen mboxArg; decide +kernel

/-- A request of an opcode in progress. -/
def asked (op : Nat) (a : List Word) : State := { up [] with svp := { req := some { op := op, args := a } } }

/-- MailboxCompletionDoesItsWork: the last key slot, and every request it speaks of but the copy writes of
`test_meets_copies`. -/
theorem test_meets_completion : (asked 5 [3, 0x1000, 0]).svpUp = true ∧ dramQuiet (asked 5 [3, 0x1000, 0])
    ∧ (asked 5 [3, 0x1000, 0]).svp.req = some { op := 5, args := [3, 0x1000, 0] }
    ∧ 3 < (asked 5 [3, 0x1000, 0]).mram.keys.length ∧ ([3, 0x1000, 0] : List Word).getD 0 0 = w32 3
    ∧ (asked 6 [3]).svpUp = true ∧ (asked 6 [3]).svp.req = some { op := 6, args := [3] }
    ∧ (asked 8 [7]).svpUp = true ∧ (asked 8 [7]).svp.req = some { op := 8, args := [7] }
    ∧ (asked 10 []).svpUp = true ∧ (asked 10 []).svp.req = some { op := 10, args := [] } ∧ 10 ≠ 3
    ∧ (asked 4 [0, 0, 0, 2]).svpUp = true ∧ (asked 4 [0, 0, 0, 2]).svp.req = some { op := 4, args := [0, 0, 0, 2] } := by
  unfold dramQuiet portsQuiet dramSound; decide +kernel

/-- ResultWindowsAreConsumedBySeq: every window READY with SEQ 255, a load result that waits, and a window that is not
READY. -/
theorem test_meets_windows :
    let s := up [(Reg.SVP_MBOX_STATUS, 0x80FF_0000), (Reg.BLK_RESULT, 0x80FF_0000), (Reg.CAS_RELAY_STATUS, 0x80FF_0000),
      (Reg.SYS_LOAD_STATUS, 0x80FF_0000)]
    s.access .pcie = true ∧ s.bit Reg.SVP_MBOX_STATUS 31 = true ∧ wbits 0xFF 7 0 = s.fld Reg.SVP_MBOX_STATUS 23 16
    ∧ s.bit Reg.BLK_RESULT 31 = true ∧ wbits 0xFF 7 0 = s.fld Reg.BLK_RESULT 23 16
    ∧ s.bit Reg.CAS_RELAY_STATUS 31 = true ∧ wbits 0xFF 7 0 = s.fld Reg.CAS_RELAY_STATUS 23 16
    ∧ s.bit Reg.SYS_LOAD_STATUS 31 = true ∧ wbits 0xFF 7 0 = s.fld Reg.SYS_LOAD_STATUS 23 16 ∧ s.ld.held = none
    ∧ ({ s with ld := { held := some ⟨0, 3, 1, 0, 0, false⟩ } } : State).access .pcie = true
    ∧ (up []).access .pcie = true ∧ (up []).bit Reg.SVP_MBOX_STATUS 31 = false := by decide +kernel

/-- LockstepMismatchRestartsTheSupervisor: the first mismatch, a second at the end of the window, a restart that ends. -/
theorem test_meets_lockstep :
    let b : State := { up [] with uptime := lockstepWindow, svp := { lastMismatch := some 0 } }
    let w : State := { up [] with tim := { slewing := true } }
    (up []).inert = false ∧ (up []).bit Reg.SVP_LOCKSTEP 31 = false ∧ (up []).svp.lastMismatch = none
    ∧ (up []).svp.req = none ∧ (up []).tim.slewing = false ∧ w.inert = false ∧ w.bit Reg.SVP_LOCKSTEP 31 = false
    ∧ w.svp.lastMismatch = none ∧ w.svp.req = none ∧ w.tim.slewing = true ∧ b.inert = false ∧ b.bit Reg.SVP_LOCKSTEP 31 = false ∧ b.paired = false
    ∧ b.svp.lastMismatch = some 0 ∧ b.uptime ≤ 0 + lockstepWindow
    ∧ ({ up [] with svp := { restarting := true, lostOp := some 2 } } : State).svp.restarting = true
    ∧ ({ up [] with svp := { restarting := true, lostOp := some 2 } } : State).svp.lostOp = some 2 := by decide +kernel

/-! ### Witnesses: images -/

/-- PUBKEY and SIG of TEST 1 of RFC 8032, 7.1: the empty message. -/
def testKey : List Byte := leBytes 32 0x1A5107F7681A02AF2523A6DAF372E10E3A0764C9D3FE4BD5B70AB18201985AD7
def testSig : List Byte := leBytes 64
  0x0B107A8E4341516524BE5B59F0F55BD26BB4F91C70391EC6AC3BA3901582B85F5501492265E073D874D9E5B81E7F87848A826E80CCE2869072AC60C3004356E5

/-- The signature of TEST 1 of RFC 8032, 7.1 verifies, and over another message it does not. -/
theorem test_ed25519_rfc8032 : ed25519 testKey testSig [] = true ∧ ed25519 testKey testSig [0x72] = false := by
  decide +kernel

/-- The digest of "abc" (FIPS 180-4, its published example). -/
theorem test_sha256_abc : sha256 (bytes [0x61, 0x62, 0x63])
    = (leBytes 32 0xBA7816BF_8F01CFEA_414140DE_5DAE2223_B00361A3_96177A9C_B410FF61_F20015AD).reverse := by decide +kernel

/-- A Rhanum image of one record with a signature of the key of `testKey` (R51 to R60). -/
def rhanum (delta gen base type : Nat) (rec : List Byte) (sig : Nat) : List Byte :=
  let crc := fun b => leBytes 4 (Crc.value Crc.crc32c b)
  let head := bytes [0x52, 0x48, 0x4E, 0x4D, 1, 0, 64, 0] ++ leBytes 4 delta ++ leBytes 4 gen ++ leBytes 4 base
    ++ leBytes 4 (80 + pad8 (12 + rec.length) + 128) ++ leBytes 4 1 ++ leBytes 4 64
    ++ body 28 [0x24, 0x40, 0xB1, 0xFF, 0xFF]
  let cat := leBytes 2 type ++ leBytes 2 0 ++ leBytes 4 80 ++ leBytes 4 rec.length
  let r := leBytes 2 type ++ leBytes 2 0 ++ leBytes 4 rec.length ++ rec
  head ++ crc head ++ cat ++ crc cat ++ r ++ crc r ++ List.replicate (pad8 (12 + rec.length) - 12 - rec.length) 0
    ++ (bytes [0x52, 0x53, 0x49, 0x47, 0, 1, 0, 0] ++ testKey ++ leBytes 64 sig ++ List.replicate 24 0)

/-- A full image: HOT ranks 0, 4, 8, 12 and a STAGING region; a delta that carries an informational record. -/
def fullImage : List Byte := rhanum 0 1 0 RT.DRAM_MAP (body 64 [1, 1, 1, 1, 0, 0, 0, 0, 1, 0, 0, 0, 0, 0, 0, 0, 0, 0, 0, 0x20, 64])
  0x037002B26DC674242698B13CC40C64B4A2198FF4254582B308EA0C8F0D7056E38AC4FEE9D7A141AEE8B3E13219964145F9A954840EFF0D812420D5CE87FABFE8
def deltaImage : List Byte := rhanum 1 2 1 0x8000 [0]
  0x08CB0F6AB860B936650DEE773D66259C538312A672CCD0C0595E607CF78C74A3B5171C2F47154E40B1DE1B72188D24C51CB6A61B818BB171B01AAEEFA8BD9934

/-- A structure with frame clock 0, an image submitted. -/
def submitted (b : List Byte) : State :=
  let s := withRecs (up []) [Rec.mk RT.FRAME_CLOCK 0 (body 16 [60, 0, 0, 0, 1, 0, 1])]
  { s with ld := { s.ld with submitted := [{ bytes := b }, { bytes := [] }] } }

/-- As `submitted`, on a standby. -/
def submittedStandby (b : List Byte) : State := (submitted b).setReg Reg.TWN_STATUS 0x4000_0000

/-- As `submitted`, on a twin active that hears its peer. -/
def submittedTwin (b : List Byte) : State :=
  (submitted b).setReg Reg.TWN_STATUS 0x8000_0000 |>.setReg Reg.TWN_PATHS 0x8000_0000

/-- ImageCheckPostsOneResult: no image at all, a full image and a delta that pass every check, and the same on an active
that hears its peer and on a standby. -/
theorem test_meets_image_check :
    let s := submitted fullImage
    let d := submitted deltaImage
    let w := submittedTwin fullImage
    let y := submittedStandby fullImage
    let n : State := { s with ld := { s.ld with submitted := [{ bytes := [] }] } }
    5 ≤ s.fld Reg.SYS_BOOT_STAGE 3 0 ∧ s.bit Reg.SYS_LOAD_STATUS 31 = false ∧ s.twin.verdict = none ∧ s.svpUp = true
    ∧ s.standby = false ∧ (s.active && s.hornpipeAny) = false ∧ (n.checkImage []).code ≠ 0 ∧ (s.checkImage fullImage).code = 0
    ∧ imgDelta (imgTrim fullImage) = false
    ∧ 5 ≤ d.fld Reg.SYS_BOOT_STAGE 3 0 ∧ d.bit Reg.SYS_LOAD_STATUS 31 = false ∧ d.twin.verdict = none ∧ d.svpUp = true
    ∧ d.standby = false ∧ (d.active && d.hornpipeAny) = false ∧ (d.checkImage deltaImage).code = 0 ∧ imgDelta (imgTrim deltaImage) = true
    ∧ 5 ≤ w.fld Reg.SYS_BOOT_STAGE 3 0 ∧ w.bit Reg.SYS_LOAD_STATUS 31 = false ∧ w.twin.verdict = none ∧ w.svpUp = true
    ∧ (w.active && w.hornpipeAny) = true ∧ (w.checkImage fullImage).code = 0
    ∧ 5 ≤ y.fld Reg.SYS_BOOT_STAGE 3 0 ∧ y.bit Reg.SYS_LOAD_STATUS 31 = false ∧ y.twin.verdict = none ∧ y.svpUp = true
    ∧ y.standby = true ∧ (y.checkImage fullImage).code = 0 := by decide +kernel

/-- Stage LOADING with boot copy C alone selected, or no copy. -/
def loading (straps : Word) (copy : List Byte) : State :=
  { up [(Reg.SYS_BOOT_STAGE, 4), (Reg.SYS_STRAPS, straps)] with mram := { copyC := copy } }

/-- BootLoadChoosesACopy: no boot source, copy C damaged, and copy C intact. -/
theorem test_meets_boot_load :
    let n := loading 2 fullImage
    let b := loading 1 (fullImage.set 20 0)
    let c := loading 1 fullImage
    n.fld Reg.SYS_BOOT_STAGE 3 0 = 4 ∧ n.ld.next = none ∧ n.ready = true ∧ n.bit Reg.SYS_LOAD_STATUS 31 = false
    ∧ n.bootCopies = []
    ∧ b.fld Reg.SYS_BOOT_STAGE 3 0 = 4 ∧ b.ld.next = none ∧ b.ready = true ∧ b.bit Reg.SYS_LOAD_STATUS 31 = false
    ∧ b.bootCopies ≠ [] ∧ (chooseCopy b.cascadeId 4 (b.bootCopies.filter fun c => c.code == 0)
        (b.bootCopies.filter fun c => c.code == 0).isEmpty []).1 = .fallback 0x31
    ∧ c.fld Reg.SYS_BOOT_STAGE 3 0 = 4 ∧ c.ld.next = none ∧ c.ready = true ∧ c.bit Reg.SYS_LOAD_STATUS 31 = false
    ∧ c.bootCopies ≠ []
    ∧ chooseCopy c.cascadeId 4 (c.bootCopies.filter fun c => c.code == 0)
        (c.bootCopies.filter fun c => c.code == 0).isEmpty [] = (.load ⟨2, fullImage, 0⟩, []) := by decide +kernel

/-- A copy write of an image of 288 bytes that stands in host-accessible DRAM. -/
def copying (b : List Byte) : State :=
  { (up [(Reg.MEM_SPACE, 0x0020_0000)]).dramWrite 0x1000 b with
      svp := { req := some { op := 3, args := [0x1000, 0, 288, 2] } } }

/-- LoaderNeverWritesBootCopies, and the copy writes of MailboxCompletionDoesItsWork: a sound image, a damaged one. -/
theorem test_meets_copies :
    let s := copying fullImage
    let d := copying (fullImage.set 20 0)
    s.svpUp = true ∧ s.svp.req = some { op := 3, args := [0x1000, 0, 288, 2] }
    ∧ (([0x1000, 0, 288, 2] : List Word).getD 3 0).toNat < 3
    ∧ s.dramFetch (mboxAddr [0x1000, 0, 288, 2]) (mboxLen [0x1000, 0, 288, 2]) = some fullImage
    ∧ (s.integrity fullImage true).code = 0
    ∧ dramQuiet s ∧ fullImage = s.dramRead (mboxAddr [0x1000, 0, 288, 2]) (mboxLen [0x1000, 0, 288, 2])
    ∧ d.svpUp = true ∧ d.svp.req = some { op := 3, args := [0x1000, 0, 288, 2] } ∧ dramQuiet d
    ∧ fullImage.set 20 0 = d.dramRead (mboxAddr [0x1000, 0, 288, 2]) (mboxLen [0x1000, 0, 288, 2])
    ∧ (d.integrity (fullImage.set 20 0) true).code ≠ 0 := by
  unfold dramQuiet portsQuiet dramSound; decide +kernel

/-- XRequestsNeedXAccess. -/
theorem test_meets_x_requests : (up []).access .spi = true ∧ mboxOpen (up []) ∧ (up []).xOpen = false := by
  unfold mboxOpen; decide +kernel

/-! ### Witnesses: step machines (chapter 04) -/

/-- Machine `m` runs at the last word of its program memory, which holds an instruction; `x` gives the rest of it. -/
def reel (m : Nat) (i : StmOp) (x : StepMachine) : State :=
  (up [(Reg.STM_STATUS m, 0x2000_0000), (Reg.STM_CTRL m, 0x8000_0200)]).setMachine m
    { x with prog := [(511, i.encode)], pc := 511 }

/-- As `reel`, of the last machine. -/
def fetches (i : StmOp) : Prop := (reel 64 i {}).stmFetch 64 = some i

/-- ProgramWordsDecodeAndEncode: operands at the ends of their fields, and a word that is not illegal. -/
theorem test_meets_program_words : (StmOp.movi 7 65535).wf = true ∧ (StmOp.waite 7 65535).wf = true
    ∧ (StmOp.br 6 511).wf = true ∧ StmOp.decode 0 ≠ .illegal := by decide +kernel

/-- StmArithmeticWritesGdAndFlags and StmLogicKeepsCarry: the last registers, the largest immediates and shifts. -/
theorem test_meets_arithmetic : fetches .nop ∧ fetches (.movi 7 65535) ∧ fetches (.movh 7 65535) ∧ fetches (.mov 7 7)
    ∧ fetches (.add 7 7 7) ∧ fetches (.addi 7 7 65535) ∧ fetches (.sub 7 7 7) ∧ fetches (.cmp 7 7)
    ∧ fetches (.cmpi 7 65535) ∧ fetches (.rdts 7) ∧ fetches (.and 7 7 7) ∧ fetches (.andi 7 7 65535)
    ∧ fetches (.or 7 7 7) ∧ fetches (.ori 7 7 65535) ∧ fetches (.xor 7 7 7) ∧ fetches (.shl 7 7 31)
    ∧ fetches (.shr 7 7 31) := by
  unfold fetches; decide +kernel

/-- StmControlFlowAndFaults: the ends of every range of data addresses, stacks of 0, 3 and 4, each fault. -/
theorem test_meets_control_flow : fetches (.br 6 511) ∧ fetches (.call 511)
    ∧ (reel 64 (.call 511) { stack := [1, 2, 3] }).stmFetch 64 = some (.call 511)
    ∧ (reel 64 (.call 511) { stack := [1, 2, 3, 4] }).stmFetch 64 = some (.call 511)
    ∧ (reel 64 .ret { stack := [5] }).stmFetch 64 = some .ret ∧ fetches .ret
    ∧ fetches (.ld 7 0 63) ∧ (reel 64 (.ld 7 0 63) {}).stmLoad 64 63 = some 0
    ∧ fetches (.ld 7 0 303) ∧ (reel 64 (.ld 7 0 303) {}).stmLoad 64 303 = some 0
    ∧ fetches (.st 7 0 63) ∧ (({} : StepMachine).reg 0).toNat + 63 < 64
    ∧ fetches (.st 7 0 303) ∧ (({} : StepMachine).reg 0).toNat + 303 = 256 + 47
    ∧ fetches (.st 7 0 64) ∧ fetches (.st 7 0 255) ∧ fetches (.st 7 0 304)
    ∧ fetches .halt ∧ fetches (.fault 4095)
    ∧ ((reel 64 .nop {}).setMachine 64 { prog := [(0, 0xFFFF_FFFF)] }).stmFetch 64 = some .illegal
    ∧ (reel 64 .nop { }).stmState 64 = 1 ∧ (reel 64 .nop {}).stmWords 64 ≤ 512
    ∧ ((reel 64 .nop {}).setMachine 64 { pc := 511 }).stmState 64 = 1
    ∧ (((reel 64 .nop {}).setReg (Reg.STM_CTRL 64) 0x8000_01FF).machine 64).pc = 511
    ∧ ((reel 64 .nop {}).setReg (Reg.STM_CTRL 64) 0x8000_01FF).stmWords 64 = 511
    ∧ ((reel 64 .nop {}).machine 64).pc < (reel 64 .nop {}).stmWords 64 := by
  unfold fetches; decide +kernel

/-- A machine that waits. -/
def waits (m : Nat) (x : StepMachine) : State :=
  (up [(Reg.STM_STATUS m, 0x4000_0000), (Reg.STM_CTRL m, 0x8000_0200)]).setMachine m x

/-- StmEventLinesLatchAndWake: the last line set and clear, an alarm time ahead, one reached, a KICK at level B. -/
theorem test_meets_event_lines : (reel 64 (.waite 7 0x8000) { ev := 0x8000 }).stmFetch 64 = some (.waite 7 0x8000)
    ∧ ((reel 64 (.waite 7 0x8000) { ev := 0x8000 }).machine 64).ev &&& BitVec.ofNat 16 0x8000 ≠ 0
    ∧ (reel 64 (.waite 7 0x8000) { ev := 0x7FFF }).stmFetch 64 = some (.waite 7 0x8000)
    ∧ ((reel 64 (.waite 7 0x8000) { ev := 0x7FFF }).machine 64).ev &&& BitVec.ofNat 16 0x8000 = 0
    ∧ ((waits 64 { wait := .event 0x8000 7, ev := 0x8000 }).machine 64).wait = .event 0x8000 7
    ∧ (waits 64 { wait := .event 0x8000 7, ev := 0x8000 }).stmState 64 = 2
    ∧ ((waits 64 { wait := .event 0x8000 7, ev := 0x8000 }).machine 64).ev &&& BitVec.ofNat 16 0x8000 ≠ 0
    ∧ fetches (.clre 65535)
    ∧ (reel 64 (.out 0 0) { g := [(0, 0x7FFF_FFFF)] }).stmOutWord 64 0 = some 0x7FFF_FFFF
    ∧ tsReached (reel 64 (.out 0 0) { g := [(0, 0x7FFF_FFFF)] }).ts 0x7FFF_FFFF = false
    ∧ ((waits 64 { alarm := some 0 }).machine 64).alarm = some 0 ∧ tsReached (waits 64 { alarm := some 0 }).ts 0 = true
    ∧ mayWrite (up []) .pcie ∧ (up []).xOpen = false := by
  unfold fetches mayWrite; decide +kernel

/-- StmInputTakesOrWaits: the last ingest and output machines and the touch machine; a port that a kind lacks. -/
theorem test_meets_input : (reel 39 (.inp 7 1) { tapFifo := [5] }).stmFetch 39 = some (.inp 7 1)
    ∧ ((reel 39 (.inp 7 1) { tapFifo := [5] }).machine 39).tapFifo = [5]
    ∧ (reel 39 (.inp 7 1) {}).stmFetch 39 = some (.inp 7 1) ∧ ((reel 39 (.inp 7 1) {}).machine 39).tapFifo = []
    ∧ (reel 39 (.inp 7 5) { ancFifo := [5] }).stmFetch 39 = some (.inp 7 5)
    ∧ ((reel 39 (.inp 7 5) { ancFifo := [5] }).machine 39).ancFifo = [5]
    ∧ (reel 64 (.inp 7 1) { proposals := [5] }).stmFetch 64 = some (.inp 7 1)
    ∧ ((reel 64 (.inp 7 1) { proposals := [5] }).machine 64).proposals = [5]
    ∧ ((waits 39 { wait := .port 1 7, tapFifo := [5] }).machine 39).wait = .port 1 7
    ∧ (waits 39 { wait := .port 1 7, tapFifo := [5] }).stmState 39 = 2
    ∧ ((waits 39 { wait := .port 1 7, tapFifo := [5] }).machine 39).tapFifo = [5]
    ∧ (reel 40 (.inp 7 1) {}).stmFetch 40 = some (.inp 7 1) ∧ (reel 63 (.inp 7 1) {}).stmFetch 63 = some (.inp 7 1)
    ∧ (reel 63 (.inp 7 5) {}).stmFetch 63 = some (.inp 7 5) ∧ stmReadable (stmKind 63) 5 = false := by
  decide +kernel

/-- A TOUCH_HEAD body: output 23, enabled, 40 columns by 40 rows, one frequency, RATE_TOP 0. -/
def headBody : List Byte := body 64 [23, 1, 40, 40, 0, 1, 0, 1, 200, 0]

/-- A state whose device is a standby. -/
def onStandby (s : State) : State := s.setReg Reg.TWN_STATUS 0x4000_0000

/-- StmOutputDrivesItsPort: a granted and a foreign line, a port that a kind lacks, every port of each kind. -/
theorem test_meets_output :
    let gp := (reel 64 (.out 0 8) { g := [(0, 0x8000_8000)] }).setReg (Reg.STM_CTRL 64) 0x8200_0200
    let hd := withRecs (reel 64 (.out 0 2) { g := [(0, 0x0000_0217)] }) [Rec.mk RT.TOUCH_HEAD 23 headBody]
    gp.stmFetch 64 = some (.out 0 8) ∧ (gp.machine 64).reg 0 = 0x8000_8000 ∧ gp.standby = false
    ∧ BitVec.ofNat 16 (wbits (0x8000_8000 : Word) 31 16) &&& ~~~ grantLines (gp.stmGrant 64) = 0
    ∧ (onStandby gp).stmFetch 64 = some (.out 0 8) ∧ (onStandby gp).standby = true
    ∧ BitVec.ofNat 16 (wbits (0x0001_0000 : Word) 31 16) &&& ~~~ grantLines (gp.stmGrant 64) ≠ 0
    ∧ fetches (.out 0 5) ∧ stmWritable (stmKind 64) 5 = false
    ∧ (reel 64 (.out 0 9) {}).stmOutWord 64 9 = some 0 ∧ (reel 39 (.out 0 2) {}).stmOutWord 39 2 = some 0
    ∧ (reel 39 (.out 0 3) {}).stmOutWord 39 3 = some 0 ∧ (reel 39 (.out 0 4) { tapReady := true }).stmOutWord 39 4 = some 0
    ∧ ((reel 39 (.out 0 4) { tapReady := true }).machine 39).tapReady = true
    ∧ (reel 63 (.out 0 2) {}).stmOutWord 63 2 = some 0 ∧ (reel 40 (.out 0 3) {}).stmOutWord 40 3 = some 0
    ∧ hd.stmOutWord 64 2 = some 0x217 ∧ wbits (0x217 : Word) 4 0 = 23 ∧ (hd.headRec 23).isSome = true
    ∧ wbits (0x217 : Word) 6 5 = 0 ∧ hd.headRec 23 = some (HeadRec.ofBody headBody) ∧ (HeadRec.ofBody headBody).rateTop ≤ 2
    ∧ (hd.head 23).rateNext ≠ 2 ∧ (hd.head 23).touches = [] := by
  unfold fetches; decide +kernel

/-- StmControlWritesNeedXAccess: a stopped and a running machine; a group that another machine holds. -/
theorem test_meets_control_writes :
    let s := up [(Reg.SYS_LEVEL_STATUS, 0x8000_0000), (Reg.STM_CTRL 0, 0x0200_0000), (Reg.STM_PROG_SEL, 64)]
    let r := s.setReg (Reg.STM_STATUS 64) 0x2000_0000
    mayWriteX s .pcie ∧ s.bit (Reg.STM_CTRL 64) 29 = false ∧ s.bit (Reg.STM_CTRL 64) 30 = false
    ∧ s.stmGrant 64 &&& s.grantedElsewhere 64 = 0 ∧ s.stmWords 64 ≤ 512 ∧ s.stmState 64 = 0
    ∧ mayWriteX r .pcie ∧ r.stmState 64 = 1 ∧ 7 &&& s.grantedElsewhere 64 = 0 ∧ 8 &&& s.grantedElsewhere 64 ≠ 0
    ∧ s.progMachine = 64 ∧ s.stmState 64 ≠ 1 ∧ s.stmState 64 ≠ 2 := by
  unfold mayWriteX mayWrite; decide +kernel

/-! ### Witnesses: queues (chapter 05) -/

/-- A structure of a MEMORY node with one SOLID layer, a HOST stream with its surface, a decoder context and a touch head;
X access open, FCLK0 running, 32 GiB of HOT space; queue 15 RUNNING at the last index, its rings on pages 1 and 2. -/
def queues : State :=
  let layer := body 64 ([0xFF, 0xFF, 0, 255] ++ List.replicate 12 0 ++ [16, 0, 16, 0, 0, 0, 1, 0, 0, 0, 0, 0, 0, 0, 0, 0, 0xFF])
  let recs := [Rec.mk RT.STREAM 160 (body 80 [3, 9, 64, 0, 64, 0]), Rec.mk RT.NODE 0 (body 32 [1, 0, 16, 0, 16, 0]),
    Rec.mk RT.LAYER 0 layer, Rec.mk RT.TOUCH_HEAD 23 headBody, Rec.mk RT.DECODER_CONTEXT 0 (body 48 []),
    Rec.mk RT.ENSEMBLE 63 (body 74 ([0, 1, 0, 0, 16, 0, 0, 0, 0, 0] ++ List.replicate 60 0 ++ [0, 0, 0, 0]))]
  let s := withRecs (up [(Reg.MEM_SPACE, 0x0020_0000), (Reg.SYS_LEVEL_STATUS, 0x8000_0000), (Reg.CMD_Q_RING 15, 0x6000_0001),
    (Reg.CMD_EV_RING 15, 0x6000_0002), (Reg.CMD_Q_CTRL 15, 0x8000_0000), (Reg.CMD_Q_STATUS 15, 0x2000_FFFF),
    (Reg.ENC_CFG 3, 160), (Reg.ENC_RC 3, 1000), (Reg.ENC_PATH 3, 0x8380_0000), (Reg.ENC_RING 3, 0x100),
    (Reg.ENC_DEST 3 3, 0xE0), (Reg.ETH_PORT_CTRL 7, 0x8000_0000)]) recs
  let host : StreamSt :=
    { on := true, kind := 3, format := 9, width := 64, height := 64, mode := 1, dmaDone := true,
      cur := some { alive := 0, cap := 0, ptp := false, epoch := 0, w := 64, h := 64, fmt := 9 } }
  ((s.setFclk 0 { on := true }).setStream 160 host).loadLayer 0 layer

/-- A record at the head of queue 15. -/
def command (op obj : Nat) (a : List Nat) : CmdRec :=
  { op := op, flags := 0, tag := 0xBEEF, obj := obj, clock := 0xFF, seq := 255, a := (a ++ [0, 0, 0, 0, 0, 0]).take 6 }

/-- The state in which queue 15 fetches it. -/
def queued (s : State) (r : CmdRec) : State := s.dramWrite (ringSlot (s.reg (Reg.CMD_Q_RING 15)) 0xFFFF) r.bytes

/-- That state once the record has been read. -/
def atHead (s : State) (r : CmdRec) : State := (queued s r).qRead 15

/-- The check accepts the command at the head of queue 15. -/
def accepted (s : State) (r : CmdRec) : Bool :=
  let t := queued s r
  let u := atHead s r
  decide (t.qFetch 15 = .record r) && u.checkCmd u.xOpen 15 r 0 == 0 && r.flags.testBit 0 == false
    && decide (t.heldCommands < 1024)

theorem accepted_takes (s : State) (r : CmdRec) (h : accepted s r = true) : takesQuiet (queued s r) 15 r r.op := by
  simp only [accepted, Bool.and_eq_true, decide_eq_true_eq, beq_iff_eq] at h
  exact ⟨⟨h.1.1.1, rfl, h.1.1.2⟩, h.1.2, h.2⟩

/-- The register that the REG_WRITE below writes. -/
def plainDesc : RegDesc := ⟨0x1A0144, 0x4, 1, 0x4, 1, 0, 0xFFFF_FFFF, 0, 0, 0, 0, 0, false⟩

/-- QueueRegisterWritesMoveTheQueue: a full ring and one too full, a STOPPED and a RUNNING queue, a queue whose rings lie in
host-accessible DRAM, a queue whose command another member checks. -/
theorem test_meets_queue_registers :
    let z := (queues.setReg (Reg.CMD_Q_STATUS 15) 0x0000_FFFF).setReg (Reg.CMD_Q_CTRL 15) 0
    let f := z.setQueue 15 { wait := .forward 0 (command 4 0 []) }
    f.access .pcie = true ∧ f.qState 15 = 0 ∧ f.fld Reg.SYS_BOOT_STAGE 3 0 ≠ 2 ∧ f.fld Reg.SYS_BOOT_STAGE 3 0 ≠ 3
    ∧ f.hotBytes ≠ 0 ∧ f.ringOk (f.reg (Reg.CMD_Q_RING 15)) = true ∧ f.ringOk (f.reg (Reg.CMD_EV_RING 15)) = true
    ∧ (f.queue 15).ringFull = false ∧ f.qForwards 15 = true ∧ z.qForwards 15 = false
    ∧ queues.access .pcie = true ∧ queues.qState 15 = 1
    ∧ ((63 : Word).toNat % 65536 + 65536 - queues.qHead 15) % 65536 ≤ ringSize (queues.reg (Reg.CMD_Q_RING 15))
    ∧ ringSize (queues.reg (Reg.CMD_Q_RING 15)) < ((64 : Word).toNat % 65536 + 65536 - queues.qHead 15) % 65536
    ∧ z.access .pcie = true ∧ z.qState 15 = 0 ∧ z.fld Reg.SYS_BOOT_STAGE 3 0 ≠ 2 ∧ z.fld Reg.SYS_BOOT_STAGE 3 0 ≠ 3
    ∧ z.hotBytes ≠ 0 ∧ z.ringOk (z.reg (Reg.CMD_Q_RING 15)) = true ∧ z.ringOk (z.reg (Reg.CMD_EV_RING 15)) = true
    ∧ (z.queue 15).ringFull = false ∧ z.qRun 15 = false ∧ queues.qRun 15 = true := by decide +kernel

/-- ImmediateCommandsTakeEffectAtOnce: each command on the last fence, a fence reached and one not, a ring that takes the
event record. -/
theorem test_meets_immediate :
    accepted queues (command 0 0 []) = true ∧ accepted queues (command 8 63 [5, 0, 0]) = true
    ∧ accepted queues (command 8 63 [5, 0, 1]) = true ∧ (atHead queues (command 8 63 [5, 0, 1])).outstanding 15 = []
    ∧ accepted { queues with cmd := { fences := [fenceOf queues 15 (command 8 0 [])] } } (command 8 63 [5, 0, 1]) = true
    ∧ (atHead { queues with cmd := { fences := [fenceOf queues 15 (command 8 0 [])] } } (command 8 63 [5, 0, 1])).outstanding 15 ≠ []
    ∧ accepted queues (command 9 63 [0, 0, 0]) = true ∧ accepted queues (command 9 63 [0, 1, 7]) = true
    ∧ (atHead queues (command 9 63 [0, 1, 7])).fence 63 = 0 ∧ (command 9 63 [0, 1, 7]).value.toNat = 2 ^ 32
    ∧ accepted queues (command 0x0A 0 [0, 255]) = true ∧ accepted queues (command 0x10 0 [1, 2]) = true
    ∧ ringTakes (atHead queues (command 0x10 0 [1, 2])) 15
    ∧ (queued queues (command 0x11 0 [])).qFetch 15 = .record (command 0x11 0 [])
    ∧ ringTakes (atHead queues (command 0x11 0 [])) 15 := by
  unfold ringTakes portsQuiet; decide +kernel

/-- CommitCommandsHoldTheirChange: every command due at a commit point, and the last input of the last ensemble. -/
theorem test_meets_commit_commands :
    accepted queues (command 1 0 [0xFFFF]) = true ∧ (atHead queues (command 1 0 [0xFFFF])).remoteSlot (command 1 0 [0xFFFF]) = false
    ∧ accepted queues (command 2 0 [0, 0, 0, 0x0010_0010]) = true ∧ accepted queues (command 3 0 [0x0FFF]) = true
    ∧ accepted queues (command 4 0 [3, 0, 0]) = true ∧ accepted queues (command 4 0 [0, 1, 0x00FF_FFFF]) = true
    ∧ accepted queues (command 5 160 [1]) = true ∧ accepted queues (command 0x0D 23 [63, 0, 0, 0]) = true
    ∧ accepted queues (command 0x0F 3 [0, 0]) = true ∧ accepted queues (command 0x0F 3 [1, 2000]) = true
    ∧ accepted queues (command 0x0F 3 [2, 0]) = true
    ∧ queues.inputSlot 63 15 = some (0, 0) ∧ remoteNode 0 = false ∧ (command 4 0x83FF []).obj = 0x8000 + 16 * 63 + 15 := by
  decide +kernel

/-- An access unit of one byte. -/
def oneUnit : AccessUnit :=
  { rtp := 0, arrive := 0, bytes := 1, damaged := false, irap := true, cra := false, rasl := false, frag := none }

/-- TransferAndWriteCommands: a DMA of the last line, its end, a FLIP of a frame that is there, writes of a plain register
and of the last word of the Stream Table, DEC_CTRL in and out of STOPPED and on a context whose picture a core decodes. -/
theorem test_meets_transfers :
    let d : Dma := { seq := 0, queue := 15, index := 0, tag := 0, event := false, stream := 160, src := 0, pitch := 0,
                     first := 0, count := 1, window := 0, qos := 0, engine := 0, dropped := false, stray := none }
    let run := queues.setCtx 0 { st := 2 }
    let busy := run.setCore 7 { job := some (0, oneUnit, 0) }
    accepted queues (command 7 160 [0x4000, 0, 64, 0x0001_003F, 0]) = true
    ∧ (({ queues with cmd := { dmas := [d] } } : State).cmd.dmas)[0]? = some d ∧ d.dropped = false ∧ d.stray = none
    ∧ d.event = false ∧ portsQuiet queues ∧ queues.cmd.fences = [] ∧ queues.cmd.flips = [] ∧ Fmt.known 9 = true
    ∧ accepted queues (command 6 160 [0, 0xFFFF]) = true
    ∧ (atHead queues (command 6 160 [0, 0xFFFF])).dmaBusy 15 160 = false
    ∧ accepted queues (command 0x0B 0 [0x1A0144, 0xFFFF_FFFF, 0xFFFF]) = true ∧ basicReg 0x1A0144 plainDesc
    ∧ accepted queues (command 0x0C 0 [0x23_FFFC, 5, 0, 0, 0, 1]) = true
    ∧ accepted run (command 0x0E 0 [0]) = true ∧ (atHead run (command 0x0E 0 [0])).ctxBusy 0 = false
    ∧ ((atHead run (command 0x0E 0 [0])).ctx 0).st ≠ 0 ∧ accepted queues (command 0x0E 0 [1]) = true
    ∧ (atHead queues (command 0x0E 0 [1])).ctxBusy 0 = false ∧ ((atHead queues (command 0x0E 0 [1])).ctx 0).st = 0
    ∧ accepted run (command 0x0E 0 [2]) = true
    ∧ accepted busy (command 0x0E 0 [2]) = true ∧ (atHead busy (command 0x0E 0 [2])).ctxBusy 0 = true := by
  intro d run
  refine ⟨by decide +kernel, rfl, rfl, rfl, rfl, ⟨rfl, rfl, by decide +kernel⟩, rfl, rfl, rfl, by decide +kernel, by decide +kernel, by decide +kernel,
    ⟨by decide +kernel, by decide +kernel, by decide +kernel, by decide +kernel, by decide +kernel, fun _ _ _ _ _ => rfl⟩, ?_⟩
  decide +kernel

/-- A frame in progress without plans. -/
def emptyFrame : Frame := { plans := [], comp := {}, latch := 0, w := 16, h := 16, conv := { fmt := 6, csc := Csc.identity, dither := false } }

/-- WaitsEndAtTheirPoints: a fence that has just reached its value and one just below, a count of 0, a due clock, a MEMORY
node's frame. -/
theorem test_meets_waits :
    let r := command 9 63 [1, 0, 7]
    let s := queues.setReg (Reg.CMD_FENCE_LO 63) 1
    let w := s.setQueue 15 { wait := .fence 63 1 (some 0) r }
    let l := queues.setQueue 15 { wait := .fence 63 1 (some 0) r }
    let c := queues.setQueue 15 { wait := .commits 0 0 r }
    (w.queue 15).wait = .fence 63 1 (some 0) r ∧ (1 : DWord).toNat ≤ (w.fence 63).toNat ∧ w.qRun 15 = true
    ∧ (w.queue 15).ringFull = false ∧ r.flags.testBit 0 = false
    ∧ (l.queue 15).wait = .fence 63 1 (some 0) r ∧ (l.fence 63).toNat < (1 : DWord).toNat ∧ ringTakes l 15
    ∧ (c.queue 15).wait = .commits 0 0 r ∧ c.qRun 15 = true ∧ (c.queue 15).ringFull = false
    ∧ queues.clockDue 0 = true ∧ (queues.setFclk 7 { on := true }).clockDue 7 = true ∧ queues.ready = true
    ∧ queues.cas.forwarded = [] ∧ portsQuiet queues
    ∧ queues.ld.deltas = [] ∧ queues.ld.late = [] ∧ queues.cmd.held = []
    ∧ (queues.node 0).map (·.dest) = some 1 ∧ 0 < emptyFrame.w ∧ emptyFrame.w ≤ 16384 ∧ 0 < emptyFrame.h
    ∧ ((queues.setNode 0 { frame := some emptyFrame }).nodeSt 0).frame = some emptyFrame ∧ emptyFrame.segs = [] := by
  unfold ringTakes portsQuiet; decide +kernel

/-- StaleRecordHaltsItsQueue: a record whose SEQ is one too low. -/
theorem test_meets_stale_record :
    let r : CmdRec := { command 0 0 [] with seq := 254 }
    let s := queued queues r
    s.ready = true ∧ s.qState 15 = 1 ∧ s.qHead 15 ≠ s.qTail 15
    ∧ s.dramFetch (ringSlot (s.reg (Reg.CMD_Q_RING 15)) (s.qHead 15)) 32 = some r.bytes
    ∧ (CmdRec.ofBytes r.bytes).seq ≠ s.qHead 15 % 256 ∧ ringTakes s 15 := by
  unfold ringTakes portsQuiet; decide +kernel

/-! ### Witnesses: J-Link (chapters 07, 18) -/

/-- A block of a lane: a header with sequence `q` and lane id `k`, then idle payload or EIDLE_ENTER. -/
def block (q k : Nat) : List Sym := [.k285, .data (BitVec.ofNat 8 (4 * q + k))] ++ List.replicate 62 .k285
def eidleBlock (q k : Nat) : List Sym :=
  [.k281, .data (BitVec.ofNat 8 (4 * q + k)), .data 0x01] ++ List.replicate 61 .fill

/-- Lane 3 of CAS_WX in a state. -/
def laned (x : Lane) : State := (up []).setLink 115 { lanes := [{}, {}, {}, x] }

/-- Its boundary is known. -/
def atBoundary : Deser := { sync := true }

/-- The bits of a block for it, sent from negative running disparity. -/
def sentBits (s : State) (syms : List Sym) : List Bool := (lineOf false syms).map fun b => b != s.laneInverted 115 3

theorem sent_block (s : State) (syms : List Sym) (h : syms.length = 64 ∧ Sym.err ∉ syms) :
    blockBits syms (s.laneInverted 115 3) (sentBits s syms) := ⟨h.1, h.2, false, rfl⟩

theorem sent_reaches (s : State) (syms : List Sym) (h : syms.length = 64 ∧ Sym.err ∉ syms)
    (hb : ((s.link 115).lane 3).blk = []) (hd : ((s.link 115).lane 3).bits = atBoundary) :
    blockReaches s 115 3 syms (sentBits s syms) := by
  refine ⟨h.1, h.2, hb, ?_, ?_, ?_⟩ <;> rw [hd] <;> rfl

/-- LaneStatesFollowTheirHeaders: the last lane of a port in each state, the last sequence number, the runs at their ends,
whole blocks and headers that fail, the fourth failure of sixteen, idle of just under and of exactly 1 ms. -/
theorem test_meets_lanes :
    let idle : State := { laned { st := 4, idleAt := 0 } with uptime := 599999 }
    let long : State := { laned { st := 4, idleAt := 0 } with uptime := 600000 }
    let check := laned { st := 1, seq := 63, run := 31, bits := atBoundary }
    let again := laned { st := 3, seq := 63, run := 7, bits := atBoundary }
    let lock := laned { st := 2, seq := 63, bits := atBoundary }
    let bad := laned { st := 1, seq := 63, blk := [.k285] }
    let fail := laned { st := 2, seq := 63, blk := [.k285], hist := [false, false, false] }
    (laned {}).laneOn 115 3 = true ∧ (((laned {}).link 115).lane 3).st = 0 ∧ (((laned {}).link 115).lane 3).blk = []
    ∧ (((laned {}).link 115).lane 3).bits = {} ∧ (block 63 3)[0]? = some .k285 ∧ headerSeq (block 63 3) = some (63, 3)
    ∧ ((block 63 3).length = 64 ∧ Sym.err ∉ block 63 3) ∧ ((eidleBlock 63 3).length = 64 ∧ Sym.err ∉ eidleBlock 63 3)
    ∧ (sentBits (laned {}) (block 63 3)).length = 640
    ∧ ((check.link 115).lane 3).blk = [] ∧ ((check.link 115).lane 3).bits = atBoundary
    ∧ ((again.link 115).lane 3).blk = [] ∧ ((again.link 115).lane 3).bits = atBoundary
    ∧ ((lock.link 115).lane 3).blk = [] ∧ ((lock.link 115).lane 3).bits = atBoundary
    ∧ check.laneOn 115 3 = true ∧ ((check.link 115).lane 3).st = 1 ∧ headerValid (block 63 3) 3 63 = true
    ∧ isEidle (block 63 3) = false ∧ again.laneOn 115 3 = true ∧ ((again.link 115).lane 3).st = 3
    ∧ (64 : Nat) % 64 = ((again.link 115).lane 3).blkAt % 64
    ∧ lock.laneOn 115 3 = true ∧ ((lock.link 115).lane 3).st = 2 ∧ headerValid (eidleBlock 63 3) 3 63 = true
    ∧ isEidle (eidleBlock 63 3) = true
    ∧ bad.laneOn 115 3 = true ∧ ((bad.link 115).lane 3).blk = [.k285] ∧ ((bad.link 115).lane 3).st = 1
    ∧ headerValid [.k285, .data (BitVec.ofNat 8 (4 * 62 + 3))] 3 63 = false
    ∧ headerValid [.k285, .data (BitVec.ofNat 8 (4 * 63 + 2))] 3 63 = false
    ∧ fail.laneOn 115 3 = true ∧ ((fail.link 115).lane 3).blk = [.k285] ∧ ((fail.link 115).lane 3).st = 2
    ∧ idle.laneOn 115 3 = true ∧ ((idle.link 115).lane 3).st = 4 ∧ idle.uptime - 0 < 600000
    ∧ long.laneOn 115 3 = true ∧ ((long.link 115).lane 3).st = 4 ∧ ¬(long.uptime - 0 < 600000) := by decide +kernel

/-- R180: D21.5 and K28.5 in their published forms, K28.5 at each disparity. -/
theorem test_code_groups : lineOf false [.data 0xB5] = [true, false, true, false, true, false, true, false, true, false]
    ∧ lineOf false [.k285] = [false, false, true, true, true, true, true, false, true, false]
    ∧ lineOf true [.k285] = [true, true, false, false, false, false, false, true, false, true] := by decide +kernel

/-- Every lane of a port LOCKED and within skew. -/
def locked (s : State) (port : Nat) : State :=
  s.setLink port { lanes := if 64 ≤ port ∧ port < 88 then [{ st := 2 }] else List.replicate 4 { st := 2 }, skewOk := true }

/-- A whole packet of a type, channel and payload can arrive on a port. -/
def delivers (s : State) (port ty chan : Nat) (payload : List Byte) : Bool :=
  s.aligned port && decide (payload.length ≤ 16384) && decide (ty < 256) && decide (chan < 256)

theorem delivers_arrives (s : State) (port ty chan : Nat) (payload : List Byte)
    (h : delivers s port ty chan payload = true) : arrives s port ty chan payload (packetBytes ty chan 0 0 payload) := by
  simp only [delivers, Bool.and_eq_true, decide_eq_true_eq] at h
  exact ⟨h.1.1.1, h.1.1.2, h.1.2, h.2, 0, 0, by decide, by decide, rfl⟩

/-- Sub-stream 3 of IN39 carries S159, which has a frame in progress. -/
def capturing (cur : Incoming) : State :=
  let s := (withRecs (up []) [Rec.mk RT.PORT 39 (body 16 [0, 0, 0, 0, 8]),
    Rec.mk RT.STREAM 159 (body 80 [])]).setStream 159
    { on := true, kind := 0, format := 6, width := 2, height := 1, cur := some cur, writing := some 1 }
  locked s 39

/-- A whole frame of two pixels, captured now. -/
def wholeFrame : Incoming :=
  { alive := 1, cap := 0, ptp := true, epoch := 0, w := 2, h := 1, fmt := 6, segs := [(0, 0, 2)],
    img := { w := 2, h := 1, fmt := 6 } }

theorem captures_capturing (cur : Incoming) : captures (capturing cur) 39 3 159 :=
  ⟨by decide, by decide, rfl, rfl, body 16 [0, 0, 0, 0, 8], rfl, by decide⟩

/-- A small touch head on OUT23, and a valid scan of it. -/
def smallHead : List Byte := body 64 [23, 1, 2, 2, 0, 1, 0, 1, 200, 0]
def touching : State := locked (withRecs (up []) [Rec.mk RT.TOUCH_HEAD 23 smallHead]) 87
def scanBytes : List Byte := body 20 [0xFF, 0xFF, 2, 2, 9, 0, 0, 0, 0, 0]

/-- PacketsActByTheirType: VIDEO_FS, VIDEO_LINE and VIDEO_FE of the last sub-stream, a frame to drop and a whole one; IDLE
on the last port; HEAD_STATUS and TOUCH_RAW of the last output; the last port's counters. -/
theorem test_meets_packets :
    let s := capturing wholeFrame
    let b := capturing { wholeFrame with bad := true }
    let idle := locked (up []) 121
    let head := locked (up []) 87
    delivers s 39 1 3 (body 32 []) = true ∧ delivers s 39 2 3 (body 14 [0, 0, 0, 0, 2, 0]) = true
    ∧ (leAt (body 14 [0, 0, 0, 0, 2, 0]) 6 2).testBit 0 = false ∧ (s.stream 159).cur = some wholeFrame
    ∧ Fmt.known wholeFrame.img.fmt = true ∧ delivers s 39 3 3 [] = true ∧ wholeFrame.bad = false ∧ wholeFrame.dropped = false ∧ wholeFrame.whole = true
    ∧ (s.stream 159).held = false ∧ (s.stream 159).writing = some 1 ∧ tsDiff wholeFrame.cap s.ts ≤ 2000000000
    ∧ delivers b 39 3 3 [] = true ∧ (b.stream 159).cur = some { wholeFrame with bad := true }
    ∧ jlxIndex 121 = some 5 ∧ delivers idle 121 0x3F 0 (body 4 [0x1F]) = true ∧ (up []).ready = true
    ∧ (up []).txOn 121 = true ∧ delivers head 87 0x11 0 (body 16 []) = true
    ∧ (body 16 []).length = 16 + 4 * leAt (body 16 []) 10 1 ∧ head.active = false
    ∧ delivers touching 87 0x12 0 scanBytes = true ∧ touching.headOf 23 = some 23
    ∧ touching.headRec 23 = some (HeadRec.ofBody smallHead) ∧ (scanOf (HeadRec.ofBody smallHead) scanBytes).isSome = true
    ∧ mayWriteX opened .spi ∧ linkPort 10 5 = some 121 ∧ wbits (5 : Word) 7 0 = 5 := by
  unfold mayWriteX mayWrite; decide +kernel

/-! ### Witnesses: network and decoders (chapter 08) -/

/-- A DECODER_CONTEXT body: stream 160, UDP port 65535, ETH7, sender-report time base, payload type 127, group
224.0.0.251. -/
def contextBody : List Byte :=
  body 48 ([160, 0, 0xFF, 0xFF, 0x80, 4, 127, 0x10] ++ List.replicate 20 0 ++ [224, 0, 0, 251])

/-- ETH7 enabled, its link up or not; context C255 in a state. -/
def wired (link : Bool) (x : DecCtx) : State :=
  (withRecs (up [(Reg.ETH_PORT_CTRL 7, 0x8000_0000), (Reg.ETH_PORT_STATUS 7, if link then 0x8000_0000 else 0)])
    [Rec.mk RT.DECODER_CONTEXT 255 contextBody]).setCtx 255 x

/-- An RTP packet for that context in a frame of the greatest length. -/
def datagram : EthFrame :=
  { len := 1522, fcsOk := true, fifoFull := false, valid := true, sumOk := true, vlan := 0, ipv6 := false,
    dst := body 16 (List.replicate 12 0 ++ [224, 0, 0, 251]), src := body 16 [], udp := 65535,
    content := .rtp 2 127 0xFFFF_FFFF 65535 0 true (bytes [0x65]) }

/-- NetworkFramesReachTheirContexts: the last port, context and UDP port; a port with a group to report, its link up and
down; a gap across the wrap of the sequence number. -/
theorem test_meets_network :
    let s := wired true { st := 1, joined := true }
    let down := wired false { st := 1, joined := true }
    let p : HeldRtp := { seq := 0, rtp := 0, marker := false, payload := [], arrive := 0 }
    let gap := wired true { st := 2, next := some 65535, held := [p] }
    let rep : Report := ctxReport contextBody 7 true
    let again : State := { s with net := { s.net with reports := [rep] } }
    let other := wired true { st := 2, ssrc := some 1, other := some 2 }
    s.ethUp 7 = true ∧ ({ datagram with fifoFull := true } : EthFrame).fifoFull = true
    ∧ ({ datagram with fcsOk := false } : EthFrame).fcsOk = false ∧ ({ datagram with fcsOk := false } : EthFrame).fifoFull = false
    ∧ s.matches 7 datagram = [(255, contextBody)] ∧ datagram.content = .rtp 2 (leAt contextBody 6 1) 0xFFFF_FFFF 65535 0 true (bytes [0x65])
    ∧ (s.ctx 255).st ≠ 0 ∧ (s.ctx 255).ssrc = none ∧ (s.ctx 255).next = none ∧ datagram.len ≤ 1522
    ∧ s.ready = true ∧ s.bit (Reg.ETH_PORT_STATUS 7) 31 = true
    ∧ down.ready = true ∧ down.bit (Reg.ETH_PORT_CTRL 7) 31 = true ∧ down.bit (Reg.ETH_PORT_STATUS 7) 31 = false
    ∧ s.oldMode 7 false = false ∧ down.portReports 7 = [rep] ∧ s.portReports 7 = [rep]
    ∧ again.net.reports = rep :: [] ∧ again.ethUp rep.port = true
    ∧ gap.ctxBody 255 = some contextBody ∧ (gap.ctx 255).st ≠ 0 ∧ (gap.ctx 255).next = some 65535
    ∧ (gap.ctx 255).cnt.length = 9 ∧ nextHeld 65535 (gap.ctx 255).held = some p
    ∧ (other.ctx 255).other = some 2 ∧ (other.ctx 255).st ≠ 0
    ∧ other.ctxBody 255 = some contextBody ∧ ctxTbase contextBody = 2 ∧ (other.ctx 255).ssrc = some 1 := by decide +kernel

/-- DecoderCoresTakeAndFinishPictures: the last core, free and at work, with a context that a
DEC_CTRL waits on and one that none does; a sequence of the greatest size and level that
needs one DPB picture more than DPB_PICS. -/
theorem test_meets_decoders :
    let s := wired true { st := 2, cpb := [oneUnit] }
    let busy := s.setCore 7 { job := some (255, oneUnit, 0), body := contextBody }
    let seq : SeqInfo :=
      { profile := .high, level := 51, highTier := false, interlaced := false, mono := false, otherFeature := false,
        depth := 8, codedW := 4096, codedH := 2304, w := 4096, h := 2304, dpb := 2, reorder := none }
    let late := busy.setCtx 255 { st := 2, ctrl := [.ctrl 0] }
    7 < 8 ∧ s.coreFree 7 = true ∧ busy.coreFree 7 = false ∧ (wired true {}).nextContext = none
    ∧ (s.core 7).job = none ∧ (busy.ctx 255).ctrl = [] ∧ (late.core 7).job = some (255, oneUnit, 0)
    ∧ (late.ctx 255).ctrl ≠ [] ∧ s.nextContext = some (255, oneUnit, [])
    ∧ (busy.core 7).job = some (255, oneUnit, 0) ∧ seqRefused seq (busy.core 7).body = true
    ∧ seqRefused { seq with dpb := 1 } (busy.core 7).body = false ∧ (busy.ctx 255).chain = 0 := by decide +kernel

/-! ### Witnesses: time (chapter 09) -/

/-- A master on ETH7. -/
def grand : PtpMaster := { port := 7, src := 5, gm := 6 }

/-- ETH7 up with PTP, X access open, the servo in a state, held or not; a master on port 7 selected. -/
def serving (servo : Word) (held : Bool) : State :=
  let s := up [(Reg.ETH_PORT_CTRL 7, 0x8800_0000), (Reg.ETH_PORT_STATUS 7, 0x8000_0000), (Reg.SYS_LEVEL_STATUS, 0x8000_0000),
    (Reg.TIM_STATUS, servo <<< 30), (Reg.TIM_CTRL, if held then 0x4000_0000 else 0)]
  { s with tim := { s.tim with master := some grand, announces := [⟨grand, [1]⟩] } }

/-- A ring member whose upstream has called and been measured. -/
def following : State :=
  { up [] with cas := { direct := [none, none, none, some (CasTime.ofBytes (body 64 [0, 1]) 0 0)], upstream := some 3, upEpoch := some 0 } }

/-- A ring member in TRACK, and a device whose supervisor restarts. -/
def lone : State := following.setReg Reg.TIM_STATUS 0x9000_0000
def halted : State := { up [] with svp := { restarting := true } }

/-- TimeServoFollowsItsMaster: every servo state, offsets just over their limits, an upstream on the last port. -/
theorem test_meets_servo :
    (serving 0 false).ethUp 7 = true ∧ (serving 0 false).bit (Reg.ETH_PORT_CTRL 7) 27 = true ∧ (serving 0 false).svpUp = true
    ∧ (serving 0 false).ringFollower = false ∧ (serving 0 false).cas.upstream = none ∧ (serving 0 false).servo = 0
    ∧ (serving 0 false).servoHeld = false ∧ (serving 1 false).servo ≠ 0
    ∧ (serving 0 false).tim.master ≠ none ∧ (serving 2 true).servoHeld = true ∧ (serving 2 true).tim.master ≠ none
    ∧ (serving 2 true).svpUp = true ∧ (serving 1 false).tim.master ≠ none ∧ (serving 1 false).svpUp = true
    ∧ (serving 1 false).servo = 1 ∧ (serving 1 false).servoHeld = false
    ∧ (serving 1 false).stepMin < (((serving 1 false).stepMin + 1 : Nat) : Int).natAbs
    ∧ (serving 2 false).tim.master = some grand ∧ (serving 2 false).svpUp = true ∧ (serving 2 false).servo = 2
    ∧ (serving 2 false).servoHeld = false
    ∧ (serving 2 false).jumpLimit < (-(((serving 2 false).jumpLimit + 1 : Nat) : Int)).natAbs
    ∧ (serving 2 false).condOn Blk.TIM 0 = false ∧ (serving 3 false).servo = 3 ∧ (serving 3 false).servoHeld = false
    ∧ (serving 3 false).access .spi = true ∧ (serving 3 false).xOpen = true ∧ (serving 3 true).servoHeld = true
    ∧ (serving 3 true).xOpen = true ∧ (serving 3 true).access .spi = true ∧ (up []).access .spi = true
    ∧ (up []).xOpen = false ∧ (serving 3 true).mram.xWrites.toNat + 2 < 2 ^ 64
    ∧ (serving 2 false).ready = true ∧ (serving 2 false).tim.running = true
    ∧ following.ready = true ∧ following.tim.running = true ∧ following.svpUp = true
    ∧ (serving 2 false).upstreamPair = none ∧ lone.tim.master = none ∧ lone.cas.upstream ≠ none
    ∧ lone.bit Reg.TIM_STATUS 28 = true ∧ lone.servo = 2 ∧ lone.svpUp = true
    ∧ halted.access .spi = true ∧ halted.svpUp = false ∧ following.upstreamPair = some (CasTime.ofBytes (body 64 [0, 1]) 0 0) := by decide +kernel

/-- A PTP message of domain 0 in a frame of the greatest length. -/
def ptpFrame (m : PtpMsg) : EthFrame :=
  { len := 1522, fcsOk := true, fifoFull := false, valid := true, sumOk := true, vlan := 0, ipv6 := false, dst := [], src := [],
    udp := 320, content := .ptp 0 m }

theorem ptp_arrives (s : State) (m : PtpMsg)
    (h : s.ethUp 7 = true ∧ s.bit (Reg.ETH_PORT_CTRL 7) 27 = true ∧ s.svpUp = true ∧ s.bit (Reg.ETH_PORT_CTRL 7) 28 = false
      ∧ s.fld Reg.TIM_PTP_CFG 31 24 = 0 ∧ s.fld (Reg.ETH_PORT_CTRL 7) 11 0 = 0) : ptpArrives s 7 (ptpFrame m) m := by
  refine ⟨by decide, h.1, h.2.1, h.2.2.1, rfl, rfl, ?_, rfl, rfl, ?_, h.2.2.2.2.2.symm⟩
  · rw [h.2.2.2.1]; exact Nat.le_refl _
  · rw [h.2.2.2.2.1]; rfl

/-- ETH7 with its delay mechanism in a state. -/
def timed (p2p : Bool) (x : PtpPort) : State :=
  let s := (serving 2 false).setReg Reg.TIM_PTP_CFG (if p2p then 0x0040_0000 else 0)
  { s with tim := { s.tim with ports := [(7, x)] } }

/-- As `timed`, without a master. -/
def unled (x : PtpPort) : State := let s := timed false x; { s with tim := { s.tim with master := none } }

/-- PtpMessagesMeasureTheirPath: the last port under either mechanism, with and without a master, each exchange half
way. -/
theorem test_meets_ptp :
    let e := timed false { req := some (65535, 7), last := some 9 }
    let f := unled { sync := [(5, 65535, 9, 1)] }
    let g := timed false { sync := [(4, 65535, 8, 0), (5, 65535, 9, 1)] }
    let p := timed true { req := some (65535, 7) }
    let q := timed true { req := some (65535, 7), resp := some (65535, 9, 8) }
    let port := fun (s : State) => (s.ethUp 7 && s.bit (Reg.ETH_PORT_CTRL 7) 27 && s.svpUp && !s.bit (Reg.ETH_PORT_CTRL 7) 28
      && s.fld Reg.TIM_PTP_CFG 31 24 == 0 && s.fld (Reg.ETH_PORT_CTRL 7) 11 0 == 0) = true
    port e ∧ e.p2p = false ∧ (e.ptpOf 7).req = some (65535, 7) ∧ (e.ptpOf 7).last = some 9 ∧ e.tim.master = some ⟨7, 5, 6⟩
    ∧ port f ∧ f.p2p = false ∧ f.tim.master = none ∧ (f.ptpOf 7).sync.find? (fun e => e.1 == 5 && e.2.1 == 65535) = some (5, 65535, 9, 1)
    ∧ port g ∧ g.p2p = false ∧ g.tim.master = some ⟨7, 5, 6⟩ ∧ (g.ptpOf 7).delay = none
    ∧ (g.ptpOf 7).sync.find? (fun e => e.1 == 5 && e.2.1 == 65535) = some (5, 65535, 9, 1)
    ∧ port p ∧ p.p2p = true ∧ (p.ptpOf 7).req = some (65535, 7)
    ∧ port q ∧ (q.ptpOf 7).req = some (65535, 7) ∧ (q.ptpOf 7).resp = some (65535, 9, 8) := by decide +kernel

/-- FrameReferenceAndTimedPulses: frame clock 7 on FRAME_REF, in step and run on; pulse 7 in the future, due, one-shot and of the shortest
period. -/
theorem test_meets_pulses :
    let s := (up []).setFclk 7 { on := true, ref := true }
    let run := (up []).setFclk 7 { on := true, ref := true, runOn := true }
    let ahead := up [(Reg.TIM_TPO_TIME 7, 0x7FFF_FFFF)]
    let once := up [(Reg.TIM_TPO_CTRL 7, 0x8000_0000)]
    let often := up [(Reg.TIM_TPO_CTRL 7, 0x8000_07D0)]
    s.tim.running = true ∧ (s.fclkOf 7).on = true ∧ (s.fclkOf 7).ref = true ∧ s.sourcesFclk 7 = true
    ∧ (s.fclkOf 7).lastRef = none ∧ (s.fclkOf 7).runOn = false ∧ run.tim.running = true ∧ (run.fclkOf 7).on = true
    ∧ (run.fclkOf 7).ref = true ∧ run.sourcesFclk 7 = true ∧ (run.fclkOf 7).lastRef = none ∧ (run.fclkOf 7).runOn = true
    ∧ s.bit Reg.TIM_STATUS (8 + 7) = false
    ∧ ahead.access .pcie = true ∧ wbit 0x8000_0000 31 = true ∧ wbits (0x8000_0000 : Word) 30 0 = 0
    ∧ tsReached ahead.ts (ahead.reg (Reg.TIM_TPO_TIME 7)) = false ∧ once.access .pcie = true ∧ once.standby = false
    ∧ tsReached once.ts (once.reg (Reg.TIM_TPO_TIME 7)) = true ∧ once.bit (Reg.TIM_TPO_CTRL 7) 31 = true
    ∧ once.fld (Reg.TIM_TPO_CTRL 7) 30 0 = 0 ∧ often.bit (Reg.TIM_TPO_CTRL 7) 31 = true
    ∧ tsReached often.ts (often.reg (Reg.TIM_TPO_TIME 7)) = true ∧ 2000 ≤ often.fld (Reg.TIM_TPO_CTRL 7) 30 0 := by
  decide +kernel

/-! ### Witnesses: memory (chapter 10) -/

/-- 64 GiB of HOT space on ranks 0, 4, 8 and 12, ACTIVE, X access open, FCLK0 past its first commit point. -/
def ranked (l : List (Nat × Word)) : State :=
  up ([(Reg.MEM_SPACE, 0x0040_0000), (Reg.MEM_RANK_STATUS 0, 0x1400_0000), (Reg.MEM_RANK_STATUS 4, 0x1400_0000),
    (Reg.MEM_RANK_STATUS 8, 0x1400_0000), (Reg.MEM_RANK_STATUS 12, 0x1400_0000), (Reg.SYS_LEVEL_STATUS, 0x8000_0000),
    (Reg.CMD_FCLK_COUNT 0, 1)] ++ l)

/-- As `ranked`, channel 3 holding requests. -/
def pooled (l : List MemReq) : State := { ranked [] with mem := { pool := [(3, l)] } }

/-- MemoryRequestsAndRefresh: the last port and channel, an empty pool, a queued write that a read matches, a read whose data a
later access has settled, the last rank
in each state. -/
theorem test_meets_memory_requests :
    let a := 0x1FF
    let rd : MemReq := { port := 7, write := false, addr := 0x180, data := [], arr := 0 }
    let wr : MemReq := { port := 7, write := true, addr := 0x180, data := [1], arr := 0 }
    let old : MemReq := { rd with data := [1], settled := true }
    let pl : DramPlace := { chan := 3, group := 0, bank := 0, row := 0, set := 0 }
    let held := ranked [(Reg.MEM_RANK_STATUS 15, 0x3400_0001)]
    (pooled []).ready = true ∧ (pooled []).dramHome (a / 128 * 128) = some (pl, 12)
    ∧ (∀ x ∈ (pooled []).pool pl.chan, x.write = true → x.settled = false → x.addr / 128 ≠ a / 128) ∧ ((pooled []).pool 3).length < 256
    ∧ (∀ x ∈ (pooled []).waiting pl.chan, x.addr / 128 ≠ a / 128)
    ∧ (((pooled []).pool pl.chan).filter fun x => x.port == 7).length < 96
    ∧ (pooled [wr]).ready = true ∧ (pooled [wr]).dramHome (a / 128 * 128) = some (pl, 12)
    ∧ (∀ x ∈ (pooled [wr]).waiting pl.chan, x.addr / 128 ≠ a / 128)
    ∧ ((pooled [wr]).pool pl.chan).reverse.find? (fun x => x.write && x.addr / 128 == a / 128 && !x.settled) = some wr
    ∧ held.ready = true ∧ held.refreshDue 15 = true
    ∧ (pooled [rd]).ready = true ∧ dramSound (pooled [rd]) ∧ Cells.get (fun _ => []) (pooled [rd]).mem.waiting 3 = []
    ∧ (pooled [rd]).memPick 3 ([384].filter fun b => b / 128 == 3 && !(pooled [rd]).rankHeld (b / 32)) = some (384, rd)
    ∧ dramSound (pooled [old]) ∧ Cells.get (fun _ => []) (pooled [old]).mem.waiting 3 = [] ∧ old.data ≠ []
    ∧ (pooled [old]).memPick 3 ([384].filter fun b => b / 128 == 3 && !(pooled [old]).rankHeld (b / 32)) = some (384, old)
    ∧ dramSound (pooled [wr]) ∧ Cells.get (fun _ => []) (pooled [wr]).mem.waiting 3 = []
    ∧ (pooled [wr]).memPick 3 ([384].filter fun b => b / 128 == 3 && !(pooled [wr]).rankHeld (b / 32)) = some (384, wr)
    ∧ wr.addr + wr.data.length ≤ (pooled [wr]).dramSize
    ∧ (ranked []).rankState 12 = 1 ∧ (ranked []).activeMode 12 = true ∧ held.rankState 15 = 3
    ∧ (ranked [(Reg.MEM_RANK_STATUS 15, 0x4400_0000)]).rankState 15 = 4
    ∧ (ranked []).bit (Reg.MEM_RANK_STATUS 12) 25 = false := by
  unfold dramSound; decide +kernel

/-- MemoryRequestsAndRefresh: a COLD rank that may enter self-refresh, a spare that fills. -/
theorem test_meets_self_refresh :
    let s := ranked [(Reg.MEM_RANK_STATUS 15, 0x1800_0000), (Reg.MEM_CONFIG, 0x0400_0000)]
    s.rankRole 15 = 2 ∧ s.rankState 15 = 1 ∧ s.bit Reg.MEM_CONFIG 26 = true
    ∧ (∀ r ∈ s.pool (15 / 4), (s.reqBank r).1 / 32 ≠ 15)
    ∧ (ranked [(Reg.MEM_RANK_STATUS 15, 0x7C00_0000)]).rankState 15 = 7 := by decide +kernel

/-- TrainingAndOperatingPoints: rank 15 in training, trained and not; a switch pending at its commit point, held and
not. -/
theorem test_meets_training :
    let s := ranked [(Reg.MEM_RANK_STATUS 15, 0x4400_0000), (Reg.MEM_RANK_TRAIN 15, 3), (Reg.MEM_OP_STATUS, 0x4000_0000)]
    let c := ranked [(Reg.MEM_OP_STATUS, 0x4000_0000)]
    let h := s.setReg Reg.MEM_OP_STATUS 0x6000_0000
    s.rankState 15 = 4 ∧ (s.mram.retired.any fun e => e.1 == 15) = false ∧ s.migrating 15 = false
    ∧ s.activeMode 12 = true ∧ s.trained 15 = true
    ∧ mayWriteX s .pcie ∧ s.bit Reg.MEM_OP_STATUS 30 = true ∧ s.fld (Reg.CMD_FCLK_COUNT 0) 31 0 ≠ s.mem.switchAt
    ∧ c.bit Reg.MEM_OP_STATUS 30 = true ∧ c.fld (Reg.CMD_FCLK_COUNT 0) 31 0 ≠ c.mem.switchAt
    ∧ (∀ i, i < 16 → c.rankState i ≠ 4 ∧ c.rankState i ≠ 3)
    ∧ h.bit Reg.MEM_OP_STATUS 29 = true ∧ h.bit Reg.MEM_OP_STATUS 30 = true
    ∧ h.fld (Reg.CMD_FCLK_COUNT 0) 31 0 ≠ h.mem.switchAt ∧ (∀ i, i < 16 → h.rankState i ≠ 3)
    ∧ (h.setReg (Reg.CMD_FCLK_COUNT 0) 0).bit Reg.MEM_OP_STATUS 29 = true
    ∧ (h.setReg (Reg.CMD_FCLK_COUNT 0) 0).fld (Reg.CMD_FCLK_COUNT 0) 31 0 = h.mem.switchAt
    ∧ (∀ i, i < 16 → h.rankState i = 4 → (h.mram.retired.any fun e => e.1 == i) = false ∧ h.migrating i = false) := by
  unfold mayWriteX mayWrite; decide +kernel

/-- ErrorsRetireRanks: the last line of DRAM, for a write and for the scrub; its rank awake, asleep and catching up;
codewords with the last device damaged, with two; a migration to the last rank. -/
theorem test_meets_errors :
    let s : State := { ranked [(Reg.MEM_SCRUB_CTRL, 0x8000_0000)] with mem := { scrubPos := 2 ^ 36 - 128 } }
    let asleep := s.setRankState 0 2
    let busy := s.setRankState 0 3
    let m := ranked [(Reg.MEM_MIGRATE, 0x8EF0_0000)]
    let home := s.servingRank (2 ^ 36 - 1) 0
    s.dramHome (2 ^ 36 - 1) = some (dramPlace 16 (2 ^ 36 - 1), 0) ∧ s.migrating home = false
    ∧ (s.mram.retired.any fun e => e.1 == home) = false
    ∧ s.ready = true ∧ s.bit Reg.MEM_SCRUB_CTRL 31 = true ∧ dramQuiet s ∧ s.mem.scrubPos < s.dramSize
    ∧ s.scrubRank s.mem.scrubPos = some 0 ∧ s.rankHeld 0 = false ∧ s.rankState 0 = 1
    ∧ asleep.ready = true ∧ asleep.bit Reg.MEM_SCRUB_CTRL 31 = true ∧ asleep.scrubRank asleep.mem.scrubPos = some 0
    ∧ asleep.rankState 0 = 2 ∧ busy.ready = true ∧ busy.bit Reg.MEM_SCRUB_CTRL 31 = true
    ∧ busy.scrubRank busy.mem.scrubPos = some 0 ∧ busy.rankState 0 = 3 ∧ busy.rankHeld 0 = true
    ∧ eccOutcome [0, 10, 0, 10] = 9 + 1 ∧ eccOutcome [0, 1, 10] = 11
    ∧ mayWriteX s .pcie ∧ s.migrating 15 = false ∧ (s.mram.retired.any fun e => e.1 == 15) = false
    ∧ m.bit Reg.MEM_MIGRATE 31 = true ∧ m.fld Reg.MEM_MIGRATE 27 24 ≠ m.fld Reg.MEM_MIGRATE 23 20
    ∧ m.mem.copies = [] ∧ ({ m with mem := { copies := [(15, 3)] } } : State).mem.copies = (15, 3) :: [] := by
  unfold mayWriteX mayWrite dramQuiet portsQuiet dramSound; decide +kernel

/-- R276, R298: line `n` of a COLD rank in ascending address order has that rank as its home and `n` as its place there. -/
theorem test_cold_line :
    let s := ranked ((Reg.MEM_SPACE, 0x0040_0080) :: [1, 5, 9, 13, 2, 6, 10, 14].map fun i => (Reg.MEM_RANK_STATUS i, 0x1800_0000))
    ([1, 5, 9, 13, 2, 6, 10, 14].all fun i => [0, 1, 2, 0x7FF, 0x800, 0x1FFF, 0x2000, 0x12_3456, 0x7FF_FFFF].all fun n =>
      (s.dramHome (128 * s.coldLine i n)).map Prod.snd == some i && s.rankOffset (128 * s.coldLine i n) == 128 * n) = true := by
  decide +kernel

/-! ### Witnesses: block compressor (chapter 11) -/

/-- A job descriptor: 16 bytes from 0x2000 to 0x3000, with a space. -/
def jobBytes (op space : Nat) : List Byte :=
  body 64 ([op, 0, 0, 0, 1, 0, 0, 0, 0, 0x20, 0, 0, 0, 0, 0, 0, 16, 0, 0, 0, 0, 0, 0, 0, 0, 0x30, 0, 0, 0, 0, 0, 0, space])

/-- A device with DRAM whose one job has its descriptor at 0x1000. -/
def jobbed (op space : Nat) : State :=
  { ((up [(Reg.MEM_SPACE, 0x0020_0000)]).dramWrite 0x1000 (jobBytes op space)).dramWrite 0x2000 (body 16 [1, 2, 3]) with
    blk := { jobs := [0x1000] } }

/-- BlockJobsRunAndPostResults: seven jobs held and eight; each operation, COMPRESS and DECOMPRESS with the largest and
the least spaces; the end of a job that writes MAGIC and of one that writes none. -/
theorem test_meets_block_jobs :
    let d := fun op space => JobDesc.ofBytes (jobBytes op space)
    let e : JobEnd := { op := 0, code := 0, data := [1, 2, 3, 4], magic := some 0x3000 }
    let done : State := { jobbed 0 255 with blk := { jobs := [0x1000], done := some e } }
    let full : State := { up [] with blk := { jobs := List.replicate 8 0 } }
    let seven : State := { up [] with blk := { jobs := List.replicate 7 0 } }
    mayWrite (up []) .spi ∧ seven.access .spi = true ∧ seven.blk.jobs.length < 8
    ∧ full.access .spi = true ∧ 8 ≤ full.blk.jobs.length
    ∧ (jobbed 0 255).blkJob = some 0x1000 ∧ (jobbed 0 255).jobCheck 0x1000 = (0, d 0 255) ∧ (d 0 255).op = 0
    ∧ (jobbed 0 0).jobCheck 0x1000 = (0, d 0 0) ∧ (d 0 0).op = 0 ∧ (jobbed 0 0).blk.done = none ∧ dramQuiet (jobbed 0 0)
    ∧ (jobbed 1 255).blkJob = some 0x1000 ∧ (jobbed 1 255).jobCheck 0x1000 = (0, d 1 255) ∧ (d 1 255).op = 1
    ∧ (jobbed 1 255).blk.done = none ∧ dramQuiet (jobbed 1 255)
    ∧ (jobbed 2 0).blkJob = some 0x1000 ∧ (jobbed 2 0).jobCheck 0x1000 = (0, d 2 0) ∧ (d 2 0).op = 2 ∧ portsQuiet (jobbed 2 0)
    ∧ done.blkJob = some 0x1000 ∧ done.blk.done = some e ∧ e.magic = some 0x3000 ∧ dramQuiet done
    ∧ 0x3000 + 4 ≤ done.dramSize ∧ ({ e with magic := none } : JobEnd).magic = none
    ∧ (up []).access .spi = true ∧ (up []).blkJob = none ∧ (jobbed 0 255).access .spi = true := by
  unfold mayWrite dramQuiet portsQuiet dramSound; decide +kernel

/-! ### Witnesses: composition, outputs, check values (chapters 12 to 15) -/

/-- A MEMORY node 0 and a GLASS node 255 of OUT23, LEAD 2, on a raster of 16 × 16 in 40 lines with COMMIT_LEAD 8; OUT23 as
given. -/
def framed (o : OutputSt) : State :=
  let recs := [Rec.mk RT.NODE 0 (body 32 [1, 0, 16, 0, 16, 0]),
    Rec.mk RT.NODE 255 (body 32 [0, 0, 16, 0, 16, 0, 23, 0, 0, 0, 0, 0, 0, 2]),
    Rec.mk RT.OUTPUT_TIMING 87 (body 40 [16, 0, 16, 0, 40, 0, 6, 0, 8])]
  ((withRecs (up [(Reg.JLO_PORT_CTRL 23, 0x8000_0000)]) recs).setNode 0 { frame := some emptyFrame }).setOutput 23 o

/-- Its raster, and a frame being sent. -/
def raster : Timing := Timing.ofBody (body 40 [16, 0, 16, 0, 40, 0, 6, 0, 8])
def sending : OutFrame :=
  { no := 65535, frame := emptyFrame, card := false, lanterns := [], onAir := true, regions := [], sigs := [], settling := false,
    memConv := none }

/-- The plan of a node whose structure has gone. -/
def oldPlan : NodePlan := { node := 9, w := 16, h := 16, start := { r := 0, g := 0, b := 0, a := 0 }, layers := [] }

/-- FramesAreComposedAndSent: a segment of an output's frame from before a structure start; the last line of a node and of a raster, just in time; the latch line, the first and the
last active line, the line after; the last band of a frame; a hold that ends now. -/
theorem test_meets_frames :
    let s := framed { begun := true, cur := some sending, line := 22 }
    let l := framed { begun := true }
    let nine : Incoming := { alive := 0, cap := 0, ptp := false, epoch := 0, w := 16, h := 9, fmt := 6 }
    let strm := (up []).setStream 159 { on := true, pyramid := true, cur := some nine }
    let r0 := NodeRec.ofBody (body 32 [1, 0, 16, 0, 16, 0])
    let r := NodeRec.ofBody (body 32 [0, 0, 16, 0, 16, 0, 23, 0, 0, 0, 0, 0, 0, 2])
    let late := framed { begun := true, cur := some { sending with frame := { emptyFrame with plans := [oldPlan] } }, line := 22,
                         old := some (raster, 2) }
    late.oldOutput 9 = some 23 ∧ late.raster 23 = some raster
    ∧ 15 + (raster.commitLead - late.rasterLead 23) ≤ (late.output 23).line
    ∧ s.oldOutput 0 = none ∧ portsQuiet s ∧ s.oldOutput 255 = none ∧ s.node 0 = some r0 ∧ r0.dest = 1 ∧ (s.nodeSt 0).frame = some emptyFrame ∧ 15 < emptyFrame.h ∧ 1024 * 0 < emptyFrame.w
    ∧ Cells.get (fun _ => []) emptyFrame.segs (segKey 15 0) = [] ∧ emptyFrame.segs.length + 1 < emptyFrame.h * cdiv emptyFrame.w 1024
    ∧ Fmt.known emptyFrame.conv.fmt = true ∧ sending.memory = false ∧ outPorts 23 raster = [23]
    ∧ s.node 255 = some r ∧ r.dest ≠ 1 ∧ r.dest ≠ 3 ∧ s.raster r.output = some raster
    ∧ (s.output r.output).cur = some sending ∧ sending.card = false ∧ sending.ready 15 0 = false ∧ 15 < raster.h
    ∧ 0 < (outPorts r.output raster).length * (cutLine raster.portW).1 ∧ (outSeg raster 0).1 < (outSeg raster 0).2
    ∧ 15 + (raster.commitLead - s.rasterLead r.output) ≤ (s.output r.output).line
    ∧ (s.output r.output).line < raster.commitLead + 15
    ∧ (strm.stream 159).cur.isSome = true ∧ strm.freePrescaler = some 0 ∧ (strm.stream 159).pyramid = true
    ∧ (strm.stream 159).cur.map (fun f => (f.dropped, decide (8 * 1 < f.h))) = some (false, true)
    ∧ l.ready = true ∧ l.raster 23 = some raster ∧ 23 ∈ l.rasterOuts ∧ (l.output 23).begun = true
    ∧ (l.output 23).cur = none ∧ (l.output 23).fsSent = false ∧ raster.commitLead - l.rasterLead 23 < raster.total
    ∧ s.ready = true ∧ 23 ∈ s.rasterOuts ∧ (s.output 23).begun = true ∧ (s.output 23).waitStart = false
    ∧ raster.commitLead + 15 < raster.total ∧ raster.commitLead + raster.h < raster.total ∧ s.headOf 23 = none
    ∧ ((framed { hold := some 0 }).output 23).hold = some 0 ∧ 0 ≤ (framed { hold := some 0 }).uptime := by
  unfold portsQuiet; decide +kernel

/-- CheckChannelsComputeAndCompare: the last channel, RUNNING and IDLE, with and without COMPARE. -/
theorem test_meets_check_channels :
    let s := up [(Reg.CHK_SEL, 0x33F)]
    let c := (up [(Reg.CHK_CTRL 63, 0x0080_0000)]).setChan 63 { exp := 0x1234 }
    let run := s.setChan 63 { state := 1 }
    s.access .pcie = true ∧ s.chanKind 63 = 0 ∧ wbits (s.shadow (Reg.CHK_CTRL 63)) 31 30 = 0 ∧ s.xOpen = false
    ∧ s.standby = false ∧ s.bit (Reg.CHK_CTRL 63) 23 = false
    ∧ c.access .pcie = true ∧ c.chanKind 63 = 0 ∧ wbits (c.shadow (Reg.CHK_CTRL 63)) 31 30 = 0 ∧ c.xOpen = false
    ∧ c.bit (Reg.CHK_CTRL 63) 23 = true
    ∧ Crc.finish (c.chanRun 63) ((c.chan 63).reg % 2 ^ (c.chanRun 63).w) ≠ (c.chan 63).exp.toNat % 2 ^ (c.chanRun 63).w
    ∧ s.chkSel = 63 ∧ run.chanKind run.chkSel = 0 ∧ (run.chan run.chkSel).state = 1 ∧ (s.chan s.chkSel).state ≠ 1 := by
  decide +kernel

/-! ### Witnesses: vigil, wall encoding, touch (chapters 16 to 18) -/

/-- Encoder 3 on S160, RUNNING or as given, a latch due. -/
def encoding (st : Word) (complete : Bool) (x : EncSt) : State :=
  ((up [(Reg.ENC_STATUS 3, st <<< 29), (Reg.ENC_CFG 3, 160)]).setStream 160
    { on := true, complete := if complete then some 1 else none }).setEnc 3 x

/-- A picture being coded. -/
def coding : EncPic :=
  { state := .live, sub := 0, age := 0, cap := 0, alive := 65535, epoch := 0, rtp := 0, again := false, damaged := false,
    forced := false, wanted := true, budget := 1000, hot := false, rows := 1, guarded := [], qpMin := 0, qpMax := 51,
    standby := false, input := { w := 64, h := 64, fmt := 9 } }

/-- AgesTickAndEncodersTakePictures: a stream that ages and one that is off; encoder 3 at a latch with a frame and
without one, in each state that a latch changes; a picture in progress. -/
theorem test_meets_ages_and_encoders :
    (encoding 2 true { due := true }).ready = true
    ∧ Cells.wf (fun _ => {}) (encoding 2 true { due := true }).streams = true
    ∧ ((encoding 2 true { due := true }).stream 160).on = true ∧ ((encoding 2 true { due := true }).stream 0).on = false
    ∧ ((encoding 1 true { due := true }).encSt 3).due = true ∧ ((encoding 1 true { due := true }).encSt 3).pic = none
    ∧ (encoding 1 true { due := true }).encState 3 = 1 ∧ (encoding 1 true { due := true }).encHasFrame 3 = true
    ∧ ((encoding 2 false { due := true }).encSt 3).due = true ∧ ((encoding 2 false { due := true }).encSt 3).pic = none
    ∧ (encoding 2 false { due := true }).encState 3 = 2 ∧ (encoding 2 false { due := true }).encHasFrame 3 = false
    ∧ ((encoding 2 true { pic := some coding }).encSt 3).pic = some coding
    ∧ (encoding 2 true { pic := some coding }).encToRing 3 = false ∧ mayWrite (up []) .pcie := by
  unfold mayWrite; decide +kernel

/-- Head 23 in a state; the touch reel's record too. -/
def headed (x : TouchHead) : State := (withRecs opened [Rec.mk RT.TOUCH_HEAD 23 headBody]).setHead 23 x
def reeled (x : TouchHead) : State :=
  (withRecs opened [Rec.mk RT.TOUCH_HEAD 23 headBody, Rec.mk RT.REEL 64 []]).setHead 23 x

/-- A touch that is down. -/
def finger : TouchPt :=
  { id := 255, x := 0, y := 0, strength := 1, glove := false, atStart := false, node := 0, held := 0, downX := 0, downY := 0,
    zone := some 63, long := false }

/-- TouchHeadsKeepTheirZonesAndMaps: the last head and zone, with a touch reel and without, with no record at all. -/
theorem test_meets_touch_heads :
    let r := HeadRec.ofBody headBody
    let z : TouchZone := { kind := 2, state := 1, hold := 1 }
    let pressed := headed ({ present := true, touches := [finger] } : TouchHead) |>.setHead 23
      (({ present := true, touches := [finger] } : TouchHead).setZone 63 z)
    let taken := headed { capture := some { left := [], vals := [(0, 5)] } }
    let asked := headed { proposals := [(0, 3)] }
    (headed { present := true }).headRec 23 = some r ∧ ((headed { present := true }).head 23).present = true
    ∧ mayWriteX (headed { present := true }) .pcie ∧ (headed { present := true }).bit Reg.TCH_MAP_CTRL 30 = false
    ∧ ((headed { present := true }).head 23).flooded = false ∧ ((headed { present := true }).head 23).busy = false
    ∧ mayWriteX opened .pcie ∧ opened.bit Reg.TCH_MAP_CTRL 30 = false ∧ opened.headRec 23 = none
    ∧ (taken.head 23).capture = some { left := [], vals := [(0, 5)] } ∧ taken.headRec 23 = some r
    ∧ (headed { rateNext := 2 }).headRec 23 = some r ∧ ((headed { rateNext := 2 }).head 23).touches = []
    ∧ ((headed { rateNext := 2 }).head 23).rateNext = 2 ∧ (headed { rateNext := 2 }).touchReel = false
    ∧ (((headed { rateNext := 2 }).head 23).proposals.any fun q => q.1 == 0) = false ∧ r.rateTop ≤ 2 + 1
    ∧ (reeled { rateNext := 2 }).headRec 23 = some r ∧ ((reeled { rateNext := 2 }).head 23).touches = []
    ∧ ((reeled { rateNext := 2 }).head 23).rateNext = 2 ∧ (reeled { rateNext := 2 }).touchReel = true
    ∧ (((reeled { rateNext := 2 }).head 23).proposals.any fun q => q.1 == 0) = false
    ∧ asked.headRec 23 = some r ∧ (asked.head 23).proposals.find? (fun q => q.1 == 0) = some (0, 3) ∧ r.rateTop ≤ 3
    ∧ (asked.head 23).touches = [] ∧ 3 ≠ (asked.head 23).rateNext
    ∧ pressed.headRec 23 ≠ none ∧ ((pressed.head 23).zone 63).kind = 2 ∧ ((pressed.head 23).zone 63).state = 1
    ∧ ((pressed.head 23).zone 63).hold ≠ 0
    ∧ (pressed.head 23).touches.find? (fun k => k.id == 255) = some finger ∧ finger.long = false := by
  unfold mayWriteX mayWrite; decide +kernel

/-! ### Witnesses: twin pair (chapter 19) -/

/-- A twin whose two twin ports deliver, in a role and state of TWN.STATUS, with registers. -/
def twinned (st : Word) (x : Twin) (l : List (Nat × Word)) : State :=
  { locked (locked (up ([(Reg.TWN_STATUS, st), (Reg.SYS_LEVEL_STATUS, 0x8000_0000)] ++ l)) 120) 121 with twin := x }

/-- The first copy of a TWIN_MIRROR packet can arrive on TWN1. -/
def mirrors (s : State) (kind epoch index aux : Nat) (body : List Byte) : Bool :=
  delivers s 121 0x20 0 (mirrorBytes kind epoch index aux body) && decide (epoch < 2 ^ 32) && decide (index < 2 ^ 32)
    && decide (aux < 2 ^ 32) && decide ((kind, epoch, index, 0) ∉ s.twin.seen)

theorem mirrors_arrives (s : State) (kind epoch index aux : Nat) (body : List Byte)
    (h : mirrors s kind epoch index aux body = true) :
    mirrorArrives s 1 kind epoch index aux body (packetBytes 0x20 0 0 0 (mirrorBytes kind epoch index aux body)) := by
  simp only [mirrors, Bool.and_eq_true, decide_eq_true_eq] at h
  exact ⟨by decide, h.1.1.1.2, h.1.1.2, h.1.2, h.2, delivers_arrives s 121 0x20 0 _ h.1.1.1.1⟩

/-- A STANDBY and an ACTIVE. -/
abbrev stand : Word := 0x4000_0000
abbrev act : Word := 0x8000_0000

/-- The beat of a qualified standby. -/
def standbyBeat : Beat := Beat.ofBytes (body 80 []) 0 0

/-- TwinPathsDecideTheRole: beats of 80 bytes from either role on the last port, unsynced, on either side; each
MAYPOLE code; each row of the standby's table. -/
theorem test_meets_twin_paths :
    let b := twinned act {} [(Reg.SYS_STRAPS, 0x20)]
    let lost := twinned stand { met := true } []
    (twinned stand {} []).ready = true ∧ (twinned stand {} []).standby = true ∧ (twinned act {} []).active = true
    ∧ delivers (twinned stand {} []) 121 0x21 0 (body 80 [0, 1]) = true ∧ (twinned stand {} []).bit Reg.TWN_STATUS 25 = false
    ∧ (body 80 [0, 1]).length = 80 ∧ leAt (body 80 [0, 1]) 1 1 ≠ (twinned stand {} []).sideStrap
    ∧ leAt (body 80 [0, 0]) 1 1 = (twinned stand {} []).sideStrap
    ∧ (twinned 0x5800_0000 {} []).standby = true ∧ (twinned 0x5800_0000 {} []).sync = 3
    ∧ delivers (twinned 0x5800_0000 {} []) 121 0x21 0 (body 80 [1, 1]) = true ∧ leAt (body 80 [1, 1]) 0 1 = 1
    ∧ delivers (twinned act {} []) 121 0x21 0 (body 80 [1, 1]) = true ∧ (twinned act {} []).twin.since = none
    ∧ (twinned act {} []).sideStrap = 0 ∧ (twinned act {} []).bit Reg.TWN_STATUS 25 = false
    ∧ b.active = true ∧ b.sideStrap = 1 ∧ b.bit Reg.TWN_STATUS 25 = false ∧ delivers b 121 0x21 0 (body 80 [1, 0]) = true
    ∧ (twinned stand {} [(Reg.TWN_PATHS, 0x8000_0000)]).hornpipe 0 = true
    ∧ (twinned stand {} []).hornpipe 0 = false ∧ (twinned act {} []).hornpipe 0 = false
    ∧ (twinned stand { mpRise := some 0 } []).twin.mpRise = some 0 ∧ (twinned stand { mpRise := some 0 } []).active = false
    ∧ (twinned stand {} [(Reg.TWN_PATHS, 0x8800_0000)]).hornpipeAny = true
    ∧ (twinned stand {} [(Reg.TWN_PATHS, 0x8800_0000)]).bit Reg.TWN_PATHS 27 = true
    ∧ (twinned stand { listened := true } [(Reg.TWN_PATHS, 0x4000_0000)]).hornpipeAny = true
    ∧ (twinned stand { listened := true } [(Reg.TWN_PATHS, 0x4000_0000)]).bit Reg.TWN_PATHS 27 = false
    ∧ (twinned stand { listened := true } [(Reg.TWN_PATHS, 0x2000_0000)]).hornpipeAny = false
    ∧ (twinned stand { listened := true } [(Reg.TWN_PATHS, 0x2000_0000)]).maypole = 2
    ∧ (twinned stand {} [(Reg.TWN_PATHS, 0x1000_0000)]).maypole = 1
    ∧ (twinned stand {} [(Reg.TWN_PATHS, 0x3000_0000)]).maypole = 3
    ∧ lost.standby = true ∧ lost.hornpipeAny = false ∧ lost.maypole = 0 ∧ lost.twin.met = true := by decide +kernel

/-- An epoch sealed for the next boundary, with an answer and slips; an active that holds it. -/
def sealedOf (a : Answer) (slips : Nat) : Sealed :=
  { num := 1, items := [], trailer := Trailer.ofBytes [], target := 1, slips := slips, answer := a, decided := false,
    alone := false }
def seals (a : Answer) (slips : Nat) (paths : Word) : State :=
  twinned act { sealed := some (sealedOf a slips), filling := 2 } [(Reg.TWN_PATHS, paths)]

/-- A verdict awaited. -/
def awaited : LoadResult := { code := 0, source := 3, gen := 2, record := 0, object := 0, unprov := true }
def awaits : State :=
  let s := twinned act { verdict := some awaited } []
  { s with ld := { s.ld with deltaVerdict := some (deltaOfImage deltaImage none) } }

/-- As `awaits`, of a full image. -/
def awaitsFull : State :=
  let s := twinned act { verdict := some awaited } []
  { s with ld := { s.ld with nextVerdict := some (planOfImage fullImage .accepted none) } }

/-- ActiveSealsAndDecidesEpochs: no epoch sealed and one; each answer, a peer present and absent, slips below and at
their limit; packets of every kind that answers. -/
theorem test_meets_active_epochs :
    let free := (twinned act {} []).setFclk 0 { on := true }
    let here : Word := 0x8000_0000
    free.active = true ∧ free.twin.sealed = none ∧ (free.fclkOf 0).on = true
    ∧ (seals .ack 0 here).active = true ∧ (seals .ack 0 here).twin.sealed = some (sealedOf .ack 0)
    ∧ (sealedOf .ack 0).target = (seals .ack 0 here).twin.fclk0 + 1
    ∧ (seals (.nack 255) 0 here).twin.sealed = some (sealedOf (.nack 255) 0)
    ∧ (seals .none 0 0).hornpipeAny = false ∧ (seals .none 0 here).hornpipeAny = true ∧ (seals .none 0 here).sync ≠ 3
    ∧ (sealedOf .none 0).slips < (seals .none 0 here).slipMax
    ∧ (seals .none 15 here).slipMax ≤ (sealedOf .none 15).slips ∧ (seals .none 15 here).hornpipeAny = true
    ∧ mirrors (seals .none 0 here) 2 1 0 0 [] = true ∧ mirrors (seals .none 0 here) 3 1 255 0 [] = true
    ∧ mirrors free 6 0 23 65535 (body 8 [1, 1, 0, 0, 5]) = true ∧ leAt (body 8 [1, 1, 0, 0, 5]) 0 1 = 1
    ∧ mirrors free 7 0 0 7 [] = true ∧ mirrors (seals .none 0 here) 7 0 0 0 [] = true
    ∧ awaits.active = true ∧ awaits.twin.verdict = some awaited ∧ awaited.gen = 2
    ∧ awaits.bit Reg.SYS_LOAD_STATUS 31 = false ∧ mirrors awaits 9 0 2 255 [] = true ∧ mirrors awaits 9 0 2 0 [] = true
    ∧ awaits.ld.deltaVerdict = some (deltaOfImage deltaImage none)
    ∧ imgDelta (deltaOfImage deltaImage none).image = true ∧ awaited.code = 0
    ∧ awaitsFull.active = true ∧ awaitsFull.twin.verdict = some awaited ∧ awaitsFull.bit Reg.SYS_LOAD_STATUS 31 = false
    ∧ awaitsFull.ld.deltaVerdict = none ∧ awaitsFull.ld.nextVerdict = some (planOfImage fullImage .accepted none)
    ∧ imgDelta (planOfImage fullImage .accepted none).image = false
    ∧ mirrors awaitsFull 9 0 2 0 [] = true := by decide +kernel

/-- A received epoch that has been acknowledged. -/
def rxAcked : RxEpoch :=
  { num := 1, items := [], trailer := Trailer.ofBytes [], target := 5, answer := .ack, committed := false }

/-- StandbyHoldsAndAnswersEpochs: packets of every kind a standby takes, the last epoch number, the last chunk of an
image. -/
theorem test_meets_standby_epochs :
    let s := twinned stand { rxSealed := [rxAcked] } []
    let r := twinned 0x5000_0000 {} []
    let i := twinned stand { image := bytes [1], imageLen := 2 } []
    s.standby = true ∧ mirrors s 0 (2 ^ 32 - 1) 0 0 (Item.bytes .handover) = true
    ∧ s.fld Reg.TWN_LAST_EPOCH 31 0 < 2 ^ 32 - 1
    ∧ itemsOf ((Item.bytes .handover).length + 1) (Item.bytes .handover) = some [.handover] ∧ s.twin.rxData = []
    ∧ mirrors s 1 2 1 0 (body 552 []) = true ∧ s.fld Reg.TWN_LAST_EPOCH 31 0 < 2 ∧ s.sync ≠ 2
    ∧ (∀ x ∈ s.twin.rxSealed, x.num ≠ 2) ∧ mirrors s 4 1 5 0 [] = true
    ∧ mirrors s 5 1 6 0 [] = true ∧ s.twin.rxSealed.find? (fun y => y.num == 1) = some rxAcked ∧ rxAcked.answer = .ack
    ∧ r.standby = true ∧ r.sync = 2 ∧ mirrors r 8 0 0 0 (Item.bytes .handover) = true ∧ r.twin.snap = []
    ∧ mirrors s 10 1 0 2 [1] = true ∧ i.standby = true ∧ mirrors i 10 1 1 2 [2] = true ∧ 1 = i.twin.image.length
    ∧ i.twin.imageLen = 2 ∧ 2 ≤ 1 + ([2] : List Byte).length := by decide +kernel

/-- TwinRequestsAndHealthTests: an active with a qualified standby and without; a standby; X access closed; the last
unit of an item, the tenth period without a test, the largest margin that degrades. -/
theorem test_meets_twin_requests :
    let q := twinned act { beats := [some standbyBeat, none] } [(Reg.TWN_PATHS, 0x8000_0000)]
    let n := twinned stand {} []
    let u := twinned stand { untested := [(9, 9)] } []
    let busy : State := { n with pre := { busy := [(39, 1)] } }
    twinCtrl q .spi ∧ q.active = true ∧ q.peerQualified = true ∧ q.hornpipeAny = true ∧ q.twin.handover = none
    ∧ twinCtrl n .spi ∧ n.active = false ∧ n.twin.handover = none ∧ n.standby = true
    ∧ (up []).access .spi = true ∧ (up []).xOpen = false
    ∧ n.ready = true ∧ n.autoHandover = false ∧ 5 < n.twin.health.length ∧ n.twin.failed.getLsbD 4 = false
    ∧ u.ready = true ∧ u.autoHandover = false ∧ Cells.get (fun _ => 0) u.twin.untested 9 = 9
    ∧ u.twin.degraded.getLsbD 9 = false ∧ n.twin.margins = []
    ∧ n.unitIdle 7 39 = true ∧ n.unitIdle 9 0 = true ∧ busy.autoHandover = false ∧ busy.unitIdle 7 39 = false := by
  unfold twinCtrl; decide +kernel

/-! ### Witnesses: ring (chapter 20) -/

/-- Member `k` of a ring of two whose last cascade port delivers, with registers. -/
def ringed (k : Word) (c : Cascade) (l : List (Nat × Word)) : State :=
  { locked (withRecs (up ([(Reg.SYS_STRAPS, 4 * k), (Reg.MEM_SPACE, 0x0020_0000)] ++ l))
      [Rec.mk RT.CASCADE 0 (body 16 [2])]) 115 with cas := c }

/-- A ring control message can arrive on the last cascade port. -/
def rings (s : State) (kind tag : Nat) (content : List Byte) : Bool :=
  delivers s 115 0x30 1 (ringBytes kind s.cascadeId 2 tag content) && decide (kind < 256) && decide (tag < 256)
    && s.has RT.CASCADE 0

theorem rings_arrives (s : State) (kind tag : Nat) (content : List Byte) (h : rings s kind tag content = true) :
    ringArrives s 3 kind tag content (packetBytes 0x30 1 0 0 (ringBytes kind s.cascadeId 2 tag content)) := by
  simp only [rings, Bool.and_eq_true, decide_eq_true_eq] at h
  exact ⟨by decide, h.1.1.2, h.1.2, h.2, delivers_arrives s 115 0x30 1 _ h.1.1.1⟩

/-- A delta of the last GEN that waits. -/
def lastDelta : Delta := { gen := 0xFFFF_FFFF, fclk := 0, recs := [], removes := [] }

/-- The master of a ring whose members report the last GEN. -/
def reported : State :=
  let s := ringed 0 {} [(Reg.CAS_MEMBER_GEN 1, 0xFFFF_FFFF)]
  { s with ld := { s.ld with deltas := [lastDelta] } }

/-- A direct packet can arrive on the last port of a device, for which its last BEAT is new. -/
def calls (s : State) (pl : List Byte) : Bool :=
  s.inRing && decide (s.members ≤ 8) && pl.length == 64 && leAt pl 4 1 == 0 && leAt pl 0 1 != s.cascadeId
    && decide (leAt pl 8 4 ∉ (s.casDev (leAt pl 0 1 * 2 + leAt pl 1 1 % 2)).beats) && delivers s 115 0x30 0 pl

theorem calls_arrives (s : State) (pl : List Byte) (h : calls s pl = true) :
    s.inRing = true ∧ s.members ≤ 8 ∧ pl.length = 64 ∧ leAt pl 4 1 = 0 ∧ leAt pl 0 1 ≠ s.cascadeId
      ∧ leAt pl 8 4 ∉ (s.casDev (leAt pl 0 1 * 2 + leAt pl 1 1 % 2)).beats
      ∧ arrives s 115 0x30 0 pl (packetBytes 0x30 0 0 0 pl) := by
  simp only [calls, Bool.and_eq_true, decide_eq_true_eq, beq_iff_eq, bne_iff_ne] at h
  exact ⟨h.1.1.1.1.1.1, h.1.1.1.1.1.2, h.1.1.1.1.2, h.1.1.1.2, h.1.1.2, h.1.2, delivers_arrives s 115 0x30 0 _ h.2⟩

/-- RingMembersHearAndCommitTogether: a master whose members report the last GEN; direct packets on the last port from
the device expected there and from another; a follower with one upstream. -/
theorem test_meets_ring_members :
    let m := reported
    let f := ringed 1 { upstream := some 3, upEpoch := some 7 } []
    let above := body 64 [0, 1, 0, 0, 0, 0, 0, 0, 9, 0, 0, 0, 5, 0, 0, 0, 1, 0, 0, 0, 0, 0, 0, 0, 7]
    m.ready = true ∧ m.inRing = true ∧ m.ringMaster = true ∧ m.cas.abort = none ∧ m.cas.ring = none
    ∧ 0 < m.members ∧ m.pendGen = 0xFFFF_FFFF
    ∧ (List.range m.members).all (fun k => k == 0 || m.fld (Reg.CAS_MEMBER_GEN k) 31 0 == 0xFFFF_FFFF) = true
    ∧ (List.range m.members).all (fun k => m.memberAlive k) = true
    ∧ calls m (body 64 [1, 1]) = true ∧ (1, 1) = m.neighbour 3 ∧ calls m (body 64 [1, 0]) = true ∧ (1, 0) ≠ m.neighbour 3
    ∧ calls f above = true ∧ (leAt above 0 1, leAt above 1 1) = f.neighbour 3 ∧ f.ringFollower = true
    ∧ f.cas.upstream = some 3 ∧ f.cas.direct.length = 4 ∧ (∀ j, j < 4 → j ≠ 3 → f.casLive j = false)
    ∧ leAt above 3 1 < f.members ∧ f.cas.upEpoch = some (w32 (leAt above 24 4)) ∧ leAt above 16 4 ≠ 0
    ∧ tsDiff (w32 (leAt above 20 4)) (w32 (leAt above 12 4)) ≤ (16 * f.ctPeriod * 1000 : Nat) := by decide +kernel

/-- A copy in progress of a whole frame of two pixels in three planes. -/
def threePlanes : Incoming :=
  { wholeFrame with segs := [(0, 0, 2), (16384, 0, 2), (32768, 0, 2)], img := { w := 2, h := 1, fmt := 6 } }
def copied : CasCopy := { onAir := true, inc := threePlanes, state := 0, age := 0, new := true, fault := false, latch := 0 }

/-- The same: ports and a member that fall silent, a frame that was arriving on one, a GEN that is not reported in time. -/
theorem test_meets_ring_losses :
    let f := ringed 1 { upstream := some 3, upEpoch := some 7 } []
    let raised := ringed 0 {} [(Reg.CAS_LINK 3, 0x8000_0000)]
    let waiting := ringed 0 { first := some (0xFFFF_FFFF, 0) } []
    let open' := ringed 0 { copies := [(319, some { copied with port := 3 })] } [(Reg.CAS_LINK 3, 0x8000_0000)]
    raised.ready = true ∧ raised.casUp 3 = true ∧ raised.ringFollower = false ∧ raised.cas.upstream = none
    ∧ raised.cas.copies = [] ∧ f.cas.copies = []
    ∧ open'.ready = true ∧ open'.casUp 3 = true ∧ open'.ringFollower = false ∧ open'.cas.upstream = none
    ∧ open'.cas.copies = [(2 * 159 + 1, some { copied with port := 3 })] ∧ copied.done = false
    ∧ f.ready = true ∧ f.ringFollower = true ∧ f.cas.upstream = some 3 ∧ (∀ j, j < 4 → j ≠ 3 → f.casLive j = false)
    ∧ raised.has RT.CASCADE 0 = true ∧ 1 < raised.members ∧ 1 ≠ raised.cascadeId ∧ 1 ∉ raised.cas.lost
    ∧ waiting.ringMaster = true ∧ waiting.cas.abort = none ∧ waiting.cas.first = some (0xFFFF_FFFF, 0) := by decide +kernel

/-- A command that another member forwards, and a queue that waits for the answer to one. -/
def forwarded : CmdRec := command 1 0 [0xFFFF]
def forwarding : State :=
  (ringed 0 {} [(Reg.CMD_EV_RING 15, 0x6000_0002), (Reg.CMD_Q_CTRL 15, 0x8000_0000),
    (Reg.CMD_Q_STATUS 15, 0x4000_0000)]).setQueue 15
    { wait := .forward 255 forwarded }

/-- `n` held commands. -/
def heldAs (k : Nat) : Held :=
  { seq := k, origin := .internal 32 1, clock := 0, defer := none, object := (0, 0), epoch := none, change := .words [] }
def holds (n : Nat) : Cmd := { held := (List.range n).map heldAs, nextSeq := n }

theorem eraseDups_loop (l : List Nat) : ∀ bs : List Nat, (bs.reverse ++ l).Nodup →
    List.eraseDupsBy.loop (· == ·) l bs = bs.reverse ++ l := by
  induction l with
  | nil => intro bs _; simp [List.eraseDupsBy.loop]
  | cons a t ih =>
    intro bs h
    have hn : a ∉ bs := fun hb => by
      rw [List.nodup_append] at h
      exact h.2.2 a (List.mem_reverse.mpr hb) a (List.mem_cons_self ..) rfl
    have e : bs.any (a == ·) = false := by
      simp only [List.any_eq_false, beq_iff_eq]
      exact fun x hx he => hn (he ▸ hx)
    have h' : ((a :: bs).reverse ++ t).Nodup := by simpa using h
    rw [List.eraseDupsBy.loop, e]
    simpa using ih (a :: bs) h'

/-- Held commands count, each with a number of its own: 1,024 of them for RingMessagesAreAnswered. -/
theorem test_full_hold (s : State) (n : Nat) : ({ s with cmd := holds n } : State).heldCommands = n
    ∧ ∀ h ∈ (holds n).held, h.seq < (holds n).nextSeq := by
  have e : (((List.range n).map heldAs).filter fun h => h.origin != .direct && h.change != .remote).map (·.seq)
      = List.range n := by
    rw [List.filter_eq_self.mpr fun h m => by
      obtain ⟨k, -, rfl⟩ := List.mem_map.mp m
      rfl]
    simp [Function.comp_def, heldAs]
  refine ⟨?_, fun h m => ?_⟩
  · show ((((List.range n).map heldAs).filter fun h => h.origin != .direct && h.change != .remote).map (·.seq)).eraseDups.length = n
    rw [e, List.eraseDups, List.eraseDupsBy, eraseDups_loop _ [] (by simpa using List.nodup_range)]
    simp
  · obtain ⟨k, hk, rfl⟩ := List.mem_map.mp m
    simpa [heldAs, holds] using hk

/-- RingMessagesAreAnswered: every kind of message on the last cascade port with the last TAG, the last stream number, a
stream that is off and a send that runs. -/
theorem test_meets_ring_messages :
    let s := ringed 0 { subs := [{ strm := 1, src := 65535, member := 1, tag := 255, refused := true }],
                        relay := some { tag := 255, cid := 1, side := 0, due := 0 } } []
    let run := ringed 0 { sends := [{ member := 255 % 8, strm := 65535 }] } []
    let long := command 0x11 0 []
    let queue := ringed 0 { forwarded := [(0, forwarded)] } []
    let full : State := { s with cmd := holds 1024 }
    rings s 1 255 (leBytes 2 65535) = true ∧ (s.stream 65535).on = false ∧ s.cas.sends = []
    ∧ rings run 1 255 (leBytes 2 65535) = true ∧ (∃ e ∈ run.cas.sends, e.member = 255 % 8 ∧ e.strm = 65535)
    ∧ rings run 2 255 (leBytes 2 65535) = true ∧ rings s 3 255 (leBytes 2 65535 ++ leBytes 1 255) = true
    ∧ (∃ x ∈ s.cas.subs, x.refused = true ∧ s.ringPorts (s.dirTo x.member) x.member 2 = [0, 2] ∧ s.txOn (112 + 0) = true)
    ∧ 0x1A0144 ∉ linkRegs 115 ++ ringTx ∧ s.standby = false ∧ (0x1A0144 : Nat) % 4 = 0 ∧ mapped 0x1A0144 = true
    ∧ notRelayed 0x1A0144 0xFFFF_FFFF = false ∧ notRelayed Reg.MEM_OP_CTRL 1 = true ∧ Reg.MEM_OP_CTRL < 2 ^ 24
    ∧ notRelayed Reg.SVP_MBOX_REQ 0x8000_0008 = true ∧ rings s 4 255 (leBytes 1 1 ++ leBytes 3 Reg.SVP_MBOX_REQ ++ leBytes 4 0x8000_0008) = true
    ∧ rings s 4 255 (leBytes 1 1 ++ leBytes 3 Reg.MEM_OP_CTRL ++ leBytes 4 1) = true
    ∧ Reg.isX 0x1A0144 = false ∧ 0x1A0144 ≠ Reg.STM_PROG_DATA
    ∧ rings s 4 255 (leBytes 1 1 ++ leBytes 3 0x1A0144 ++ leBytes 4 0xFFFF_FFFF) = true
    ∧ rings s 4 255 (leBytes 1 0 ++ leBytes 3 0x1A0144 ++ leBytes 4 0) = true
    ∧ s.cas.relay = some { tag := 255, cid := 1, side := 0, due := 0 }
    ∧ rings s 5 255 (leBytes 1 255 ++ leBytes 4 0xFFFF_FFFF) = true ∧ s.cas.relay ≠ none
    ∧ CmdRec.ofBytes forwarded.bytes = forwarded ∧ CmdRec.ofBytes long.bytes = long ∧ 0x10 < long.op ∧ forwarded.op = 1
    ∧ s.cas.forwarded = [] ∧ s.heldCommands < 1024 ∧ full.standby = false ∧ full.cas.forwarded = [] ∧ rings full 6 255 forwarded.bytes = true
    ∧ queue.standby = false ∧ queue.cas.forwarded ≠ [] ∧ rings queue 6 255 forwarded.bytes = true
    ∧ forwarding.qState 15 = 2
    ∧ rings s 6 255 forwarded.bytes = true ∧ rings s 6 255 long.bytes = true
    ∧ forwarding.qRun 15 = true ∧ (forwarding.queue 15).ringFull = false ∧ forwarded.flags.testBit 0 = false
    ∧ rings forwarding 7 255 (leBytes 1 0) = true ∧ ringTakes forwarding 15
    ∧ rings forwarding 7 255 (leBytes 1 255) = true := by
  unfold ringTakes portsQuiet; decide +kernel

/-- The same, of the wait itself: no other queue waits for that answer; the relayed register is an ordinary one. -/
theorem test_meets_forward_wait : (forwarding.queue 15).wait = .forward 255 forwarded
    ∧ (∀ k, k < 16 → k ≠ 15 → ∀ x, (forwarding.queue k).wait ≠ .forward 255 x) ∧ basicReg 0x1A0144 plainDesc := by
  have h : ∀ k, k < 16 → k ≠ 15 → (forwarding.queue k).wait = .none := by decide +kernel
  refine ⟨by decide +kernel, fun k hk hn x => by rw [h k hk hn]; exact nofun, ?_⟩
  exact ⟨by decide +kernel, by decide +kernel, by decide +kernel, by decide +kernel, by decide +kernel, fun _ _ _ _ _ => rfl⟩

/-- A SURFACE_SEG payload from member 1, SIDE B, for a member: kind, then the header's rest and the body. -/
def segment (kind dst : Nat) (b : List Byte) : List Byte := bytes [kind, 9, dst, 0, 2, 0, 1, 0, 0, 0, 0, 0, 2, 0, 0, 0] ++ b

/-- Its FE. -/
def frameEnd : List Byte := segment 2 0 (leBytes 4 0 ++ leBytes 4 threePlanes.img.frameCrc.toNat)

theorem word_back (c : Word) : w32 (leAt (leBytes 4 0 ++ leBytes 4 c.toNat) 4 4) = c := by
  have e : leAt (leBytes 4 0 ++ leBytes 4 c.toNat) 4 4
      = c.toNat % 256 + 256 * (c.toNat / 256 % 256 + 256 * (c.toNat / 256 / 256 % 256 + 256 * (c.toNat / 256 / 256 / 256 % 256))) := by
    simp [leAt, slice, leBytes, leNat]
  have h := c.isLt
  have f : leAt (leBytes 4 0 ++ leBytes 4 c.toNat) 4 4 = c.toNat := by rw [e]; omega
  rw [f, w32, BitVec.ofNat_toNat, BitVec.setWidth_eq]

theorem copied_whole : copied.whole (Segment.ofBytes frameEnd) = true := by
  have b : (Segment.ofBytes frameEnd).body = leBytes 4 0 ++ leBytes 4 threePlanes.img.frameCrc.toNat := rfl
  have f : (Segment.ofBytes frameEnd).frame = 1 := rfl
  have n : leAt (leBytes 4 0 ++ leBytes 4 threePlanes.img.frameCrc.toNat) 0 4 = 0 := rfl
  have i : copied.inc = threePlanes := rfl
  unfold CasCopy.whole
  simp only [b, f, n, i, word_back, decide_true, Bool.and_true]
  decide +kernel

/-- A SURFACE_SEG packet can arrive on the last cascade port, for one subscription. -/
def segs (s : State) (pl : List Byte) (x : CasSub) : Bool :=
  s.has RT.CASCADE 0 && decide (16 ≤ pl.length) && delivers s 115 0x31 0 pl && leAt pl 2 1 == s.cascadeId
    && decide (s.cas.subs.filter (fun y => y.member == leAt pl 1 1 % 8 && y.src == leAt pl 4 2) = [x])

theorem segs_arrives (s : State) (pl : List Byte) (x : CasSub) (h : segs s pl x = true) :
    segArrives s 3 pl (packetBytes 0x31 0 0 0 pl) x := by
  simp only [segs, Bool.and_eq_true, decide_eq_true_eq, beq_iff_eq] at h
  exact ⟨by decide, h.1.1.1.1, h.1.1.1.2, delivers_arrives s 115 0x31 0 pl h.1.1.2, h.1.2, h.2⟩

/-- A stream of another member, and its subscription. -/
def farSub : CasSub := { strm := 159, src := 2, member := 1 }
def farStream : StreamSt := { on := true, kind := 4, mode := 1, format := 6, width := 2, height := 1 }

/-- Member 0, to which a copy for that stream is arriving. -/
def receiving (c : CasCopy) : State :=
  (ringed 0 { subs := [farSub], copies := [(319, some c)] } []).setStream 159 farStream

/-- RelayGoesOutAndSurfacesArrive: a relay outstanding, a result unread, a device that is no master, a member that is lost
and one that lives, a write of a MEM register; every kind of segment, an FE that is whole, with ON_AIR and without, and one
that is not, a segment for another member on a same-side and on a cross port. -/
theorem test_meets_relay_and_surfaces :
    let s := ringed 0 { subs := [farSub] } []
    let r := fun (a : Word) => ringed 0 {} [(Reg.CAS_RELAY_ADDR, a)]
    let mem := r (0x1400_0000 + BitVec.ofNat 32 Reg.MEM_OP_CTRL)
    let c := receiving copied
    let w := receiving { copied with onAir := false }
    let east := locked (ringed 0 {} []) 113
    (ringed 0 { relay := some { tag := 255, cid := 1, side := 0, due := 0 } } []).access .pcie = true
    ∧ (ringed 0 {} [(Reg.CAS_RELAY_STATUS, 0x8000_0000)]).bit Reg.CAS_RELAY_STATUS 31 = true
    ∧ (ringed 1 {} []).ringMaster = false ∧ (ringed 1 {} []).cas.relay = none
    ∧ (ringed 1 {} []).bit Reg.CAS_RELAY_STATUS 31 = false ∧ (ringed 1 {} []).access .pcie = true
    ∧ (r 0x7000_0000).access .pcie = true ∧ (r 0x7000_0000).ringMaster = true ∧ (r 0x7000_0000).cas.relay = none
    ∧ (r 0x7000_0000).bit Reg.CAS_RELAY_STATUS 31 = false
    ∧ (r 0x7000_0000).memberAlive ((r 0x7000_0000).fld Reg.CAS_RELAY_ADDR 30 28) = false
    ∧ (r 0x1000_0000).access .pcie = true ∧ (r 0x1000_0000).ringMaster = true ∧ (r 0x1000_0000).cas.relay = none
    ∧ (r 0x1000_0000).bit Reg.CAS_RELAY_STATUS 31 = false ∧ (r 0x1000_0000).bit Reg.CAS_RELAY_ADDR 26 = false
    ∧ (r 0x1000_0000).memberAlive ((r 0x1000_0000).fld Reg.CAS_RELAY_ADDR 30 28) = true
    ∧ mem.access .pcie = true ∧ mem.ringMaster = true ∧ mem.cas.relay = none ∧ mem.bit Reg.CAS_RELAY_STATUS 31 = false
    ∧ mem.memberAlive (mem.fld Reg.CAS_RELAY_ADDR 30 28) = true ∧ mem.bit Reg.CAS_RELAY_ADDR 26 = true
    ∧ notRelayed (mem.fld Reg.CAS_RELAY_ADDR 23 0) (mem.reg Reg.CAS_RELAY_DATA) = true
    ∧ segs s (segment 0 0 (body 32 [])) farSub = true ∧ leAt (segment 0 0 (body 32 [])) 0 1 = 0
    ∧ s.copy farSub.strm (leAt (segment 0 0 (body 32 [])) 1 1 / 8 % 2) = none
    ∧ segs c (segment 1 0 (body 32 [])) farSub = true ∧ leAt (segment 1 0 (body 32 [])) 0 1 = 1
    ∧ c.copy farSub.strm (leAt (segment 1 0 (body 32 [])) 1 1 / 8 % 2) = some copied ∧ copied.done = false
    ∧ segs c (segment 2 0 (body 32 [1])) farSub = true ∧ copied.port < 4
    ∧ copied.whole (Segment.ofBytes (segment 2 0 (body 32 [1]))) = false
    ∧ c.copy farSub.strm (1 - leAt (segment 2 0 (body 32 [1])) 1 1 / 8 % 2) = none
    ∧ segs c frameEnd farSub = true ∧ leAt frameEnd 0 1 = 2 ∧ c.copy farSub.strm (leAt frameEnd 1 1 / 8 % 2) = some copied
    ∧ copied.onAir = true ∧ c.hasTaken farSub.strm copied.inc.alive = false ∧ (c.stream farSub.strm).kind = 4
    ∧ (c.stream farSub.strm).held = false ∧ (c.stream farSub.strm).mode ≠ 0
    ∧ (c.stream farSub.strm).freeBuffer = some 0
    ∧ segs w frameEnd farSub = true ∧ w.copy farSub.strm (leAt frameEnd 1 1 / 8 % 2) = some { copied with onAir := false }
    ∧ w.hasTaken farSub.strm copied.inc.alive = false
    ∧ w.awaitsOnAir farSub.strm (leAt frameEnd 1 1 / 8 % 2) { copied with onAir := false } = true
    ∧ east.inRing = true ∧ delivers east 113 0x31 0 (segment 0 1 (body 32 [])) = true
    ∧ 16 ≤ (segment 0 1 (body 32 [])).length ∧ leAt (segment 0 1 (body 32 [])) 2 1 ≠ east.cascadeId
    ∧ s.casLive (3 - 2) = false ∧ delivers s 115 0x31 0 (segment 0 1 (body 32 [])) = true := by decide +kernel

/-! ### Witnesses: steps, and a few commands -/

/-- StepRunsTheFrontCommand: a queue of two commands. -/
theorem test_meets_step : ({ up [] with pending := [.maypoleToggle, .frameRefEdge] } : State).pending
    = .maypoleToggle :: [.frameRefEdge] := rfl

/-- IdleStepAdvancesDeviceTime. -/
theorem test_meets_idle : (up []).pending = [] ∧ (up []).tim.running = true ∧ (up []).boot.stopped = false
    ∧ (up []).active = false ∧ (∀ i, i < 4 → (up []).casUp i = false ∧ ((up []).aligned (112 + i) && ((up []).cas.direct.getD i none).isSome) = false) ∧ ((up []).uptime + 1) % 40 ≠ 0
    ∧ (up [(Reg.MEM_MIGRATE, 0x8EF0_0000)]).bit Reg.MEM_MIGRATE 31 = true := by decide +kernel

/-- The block has no table words: none spells a command, and nothing is put in front of a queue. -/
theorem test_no_table_word : decodeTableWord 32 0 = none ∧ State.reset.withFetchWord 32 0 = State.reset := ⟨rfl, rfl⟩

/-! ### The spec's worked values -/

/-- The nine ASCII bytes "123456789". -/
def digits : List Byte := bytes [0x31, 0x32, 0x33, 0x34, 0x35, 0x36, 0x37, 0x38, 0x39]

/-- R410: the check column and the empty column of the presets. -/
theorem test_crc_presets : (Crc.value Crc.crc32c digits, Crc.value Crc.crc32c []) = (0xE306_9283, 0)
    ∧ (Crc.value Crc.crc32 digits, Crc.value Crc.crc32 []) = (0xCBF4_3926, 0)
    ∧ (Crc.value Crc.crc16 digits, Crc.value Crc.crc16 []) = (0x29B1, 0xFFFF)
    ∧ (Crc.value Crc.crc64 digits, Crc.value Crc.crc64 []) = (0x6C40_DF5F_0B49_7347, 0) := by decide +kernel

/-- R192: the guard of CRC 0xE306_9283. -/
theorem test_guard_byte : guardByte (leBytes 4 0xE306_9283) = 0xAE := by decide +kernel

/-- R196: two 12-bit RGB pixels in 9 bytes. -/
theorem test_pack_bits : packBits 12 [0xABC, 0x123, 0x456, 0x000, 0xFFF, 0x800]
    = bytes [0xBC, 0x3A, 0x12, 0x56, 0x04, 0x00, 0xFF, 0x0F, 0x80] := by decide +kernel

/-- R122: ADDI G6, G6, -1 and BR NE, 0x00B as words. -/
theorem test_program_words : (StmOp.addi 6 6 0xFFFF).encode = 0x1760_FFFF ∧ StmOp.decode 0x1760_FFFF = .addi 6 6 0xFFFF
    ∧ StmOp.decode 0x4080_000B = .br 2 0x00B := by decide +kernel

/-- R232: 4,230 RTP ticks before arrival at TS32 0x8A3F_1000 are 47 ms. -/
theorem test_rtp_capture :
    ((up []).rtpCapture 0x8A3F_1000
      (BitVec.ofInt 32 ((up []).extend 0x8A3F_1000 * 90000 / 1000000000) - 4230)).1 = 0x8771_E640 := by decide +kernel

/-- R53: a NODE record of 44 bytes rounds up to 48. -/
theorem test_record_size : pad8 (8 + 32 + 4) = 48 := by decide +kernel

end Sys2Proof.Tests
end

section
/-!
Boot copies (O60). First what gives them back: a lemma `f_bootCopy` for each function `f` that the image check, the boot
load or a commit point runs, in the order of the model, each by the lemmas of the functions that `f` runs; one unfolds
its own `f` alone. Then what a copy write does: how it reads its image from memory, which of the copies it sets, and the
answer of the supervisor.

The lemmas about updates of the state stand as `(rfl)`, in brackets, so that `simp` cites them as equations and does not
take them as true by definition: the kernel would then compare whole states.
-/
namespace Sys2Proof.Machine

/-! ### Updates, branches and folds -/

/-- An update of a state that gives it its own boot copies back, whatever else it sets. -/
@[simp] theorem State.bootCopy_update (s : State) (pending regs pairs alarmCond dram out free uptime ticks host svp ld stm
    cmd boot tim streams links txSeq tx nodes layers outputs chk blk pre enc mem net encIrap touch twin cas) :
    State.bootCopy
      { pending, regs, pairs, alarmCond, dram, mram := s.mram, flashA := s.flashA, flashB := s.flashB, out, free,
        uptime, ticks, host, svp, ld, stm, cmd, boot, tim, streams, links, txSeq, tx, nodes, layers, outputs, chk, blk,
        pre, enc, mem, net, encIrap, touch, twin, cas } = s.bootCopy := (rfl)

/-- As `State.bootCopy_update`, where the update sets kept memory other than copy C. -/
@[simp] theorem State.bootCopy_update_mram (s : State) (pending regs pairs alarmCond dram out free uptime ticks host svp ld
    stm cmd boot tim streams links txSeq tx nodes layers outputs chk blk pre enc mem net encIrap touch twin cas)
    (keys genFloor xWrites history patch patchTop ptpCfg trained retired retireClear touchMaps lastTrip) :
    State.bootCopy
      { pending, regs, pairs, alarmCond, dram,
        mram := { keys, genFloor, xWrites, history, copyC := s.mram.copyC, patch, patchTop, ptpCfg, trained, retired,
                  retireClear, touchMaps, lastTrip },
        flashA := s.flashA, flashB := s.flashB, out, free, uptime, ticks, host, svp, ld, stm, cmd, boot, tim, streams,
        links, txSeq, tx, nodes, layers, outputs, chk, blk, pre, enc, mem, net, encIrap, touch, twin, cas }
      = s.bootCopy := (rfl)

@[simp] theorem State.bootCopy_ite (c : Prop) [Decidable c] (a b : State) :
    (if c then a else b).bootCopy = if c then a.bootCopy else b.bootCopy := by
  split <;> rfl

/-- A fold keeps what each of its steps keeps. -/
theorem foldl_keeps {α β γ : Type} (p : β → γ) (f : β → α → β) (h : ∀ b a, p (f b a) = p b) (l : List α) (b : β) :
    p (l.foldl f b) = p b :=
  List.foldlRecOn (motive := fun c => p c = p b) l f rfl fun c hc a _ => (h c a).trans hc

@[simp] theorem State.bootCopy_foldl {α : Type} (f : State → α → State) (h : ∀ t a, (f t a).bootCopy = t.bootCopy)
    (l : List α) (s : State) : (l.foldl f s).bootCopy = s.bootCopy :=
  foldl_keeps State.bootCopy f h l s

/-- As `State.bootCopy_foldl`, over an accumulator that holds the state as its part `g`. -/
theorem State.bootCopy_foldl_part {α β : Type} (g : β → State) (f : β → α → β)
    (h : ∀ b a, (g (f b a)).bootCopy = (g b).bootCopy) (l : List α) (b : β) :
    (g (l.foldl f b)).bootCopy = (g b).bootCopy :=
  foldl_keeps (fun b => (g b).bootCopy) f h l b

/-! ### Registers, vectors and the history -/

@[simp] theorem State.setReg_bootCopy (s : State) (off : Nat) (v : Word) :
    (s.setReg off v).bootCopy = s.bootCopy := (rfl)

@[simp] theorem State.setFld_bootCopy (s : State) (off hi lo v : Nat) :
    (s.setFld off hi lo v).bootCopy = s.bootCopy := (rfl)

@[simp] theorem State.setBit_bootCopy (s : State) (off n : Nat) (b : Bool) :
    (s.setBit off n b).bootCopy = s.bootCopy := (rfl)

@[simp] theorem State.incWrap_bootCopy (s : State) (off hi lo : Nat) :
    (s.incWrap off hi lo).bootCopy = s.bootCopy := (rfl)

@[simp] theorem State.addSat_bootCopy (s : State) (off hi lo n : Nat) :
    (s.addSat off hi lo n).bootCopy = s.bootCopy := (rfl)

@[simp] theorem State.setPair_bootCopy (s : State) (lo : Nat) (v : DWord) :
    (s.setPair lo v).bootCopy = s.bootCopy := (rfl)

@[simp] theorem State.emit_bootCopy (s : State) (e : Emit) : (s.emit e).bootCopy = s.bootCopy := (rfl)
@[simp] theorem State.nextFree_bootCopy (s : State) : s.nextFree.bootCopy = s.bootCopy := (rfl)
@[simp] theorem State.takeFree_bootCopy (s : State) (n : Nat) : (s.takeFree n).bootCopy = s.bootCopy := (rfl)

@[simp] theorem State.setDramByte_bootCopy (s : State) (a : Nat) (b : Byte) :
    (s.setDramByte a b).bootCopy = s.bootCopy := (rfl)

@[simp] theorem State.dramWrite_bootCopy (s : State) (a : Nat) (l : List Byte) :
    (s.dramWrite a l).bootCopy = s.bootCopy := (rfl)

@[simp] theorem State.sendVector_bootCopy (s : State) (v : Nat) : (s.sendVector v).bootCopy = s.bootCopy := by
  simp [State.sendVector]

@[simp] theorem State.dropVector_bootCopy (s : State) (v : Nat) : (s.dropVector v).bootCopy = s.bootCopy := (rfl)

@[simp] theorem State.dropIrqs_bootCopy (s : State) : s.dropIrqs.bootCopy = s.bootCopy := by
  simp [State.dropIrqs]

@[simp] theorem State.irqEdge_bootCopy (before s : State) : (before.irqEdge s).bootCopy = s.bootCopy := by
  simp [State.irqEdge]

@[simp] theorem State.event_bootCopy (s : State) (k n : Nat) : (s.event k n).bootCopy = s.bootCopy := by
  simp [State.event]

@[simp] theorem State.setConds_bootCopy (s : State) (k : Nat) (c : BitVec 8) :
    (s.setConds k c).bootCopy = s.bootCopy := (rfl)

@[simp] theorem State.alarm_bootCopy (s : State) (k n : Nat) (on : Bool) : (s.alarm k n on).bootCopy = s.bootCopy := by
  simp [State.alarm]

@[simp] theorem State.alarmNoCount_bootCopy (s : State) (k n : Nat) (on : Bool) :
    (s.alarmNoCount k n on).bootCopy = s.bootCopy := by
  simp [State.alarmNoCount]

@[simp] theorem State.ackWindow_bootCopy (s : State) (status : Nat) (v : Word) :
    (s.ackWindow status v).bootCopy = s.bootCopy := by
  simp [State.ackWindow]

@[simp] theorem State.refuseX_bootCopy (s : State) (source : Nat) (write : Bool) (off : Nat) :
    (s.refuseX source write off).bootCopy = s.bootCopy := by
  rw [State.refuseX, State.event_bootCopy, State.setReg_bootCopy]

@[simp] theorem State.countX_bootCopy (s : State) : s.countX.bootCopy = s.bootCopy := by
  simp [State.countX]

@[simp] theorem State.history_bootCopy (s : State) (kind code : Nat) (detail : List Word) :
    (s.history kind code detail).bootCopy = s.bootCopy := (rfl)

@[simp] theorem State.stagePair_bootCopy (s : State) (lo : Nat) (v : Word) :
    (s.stagePair lo v).bootCopy = s.bootCopy := (rfl)

@[simp] theorem State.mirror_bootCopy (s : State) (i : Item) : (s.mirror i).bootCopy = s.bootCopy := by
  simp [State.mirror]

/-! ### Flags -/

@[simp] theorem State.raise_bootCopy (s : State) (f : Flag) : (s.raise f).bootCopy = s.bootCopy := by
  simp [State.raise]

@[simp] theorem State.hold_bootCopy (s : State) (f : Flag) (on : Bool) : (s.hold f on).bootCopy = s.bootCopy := by
  simp [State.hold]

/-! ### Requests of the memory controller -/

@[simp] theorem State.setRankState_bootCopy (s : State) (i v : Nat) :
    (s.setRankState i v).bootCopy = s.bootCopy := (rfl)

@[simp] theorem State.setDebt_bootCopy (s : State) (i v : Nat) : (s.setDebt i v).bootCopy = s.bootCopy := (rfl)

@[simp] theorem State.wakeRank_bootCopy (s : State) (i : Nat) : (s.wakeRank i).bootCopy = s.bootCopy := by
  simp [State.wakeRank]

@[simp] theorem State.freshen_bootCopy (s : State) (a b : Nat) : (s.freshen a b).bootCopy = s.bootCopy := by
  simp [State.freshen]

@[simp] theorem State.settleBytes_bootCopy (s : State) (a b : Nat) : (s.settleBytes a b).bootCopy = s.bootCopy := by
  simp [State.settleBytes]

@[simp] theorem State.storeNow_bootCopy (s : State) (a : Nat) (l : List Byte) :
    (s.storeNow a l).bootCopy = s.bootCopy := by
  simp [State.storeNow]

@[simp] theorem State.settleList_bootCopy (a b : Nat) (s : State) (l : List MemReq) :
    (s.settleList a b l).1.bootCopy = s.bootCopy := by
  induction l generalizing s with
  | nil => rfl
  | cons r l ih =>
    rw [State.settleList, ih]
    split
    · rfl
    · split
      · exact s.storeNow_bootCopy r.addr r.data
      · rfl

@[simp] theorem State.settleChannel_bootCopy (a b : Nat) (s : State) (c : Nat) :
    (State.settleChannel a b s c).bootCopy = s.bootCopy := by
  exact (State.settleList_bootCopy a b _ _).trans (s.settleList_bootCopy a b _)

@[simp] theorem State.settleReqs_bootCopy (s : State) (a b : Nat) : (s.settleReqs a b).bootCopy = s.bootCopy := by
  simp [State.settleReqs]

@[simp] theorem State.wakeRange_bootCopy (s : State) (a b : Nat) : (s.wakeRange a b).bootCopy = s.bootCopy := by
  unfold State.wakeRange
  split
  · rfl
  · refine State.bootCopy_foldl _ (fun t k => ?_) _ s
    split <;> simp

@[simp] theorem State.dramStore_bootCopy (s : State) (a : Nat) (l : List Byte) :
    (s.dramStore a l).bootCopy = s.bootCopy := by
  simp [State.dramStore]

@[simp] theorem State.memAlarms_bootCopy (s : State) : s.memAlarms.bootCopy = s.bootCopy := by
  simp [State.memAlarms]

@[simp] theorem State.memError_bootCopy (s : State) (kind rank dev port addr : Nat) :
    (s.memError kind rank dev port addr).bootCopy = s.bootCopy := by
  rw [State.memError, State.bootCopy_ite, State.setReg_bootCopy, State.setReg_bootCopy, State.setReg_bootCopy, ite_self]

@[simp] theorem State.countUncorr_bootCopy (s : State) (kind i port addr : Nat) :
    (s.countUncorr kind i port addr).bootCopy = s.bootCopy := by
  simp [State.countUncorr]

@[simp] theorem State.readFaults_bootCopy (s : State) (port a b : Nat) :
    (s.readFaults port a b).bootCopy = s.bootCopy := by
  refine State.bootCopy_foldl _ (fun t k => ?_) _ s
  dsimp only
  split <;> simp

@[simp] theorem State.portRead_bootCopy (s : State) (port a n : Nat) :
    (s.portRead port a n).1.bootCopy = s.bootCopy := by
  dsimp only [State.portRead]
  split <;> simp

/-! ### Windows -/

@[simp] theorem State.putWindow_bootCopy (s : State) (off : Nat) (b : List Byte) :
    (s.putWindow off b).bootCopy = s.bootCopy := by
  exact State.bootCopy_foldl _ (fun t _ => t.setReg_bootCopy _ _) _ s

/-! ### Block jobs -/

@[simp] theorem State.setJobs_bootCopy (s : State) (l : List Nat) : (s.setJobs l).bootCopy = s.bootCopy := (rfl)

@[simp] theorem State.blkSubmitWrite_bootCopy (s : State) (hi : Word) :
    (s.blkSubmitWrite hi).bootCopy = s.bootCopy := by
  simp [State.blkSubmitWrite]

@[simp] theorem State.blkPost_bootCopy (s : State) (e : JobEnd) : (s.blkPost e).bootCopy = s.bootCopy := by
  have hdata (t : State) (l : List Nat) : (l.foldl (fun t k => t.setReg (Reg.BLK_RESULT_DATA k) (e.data.getD k 0)) t).bootCopy
      = t.bootCopy := State.bootCopy_foldl _ (fun t _ => t.setReg_bootCopy _ _) l t
  simp only [State.blkPost, State.sendVector_bootCopy, State.bootCopy_ite, State.raise_bootCopy, hdata,
    State.setReg_bootCopy, ite_self]

@[simp] theorem State.finishJob_bootCopy (s : State) (e : JobEnd) : (s.finishJob e).bootCopy = s.bootCopy := by
  unfold State.finishJob; split <;> simp

@[simp] theorem State.blkAbort_bootCopy (s : State) : s.blkAbort.bootCopy = s.bootCopy := by
  unfold State.blkAbort; split <;> simp

/-! ### Shadowed registers -/

@[simp] theorem State.holdChange_bootCopy (s : State) (origin : Origin) (clock : Nat) (defer : Option Nat)
    (object : Nat × Nat) (c : Change) :
    (s.holdChange origin clock defer object c).bootCopy = s.bootCopy := (rfl)

@[simp] theorem State.stage_bootCopy (s : State) (off : Nat) (mask v : Word) :
    (s.stage off mask v).bootCopy = s.bootCopy := by
  simp [State.stage]

/-! ### Check channels -/

@[simp] theorem State.setChan_bootCopy (s : State) (c : Nat) (x : Channel) :
    (s.setChan c x).bootCopy = s.bootCopy := (rfl)

@[simp] theorem State.chanStart_bootCopy (s : State) (c st : Nat) : (s.chanStart c st).bootCopy = s.bootCopy := (rfl)

@[simp] theorem State.onMirrorChan_bootCopy (s : State) (f : State → State) (hf : ∀ t, (f t).bootCopy = t.bootCopy) :
    (s.onMirrorChan f).bootCopy = s.bootCopy := by
  rw [State.onMirrorChan, State.setReg_bootCopy, hf, State.setFld_bootCopy]

@[simp] theorem State.chkResult_bootCopy (s : State) (c r : Nat) : (s.chkResult c r).bootCopy = s.bootCopy := by
  simp [State.chkResult]

@[simp] theorem State.chkStart_bootCopy (s : State) (c : Nat) : (s.chkStart c).bootCopy = s.bootCopy := by
  simp [State.chkStart]

@[simp] theorem State.chkFinish_bootCopy (s : State) (c : Nat) : (s.chkFinish c).bootCopy = s.bootCopy := by
  simp [State.chkFinish]

@[simp] theorem State.chkData_bootCopy (s : State) (v : Word) : (s.chkData v).bootCopy = s.bootCopy := by
  simp [State.chkData]

@[simp] theorem State.chkContext_bootCopy (s : State) (v : DWord) : (s.chkContext v).bootCopy = s.bootCopy := by
  simp [State.chkContext]

@[simp] theorem State.chkStreamStart_bootCopy (s : State) (i : Nat) : (s.chkStreamStart i).bootCopy = s.bootCopy := by
  simp [State.chkStreamStart]

@[simp] theorem State.chkStreamDrop_bootCopy (s : State) (i : Nat) : (s.chkStreamDrop i).bootCopy = s.bootCopy := by
  simp [State.chkStreamDrop]

@[simp] theorem State.chkStreamFlip_bootCopy (s : State) (i : Nat) (bytes : List Byte) :
    (s.chkStreamFlip i bytes).bootCopy = s.bootCopy := by
  simp [State.chkStreamFlip]

@[simp] theorem State.chkRebind_bootCopy (s : State) (c : Nat) : (s.chkRebind c).bootCopy = s.bootCopy := (rfl)

@[simp] theorem State.chkLoad_bootCopy (s : State) (c : Nat) (b : Option (List Byte)) :
    (s.chkLoad c b).bootCopy = s.bootCopy := by
  cases b with
  | none => simp [State.chkLoad]
  | some b => rw [State.chkLoad, State.setChan_bootCopy, State.setReg_bootCopy]

/-! ### Packets -/

@[simp] theorem State.setTx_bootCopy (s : State) (port : Nat) (x : Tx) : (s.setTx port x).bootCopy = s.bootCopy := (rfl)

@[simp] theorem State.sendPacket_bootCopy (s : State) (port type chan flags : Nat) (payload : List Byte) :
    (s.sendPacket port type chan flags payload).bootCopy = s.bootCopy := by
  unfold State.sendPacket
  split
  · rfl
  · split <;> simp

/-! ### Streams -/

@[simp] theorem State.setStream_bootCopy (s : State) (i : Nat) (x : StreamSt) :
    (s.setStream i x).bootCopy = s.bootCopy := (rfl)

@[simp] theorem State.freezeAlarm_bootCopy (s : State) : s.freezeAlarm.bootCopy = s.bootCopy := by
  simp [State.freezeAlarm]

@[simp] theorem State.evalStream_bootCopy (s : State) (i : Nat) (x : StreamSt) :
    (s.evalStream i x).bootCopy = s.bootCopy := by
  simp [State.evalStream]

@[simp] theorem State.takeFrame_bootCopy (s : State) (rd : Reader) (i : Nat) :
    (s.takeFrame rd i).bootCopy = s.bootCopy := by
  dsimp only [State.takeFrame]
  split
  · exact s.setStream_bootCopy i _
  · rfl

@[simp] theorem State.releaseReader_bootCopy (s : State) (rd : Reader) :
    (s.releaseReader rd).bootCopy = s.bootCopy := by
  exact State.bootCopy_foldl _ (fun t _ => t.setStream_bootCopy _ _) _ s

@[simp] theorem State.openFrame_bootCopy (s : State) (i : Nat) (f : Incoming) :
    (s.openFrame i f).bootCopy = s.bootCopy := by
  dsimp only [State.openFrame]
  split
  · rw [State.setStream_bootCopy, State.nextFree_bootCopy]
  · split <;> rw [State.setStream_bootCopy, State.nextFree_bootCopy]

@[simp] theorem State.startFrame_bootCopy (s : State) (i : Nat) (f : Incoming) :
    (s.startFrame i f).bootCopy = s.bootCopy := by
  simp [State.startFrame]

@[simp] theorem State.discardFrame_bootCopy (s : State) (i : Nat) : (s.discardFrame i).bootCopy = s.bootCopy := by
  simp [State.discardFrame]

@[simp] theorem State.rereadBuffer_bootCopy (s : State) (i k : Nat) : (s.rereadBuffer i k).bootCopy = s.bootCopy := by
  dsimp only [State.rereadBuffer]
  split
  · rfl
  · exact s.setStream_bootCopy i _

@[simp] theorem State.poisonRead_bootCopy (s : State) (i level : Nat) :
    (s.poisonRead i level).bootCopy = s.bootCopy := by
  simp [State.poisonRead]

@[simp] theorem State.tileFaults_bootCopy (s : State) (port i buf level t : Nat) :
    (s.tileFaults port i buf level t).bootCopy = s.bootCopy := by
  dsimp only [State.tileFaults]
  split
  · rfl
  · split <;> simp

@[simp] theorem State.poisonReads_bootCopy (s : State) (port i level : Nat) (l : List Nat) :
    (s.poisonReads port i level l).bootCopy = s.bootCopy := by
  simp [State.poisonReads]

@[simp] theorem State.storeGroup_bootCopy (s : State) (x : StreamSt) (buf bias level : Nat) (img : Img) (g : Nat) :
    (s.storeGroup x buf bias level img g).bootCopy = s.bootCopy := by
  simp [State.storeGroup]

@[simp] theorem State.storeGroups_bootCopy (s : State) (i : Nat) (gs : List (Nat × Nat)) (img : Img) :
    (s.storeGroups i gs img).bootCopy = s.bootCopy := by
  dsimp only [State.storeGroups]
  split
  · split
    · rfl
    · refine State.bootCopy_foldl _ (fun t e => ?_) _ s
      split <;> simp
  · rfl

@[simp] theorem State.storeRest_bootCopy (s : State) (i : Nat) (img : Img) :
    (s.storeRest i img).bootCopy = s.bootCopy := by
  unfold State.storeRest; split <;> simp

@[simp] theorem State.sendFrameOn_bootCopy (s : State) (q : Nat) (l : List (List Byte)) :
    (s.sendFrameOn q l).bootCopy = s.bootCopy := by
  simp [State.sendFrameOn]

@[simp] theorem State.casSend_bootCopy (s : State) (i : Nat) (x : StreamSt) (st : Option Stated) :
    (s.casSend i x st).bootCopy = s.bootCopy := by
  unfold State.casSend; split <;> simp

@[simp] theorem State.offerFrame_bootCopy (s : State) (i : Nat) (o : Offer) :
    (s.offerFrame i o).bootCopy = s.bootCopy := by
  simp [State.offerFrame]

@[simp] theorem State.setFreeze_bootCopy (s : State) (i : Nat) (on : Bool) (n : Nat) :
    (s.setFreeze i on n).bootCopy = s.bootCopy := by
  simp [State.setFreeze]

@[simp] theorem State.clearAllStats_bootCopy (s : State) : s.clearAllStats.bootCopy = s.bootCopy := by
  exact State.bootCopy_foldl _ (fun t i => t.setStream_bootCopy i _) _ s

/-! ### Layers, nodes and outputs -/

@[simp] theorem State.setLayer_bootCopy (s : State) (i : Nat) (x : LayerSt) :
    (s.setLayer i x).bootCopy = s.bootCopy := (rfl)

@[simp] theorem State.setNode_bootCopy (s : State) (n : Nat) (x : NodeSt) :
    (s.setNode n x).bootCopy = s.bootCopy := (rfl)

@[simp] theorem State.setOutput_bootCopy (s : State) (n : Nat) (x : OutputSt) :
    (s.setOutput n x).bootCopy = s.bootCopy := (rfl)

@[simp] theorem State.checkSet_bootCopy (s : State) (k : Nat) : (s.checkSet k).bootCopy = s.bootCopy := by
  simp [State.checkSet]

@[simp] theorem State.settleLayer_bootCopy (s : State) (recs : List Rec) (i : Nat) :
    (s.settleLayer recs i).bootCopy = s.bootCopy := by
  unfold State.settleLayer; split <;> simp

@[simp] theorem State.shareLayer_bootCopy (s : State) (recs : List Rec) (told : Nat → LayerSt) (left i : Nat) :
    (s.shareLayer recs told left i).2.bootCopy = s.bootCopy := by
  unfold State.shareLayer
  extract_lets d x empty
  split
  · rfl
  · split <;> simp +zetaDelta

@[simp] theorem State.shareScaler_bootCopy (s : State) (recs : List Rec) (told : Nat → LayerSt) (clk sc : Nat) :
    (s.shareScaler recs told clk sc).bootCopy = s.bootCopy := by
  dsimp only [State.shareScaler]
  rw [State.setReg_bootCopy]
  exact State.bootCopy_foldl_part Prod.snd _ (fun b i => b.2.shareLayer_bootCopy recs told b.1 i) _ (32768, s)

@[simp] theorem State.settle_bootCopy (again : Bool) (s : State) (clk : Nat) :
    (State.settle again s clk).bootCopy = s.bootCopy := by
  simp [State.settle]

@[simp] theorem State.stateChange_bootCopy (s : State) (i : Nat) (old new : Fresh × Nat) :
    (s.stateChange i old new).bootCopy = s.bootCopy := by
  rw [State.stateChange, State.bootCopy_ite, State.raise_bootCopy, State.setReg_bootCopy, State.setReg_bootCopy, ite_self]

@[simp] theorem State.latchLayer_bootCopy (s : State) (recs : List Rec) (out : Option Nat) (raster : Nat × Nat)
    (stages : List Stage) (w h i : Nat) (child : Option Composite) (a : LatchAcc) :
    (s.latchLayer recs out raster stages w h i child a).s.bootCopy = s.bootCopy := by
  unfold State.latchLayer
  extract_lets d pol r drawn cause rect x strm s1 view noFrame win st new phase shown draw strictBad y lan y2 s2 s3
  have h1 : s1.bootCopy = s.bootCopy := by
    simp only [s1]
    clear_value strm
    split <;> simp
  calc s3.bootCopy = s1.bootCopy := by simp [s3, s2]
    _ = s.bootCopy := h1

@[simp] theorem latchNode_bootCopy (recs : List Rec) (out : Option Nat) (raster : Nat × Nat) (fuel : Nat) (s : State)
    (stages : List Stage) (n : Nat) : (latchNode recs out raster fuel s stages n).s.bootCopy = s.bootCopy := by
  induction fuel generalizing s stages n with
  | zero => rfl
  | succ fuel ih =>
    unfold latchNode
    split
    · rfl
    · refine State.bootCopy_foldl_part LatchAcc.s _ (fun a i => ?_) _ _
      dsimp only
      cases resolveFor recs n (a.s.layerDesc i).source with
      | inline => exact (State.latchLayer_bootCopy ..).trans (ih ..)
      | _ => exact State.latchLayer_bootCopy ..

@[simp] theorem State.guardAlarm_bootCopy (s : State) : s.guardAlarm.bootCopy = s.bootCopy := by
  simp [State.guardAlarm]

@[simp] theorem State.countLanterns_bootCopy (s : State) : s.countLanterns.bootCopy = s.bootCopy := by
  exact State.bootCopy_foldl _ (fun t k => t.setReg_bootCopy _ _) _ _

@[simp] theorem State.releaseFrame_bootCopy (s : State) (f : Frame) : (s.releaseFrame f).bootCopy = s.bootCopy := by
  simp [State.releaseFrame]

@[simp] theorem State.memoryStart_bootCopy (s : State) (n : Nat) : (s.memoryStart n).bootCopy = s.bootCopy := by
  dsimp only [State.memoryStart]
  split
  · rfl
  · split
    · simp
    · split
      · split <;> simp
      · simp

@[simp] theorem State.memoryAgain_bootCopy (s : State) (n : Nat) : (s.memoryAgain n).bootCopy = s.bootCopy := by
  dsimp only [State.memoryAgain]
  split
  · split <;> simp
  · rfl

@[simp] theorem State.memoryNodes_bootCopy (s : State) (clk : Nat) (also : List Nat) :
    (s.memoryNodes clk also).bootCopy = s.bootCopy := by
  simp [State.memoryNodes]

/-! ### Step machines -/

@[simp] theorem State.setMachine_bootCopy (s : State) (m : Nat) (x : StepMachine) :
    (s.setMachine m x).bootCopy = s.bootCopy := (rfl)

@[simp] theorem State.setStmState_bootCopy (s : State) (m v : Nat) : (s.setStmState m v).bootCopy = s.bootCopy := (rfl)

@[simp] theorem State.stmGo_bootCopy (s : State) (m : Nat) : (s.stmGo m).bootCopy = s.bootCopy := by
  simp [State.stmGo]

@[simp] theorem State.stmEvent_bootCopy (s : State) (m e : Nat) : (s.stmEvent m e).bootCopy = s.bootCopy := (rfl)
@[simp] theorem State.releaseGpio_bootCopy (s : State) : s.releaseGpio.bootCopy = s.bootCopy := (rfl)

@[simp] theorem State.stmRestart_bootCopy (s : State) (m : Nat) : (s.stmRestart m).bootCopy = s.bootCopy := by
  simp [State.stmRestart]

@[simp] theorem State.stmSetRun_bootCopy (s : State) (m : Nat) (run : Bool) :
    (s.stmSetRun m run).bootCopy = s.bootCopy := by
  simp [State.stmSetRun]

@[simp] theorem State.stmSetWords_bootCopy (s : State) (m n : Nat) : (s.stmSetWords m n).bootCopy = s.bootCopy := by
  simp [State.stmSetWords]

@[simp] theorem State.stmSetGrant_bootCopy (s : State) (m g : Nat) : (s.stmSetGrant m g).bootCopy = s.bootCopy := by
  simp [State.stmSetGrant]

@[simp] theorem State.stmCtrlWrite_bootCopy (s : State) (m : Nat) (x : Bool) (v : Word) :
    (s.stmCtrlWrite m x v).bootCopy = s.bootCopy := by
  simp [State.stmCtrlWrite]

@[simp] theorem State.progAdvance_bootCopy (s : State) : s.progAdvance.bootCopy = s.bootCopy := (rfl)

@[simp] theorem State.progWrite_bootCopy (s : State) (v : Word) : (s.progWrite v).bootCopy = s.bootCopy := by
  simp [State.progWrite]

/-! ### Touch heads -/

@[simp] theorem State.setHead_bootCopy (s : State) (h : Nat) (x : TouchHead) :
    (s.setHead h x).bootCopy = s.bootCopy := (rfl)

@[simp] theorem State.touchPut_bootCopy (s : State) (h : Nat) (r : TouchRec) :
    (s.touchPut h r).bootCopy = s.bootCopy := by
  simp [State.touchPut]

@[simp] theorem State.touchReport_bootCopy (s : State) (h : Nat) (r : TouchRec) :
    (s.touchReport h r).bootCopy = s.bootCopy := by
  simp [State.touchReport]

@[simp] theorem State.reportHead_bootCopy (s : State) (h : Nat) (tooMany : Bool) :
    (s.reportHead h tooMany).bootCopy = s.bootCopy := by
  simp [State.reportHead]

/-! ### Outputs -/

@[simp] theorem State.regionsAtCommit_bootCopy (s : State) (n : Nat) (t : Timing) :
    (s.regionsAtCommit n t).bootCopy = s.bootCopy := (rfl)

@[simp] theorem State.rasterEvent_bootCopy (s : State) (n e : Nat) : (s.rasterEvent n e).bootCopy = s.bootCopy := by
  unfold State.rasterEvent
  split
  · exact State.bootCopy_foldl _ (fun u p => u.stmEvent_bootCopy _ e) _ s
  · rfl

@[simp] theorem State.beginFrame_bootCopy (s : State) (n : Nat) : (s.beginFrame n).bootCopy = s.bootCopy := by
  simp [State.beginFrame]

@[simp] theorem State.outputCommit_bootCopy (s : State) (n : Nat) : (s.outputCommit n).bootCopy = s.bootCopy := by
  unfold State.outputCommit; split <;> simp

@[simp] theorem State.outputsCommit_bootCopy (s : State) (clk : Nat) : (s.outputsCommit clk).bootCopy = s.bootCopy := by
  simp [State.outputsCommit]

@[simp] theorem State.glassAlarms_bootCopy (s : State) : s.glassAlarms.bootCopy = s.bootCopy := by
  simp [State.glassAlarms]

@[simp] theorem State.scanFault_bootCopy (s : State) (entered : Bool) :
    (s.scanFault entered).bootCopy = s.bootCopy := by
  simp [State.scanFault]

@[simp] theorem State.dualAlarm_bootCopy (s : State) : s.dualAlarm.bootCopy = s.bootCopy := by
  simp [State.dualAlarm]

/-! ### Link counters -/

@[simp] theorem State.cntClear_bootCopy (s : State) (k v : Nat) : (s.cntClear k v).bootCopy = s.bootCopy := by
  unfold State.cntClear
  extract_lets one
  have hone (t : State) (i : Nat) : (one t i).bootCopy = t.bootCopy := by
    unfold one
    split <;> simp
  split
  · exact State.bootCopy_foldl one hone _ s
  · exact hone s v

/-! ### Network and decoder -/

@[simp] theorem State.ethCount_bootCopy (s : State) (n k : Nat) : (s.ethCount n k).bootCopy = s.bootCopy := (rfl)

@[simp] theorem State.sendEth_bootCopy (s : State) (n kind : Nat) (fields : List Nat) :
    (s.sendEth n kind fields).bootCopy = s.bootCopy := by
  simp [State.sendEth]

@[simp] theorem State.ethLoad_bootCopy (s : State) (n : Nat) : (s.ethLoad n).bootCopy = s.bootCopy := by
  unfold State.ethLoad
  split
  · extract_lets f ctrl
    rw [State.setReg_bootCopy, State.setReg_bootCopy, State.setReg_bootCopy, State.setReg_bootCopy]
  · rfl

@[simp] theorem State.setCtx_bootCopy (s : State) (c : Nat) (x : DecCtx) : (s.setCtx c x).bootCopy = s.bootCopy := (rfl)

@[simp] theorem State.setCore_bootCopy (s : State) (k : Nat) (x : DecCore) :
    (s.setCore k x).bootCopy = s.bootCopy := (rfl)

@[simp] theorem State.sendReport_bootCopy (s : State) (r : Report) : (s.sendReport r).bootCopy = s.bootCopy := by
  simp [State.sendReport]

@[simp] theorem State.ctxMembership_bootCopy (s : State) (b : List Byte) (join : Bool) :
    (s.ctxMembership b join).bootCopy = s.bootCopy := by
  simp [State.ctxMembership]

@[simp] theorem State.ctxLeave_bootCopy (s : State) (c : Nat) (b : List Byte) :
    (s.ctxLeave c b).bootCopy = s.bootCopy := by
  simp [State.ctxLeave]

@[simp] theorem State.ctxStart_bootCopy (s : State) (c : Nat) : (s.ctxStart c).bootCopy = s.bootCopy := by
  unfold State.ctxStart; split <;> simp

@[simp] theorem State.ctxStopBy_bootCopy (s : State) (c : Nat) (b : List Byte) :
    (s.ctxStopBy c b).bootCopy = s.bootCopy := by
  simp [State.ctxStopBy]

@[simp] theorem State.ctxStop_bootCopy (s : State) (c : Nat) : (s.ctxStop c).bootCopy = s.bootCopy := by
  simp [State.ctxStop]

@[simp] theorem State.ctxDiscard_bootCopy (s : State) (c : Nat) : (s.ctxDiscard c).bootCopy = s.bootCopy := (rfl)

@[simp] theorem State.ctxAct_bootCopy (s : State) (c : Nat) (act : CtxAct) :
    (s.ctxAct c act).bootCopy = s.bootCopy := by
  unfold State.ctxAct; split <;> simp

@[simp] theorem State.ctxSoon_bootCopy (s : State) (c : Nat) (act : CtxAct) :
    (s.ctxSoon c act).bootCopy = s.bootCopy := by
  simp [State.ctxSoon]

@[simp] theorem State.decCtrl_bootCopy (s : State) (c act : Nat) : (s.decCtrl c act).bootCopy = s.bootCopy := by
  simp [State.decCtrl]

@[simp] theorem State.ctxGone_bootCopy (s : State) (c : Nat) : (s.ctxGone c).bootCopy = s.bootCopy := by
  rw [State.ctxGone, State.setCtx_bootCopy, State.bootCopy_foldl, State.ctxStop_bootCopy]
  intro t k
  split <;> simp

/-! ### Event records -/

@[simp] theorem State.setQueue_bootCopy (s : State) (q : Nat) (x : QueueSt) :
    (s.setQueue q x).bootCopy = s.bootCopy := (rfl)

@[simp] theorem State.setQState_bootCopy (s : State) (q v : Nat) : (s.setQState q v).bootCopy = s.bootCopy := (rfl)

@[simp] theorem State.evWrite_bootCopy (s : State) (q : Nat) (r : EvRec) : (s.evWrite q r).bootCopy = s.bootCopy := by
  simp [State.evWrite]

/-! ### Commands that end -/

@[simp] theorem State.signalFence_bootCopy (s : State) (f : Nat) (v : DWord) :
    (s.signalFence f v).bootCopy = s.bootCopy := by
  simp [State.signalFence]

@[simp] theorem State.cmdEvent_bootCopy (s : State) (q index kind code : Nat) (always : Bool) (r : CmdRec) :
    (s.cmdEvent q index kind code always r).bootCopy = s.bootCopy := by
  simp [State.cmdEvent]

@[simp] theorem State.tookEffect_bootCopy (s : State) (fuel : Nat) (seqs : List Nat) :
    (s.tookEffect fuel seqs).bootCopy = s.bootCopy := by
  induction fuel generalizing s seqs with
  | zero => rfl
  | succ fuel ih =>
    cases seqs with
    | nil => rfl
    | cons seq rest =>
      rw [State.tookEffect, ih, State.bootCopy_foldl, State.bootCopy_update]
      simp

@[simp] theorem State.effectDone_bootCopy (s : State) (seq : Nat) : (s.effectDone seq).bootCopy = s.bootCopy := by
  exact s.tookEffect_bootCopy _ _

@[simp] theorem State.wakeFull_bootCopy (s : State) : s.wakeFull.bootCopy = s.bootCopy := by
  simp [State.wakeFull]

@[simp] theorem State.endHeld_bootCopy (s : State) (rest : List Held) (h : Held) (kind : Nat) (ts : Word) :
    (s.endHeld rest h kind ts).bootCopy = s.bootCopy := by
  unfold State.endHeld; split <;> simp

@[simp] theorem State.endGone_bootCopy (s : State) (l : List Held) : (s.endGone l).bootCopy = s.bootCopy := by
  induction l generalizing s with
  | nil => rfl
  | cons h rest ih => rw [State.endGone, ih, State.endHeld_bootCopy]

@[simp] theorem State.discardGone_bootCopy (s : State) (gone : List (Nat × Nat)) :
    (s.discardGone gone).bootCopy = s.bootCopy := by
  simp [State.discardGone]

@[simp] theorem State.decEnd_bootCopy (s : State) (c : Nat) (gone : Bool) :
    (s.decEnd c gone).bootCopy = s.bootCopy := by
  simp [State.decEnd]

/-! ### Clocks and time -/

@[simp] theorem State.setAddend_bootCopy (s : State) (v : Nat) : (s.setAddend v).bootCopy = s.bootCopy := (rfl)
@[simp] theorem State.setFclk_bootCopy (s : State) (k : Nat) (c : Fclk) : (s.setFclk k c).bootCopy = s.bootCopy := (rfl)

@[simp] theorem State.setAligned_bootCopy (s : State) (k : Nat) (b : Bool) :
    (s.setAligned k b).bootCopy = s.bootCopy := (rfl)

@[simp] theorem State.nudge_bootCopy (s : State) (k : Nat) : (s.nudge k).bootCopy = s.bootCopy := by
  simp [State.nudge]

@[simp] theorem State.realign_bootCopy (s : State) (k : Nat) : (s.realign k).bootCopy = s.bootCopy := by
  simp [State.realign]

@[simp] theorem State.clockEdge_bootCopy (s : State) (k : Nat) : (s.clockEdge k).bootCopy = s.bootCopy := by
  unfold State.clockEdge
  extract_lets c now x full next s1 s2
  have h2 : s2.bootCopy = s.bootCopy := by
    rw [State.setFclk_bootCopy, State.setReg_bootCopy, State.incWrap_bootCopy, State.setReg_bootCopy]
  rw [State.bootCopy_ite, State.nudge_bootCopy, ite_self, h2]

@[simp] theorem State.setRefLost_bootCopy (s : State) (k : Nat) (b : Bool) :
    (s.setRefLost k b).bootCopy = s.bootCopy := (rfl)

@[simp] theorem State.startClock_bootCopy (s : State) (l : List Rec) (k : Nat) :
    (s.startClock l k).bootCopy = s.bootCopy := by
  unfold State.startClock; split <;> simp

@[simp] theorem State.startClocks_bootCopy (s : State) (l : List Rec) : (s.startClocks l).bootCopy = s.bootCopy := by
  simp [State.startClocks]

@[simp] theorem State.endSlew_bootCopy (s : State) : s.endSlew.bootCopy = s.bootCopy := by
  simp [State.endSlew]

@[simp] theorem State.servoTo_bootCopy (s : State) (v : Nat) : (s.servoTo v).bootCopy = s.bootCopy := by
  simp [State.servoTo]

@[simp] theorem State.armStep_bootCopy (s : State) : s.armStep.bootCopy = s.bootCopy := by
  simp [State.armStep]

@[simp] theorem State.dropPath_bootCopy (s : State) : s.dropPath.bootCopy = s.bootCopy := (rfl)

@[simp] theorem State.loseMaster_bootCopy (s : State) : s.loseMaster.bootCopy = s.bootCopy := by
  simp only [State.loseMaster, State.bootCopy_ite, State.raise_bootCopy, State.servoTo_bootCopy, State.dropPath_bootCopy,
    State.bootCopy_update, State.setFld_bootCopy, State.setBit_bootCopy, ite_self]

@[simp] theorem State.restartSelection_bootCopy (s : State) : s.restartSelection.bootCopy = s.bootCopy := by
  simp [State.restartSelection]

@[simp] theorem State.dropDelays_bootCopy (s : State) : s.dropDelays.bootCopy = s.bootCopy := (rfl)

@[simp] theorem State.ptpCfgWrite_bootCopy (s : State) (v : Word) : (s.ptpCfgWrite v).bootCopy = s.bootCopy := by
  simp [State.ptpCfgWrite]

@[simp] theorem State.setServoHold_bootCopy (s : State) (on : Bool) : (s.setServoHold on).bootCopy = s.bootCopy := by
  simp [State.setServoHold]

@[simp] theorem State.timCtrlWrite_bootCopy (s : State) (x : Bool) (v : Word) :
    (s.timCtrlWrite x v).bootCopy = s.bootCopy := by
  simp [State.timCtrlWrite]

@[simp] theorem State.addendWrite_bootCopy (s : State) (v : Nat) : (s.addendWrite v).bootCopy = s.bootCopy := by
  simp [State.addendWrite]

@[simp] theorem State.pulse_bootCopy (s : State) (k width : Nat) : (s.pulse k width).bootCopy = s.bootCopy := by
  simp [State.pulse]

@[simp] theorem State.tpoWrite_bootCopy (s : State) (k : Nat) (v : Word) : (s.tpoWrite k v).bootCopy = s.bootCopy := by
  simp [State.tpoWrite]

/-! ### Encoders -/

@[simp] theorem State.setEnc_bootCopy (s : State) (e : Nat) (x : EncSt) : (s.setEnc e x).bootCopy = s.bootCopy := (rfl)
@[simp] theorem State.setEncState_bootCopy (s : State) (e v : Nat) : (s.setEncState e v).bootCopy = s.bootCopy := (rfl)

@[simp] theorem State.encStop_bootCopy (s : State) (e cause : Nat) : (s.encStop e cause).bootCopy = s.bootCopy := by
  simp [State.encStop]

@[simp] theorem State.encCtrl_bootCopy (s : State) (e act rate : Nat) :
    (s.encCtrl e act rate).bootCopy = s.bootCopy := by
  unfold State.encCtrl
  extract_lets s1
  have h1 : s1.bootCopy = s.bootCopy := by simp [s1]
  clear_value s1
  split <;> simp [h1]

@[simp] theorem State.encCommit_bootCopy (s old : State) (k : Nat) (also : List Nat) :
    (s.encCommit old k also).bootCopy = s.bootCopy := by
  simp [State.encCommit]

@[simp] theorem State.encStopAll_bootCopy (s : State) : s.encStopAll.bootCopy = s.bootCopy := by
  simp [State.encStopAll]

@[simp] theorem State.encSources_bootCopy (s : State) : s.encSources.bootCopy = s.bootCopy := by
  simp [State.encSources]

@[simp] theorem State.forceIrap_bootCopy (s : State) (e : Nat) : (s.forceIrap e).bootCopy = s.bootCopy := by
  simp [State.forceIrap]

@[simp] theorem State.encTakeover_bootCopy (s : State) : s.encTakeover.bootCopy = s.bootCopy := by
  simp [State.encTakeover]

@[simp] theorem State.encRdWrite_bootCopy (s : State) (e : Nat) (v : Word) :
    (s.encRdWrite e v).bootCopy = s.bootCopy := by
  simp [State.encRdWrite]

/-! ### Memory service -/

@[simp] theorem State.poisonStreams_bootCopy (s : State) : s.poisonStreams.bootCopy = s.bootCopy := by
  simp [State.poisonStreams]

@[simp] theorem State.poisonContexts_bootCopy (s : State) : s.poisonContexts.bootCopy = s.bootCopy := by
  refine State.bootCopy_foldl _ (fun t c => ?_) _ s
  dsimp only
  split
  · rfl
  · split <;> simp

@[simp] theorem State.contentsLost_bootCopy (s : State) : s.contentsLost.bootCopy = s.bootCopy := by
  simp [State.contentsLost]

@[simp] theorem State.markRetired_bootCopy (s : State) (i cause : Nat) :
    (s.markRetired i cause).bootCopy = s.bootCopy := by
  simp [State.markRetired]

@[simp] theorem State.outOfService_bootCopy (s : State) (i cause : Nat) :
    (s.outOfService i cause).bootCopy = s.bootCopy := by
  simp [State.outOfService]

@[simp] theorem State.nextCopy_bootCopy (s : State) : s.nextCopy.bootCopy = s.bootCopy := by
  unfold State.nextCopy
  split
  · rfl
  · split
    · rfl
    · rw [State.setReg_bootCopy, State.bootCopy_update]

@[simp] theorem State.endHold_bootCopy (s : State) : s.endHold.bootCopy = s.bootCopy := by
  simp [State.endHold]

@[simp] theorem State.retire_bootCopy (s : State) (i cause : Nat) : (s.retire i cause).bootCopy = s.bootCopy := by
  cases h : s.readySpare (i / 4) <;>
    simp only [State.retire, h, State.bootCopy_ite, State.endHold_bootCopy, State.memAlarms_bootCopy,
      State.outOfService_bootCopy, State.markRetired_bootCopy, State.contentsLost_bootCopy, State.nextCopy_bootCopy,
      State.setReg_bootCopy, State.setRankState_bootCopy, State.bootCopy_update, State.history_bootCopy,
      State.bootCopy_update_mram, ite_self]

@[simp] theorem State.memRetireWrite_bootCopy (s : State) (v : Word) : (s.memRetireWrite v).bootCopy = s.bootCopy := by
  simp [State.memRetireWrite]

@[simp] theorem State.setPool_bootCopy (s : State) (c : Nat) (l : List MemReq) :
    (s.setPool c l).bootCopy = s.bootCopy := (rfl)

@[simp] theorem State.drainModes_bootCopy (s : State) : s.drainModes.bootCopy = s.bootCopy := by
  simp [State.drainModes]

@[simp] theorem State.opCtrlWrite_bootCopy (s : State) (v : Word) : (s.opCtrlWrite v).bootCopy = s.bootCopy := by
  simp [State.opCtrlWrite]

@[simp] theorem State.scrubCtrlWrite_bootCopy (s : State) (w : Word) :
    (s.scrubCtrlWrite w).bootCopy = s.bootCopy := (rfl)

@[simp] theorem State.memLoad_bootCopy (s : State) (b : List Byte) : (s.memLoad b).bootCopy = s.bootCopy := by
  unfold State.memLoad
  extract_lets role dens sets gib s1 s2 s3 dead s4
  rw [State.bootCopy_update]
  calc s4.bootCopy = s3.bootCopy := by
        rw [State.bootCopy_foldl _ fun t c => t.setPool_bootCopy c [], State.setReg_bootCopy]
    _ = s2.bootCopy := State.bootCopy_foldl _ (fun t k => t.setReg_bootCopy _ _) _ _
    _ = s1.bootCopy := State.bootCopy_foldl _ (fun t i => t.setReg_bootCopy _ _) _ _
    _ = s.bootCopy := by rw [State.setReg_bootCopy, State.setReg_bootCopy]

/-! ### Touch maps and zones -/

@[simp] theorem State.touchReports_bootCopy (s : State) (h : Nat) (l : List TouchRec) :
    (s.touchReports h l).bootCopy = s.bootCopy := by
  simp [State.touchReports]

@[simp] theorem State.floodAlarm_bootCopy (s : State) : s.floodAlarm.bootCopy = s.bootCopy := by
  simp [State.floodAlarm]

@[simp] theorem State.captureRefused_bootCopy (s : State) (h : Nat) :
    (s.captureRefused h).bootCopy = s.bootCopy := (rfl)

@[simp] theorem State.mapCtrlWrite_bootCopy (s : State) (v : Word) : (s.mapCtrlWrite v).bootCopy = s.bootCopy := by
  unfold State.mapCtrlWrite
  extract_lets h s1
  have h1 : s1.bootCopy = s.bootCopy := s.setFld_bootCopy _ _ _ _
  split
  · exact h1
  · split
    · rw [State.captureRefused_bootCopy, h1]
    · simp [h1]

@[simp] theorem State.zoneApply_bootCopy (s : State) (h z kind x0 y0 x1 y1 hold : Nat) :
    (s.zoneApply h z kind x0 y0 x1 y1 hold).bootCopy = s.bootCopy := by
  simp [State.zoneApply]

@[simp] theorem State.touchRingWrite_bootCopy (s : State) (h : Nat) (v : Word) :
    (s.touchRingWrite h v).bootCopy = s.bootCopy := (rfl)

@[simp] theorem State.touchRdWrite_bootCopy (s : State) (h : Nat) (v : Word) :
    (s.touchRdWrite h v).bootCopy = s.bootCopy := by
  simp [State.touchRdWrite]

@[simp] theorem State.touchStart_bootCopy (s : State) : s.touchStart.bootCopy = s.bootCopy := by
  unfold State.touchStart
  rw [State.floodAlarm_bootCopy, State.bootCopy_foldl]
  · simp
  · intro t h
    split
    · rfl
    · rw [State.reportHead_bootCopy, State.setHead_bootCopy]

@[simp] theorem State.touchTakeover_bootCopy (s : State) : s.touchTakeover.bootCopy = s.bootCopy := by
  refine State.bootCopy_foldl _ (fun t h => ?_) _ s
  split
  · rfl
  · rw [State.touchReports_bootCopy, State.setHead_bootCopy]

/-! ### The twin -/

@[simp] theorem State.setRole_bootCopy (s : State) (v : Nat) : (s.setRole v).bootCopy = s.bootCopy := (rfl)

@[simp] theorem State.setSync_bootCopy (s : State) (v : Nat) : (s.setSync v).bootCopy = s.bootCopy := by
  simp [State.setSync]

@[simp] theorem State.twinLinkAlarm_bootCopy (s : State) : s.twinLinkAlarm.bootCopy = s.bootCopy := by
  simp [State.twinLinkAlarm]

@[simp] theorem State.healthAlarm_bootCopy (s : State) : s.healthAlarm.bootCopy = s.bootCopy := by
  simp [State.healthAlarm]

@[simp] theorem State.sendMirror_bootCopy (s : State) (kind epoch index aux : Nat) (body : List Byte) :
    (s.sendMirror kind epoch index aux body).bootCopy = s.bootCopy := by
  simp [State.sendMirror]

@[simp] theorem State.sendImage_bootCopy (s : State) (e : Nat) (b : List Byte) :
    (s.sendImage e b).bootCopy = s.bootCopy := by
  simp [State.sendImage]

@[simp] theorem State.sendItems_bootCopy (s : State) (kind epoch first : Nat) (items : List Item) :
    (s.sendItems kind epoch first items).bootCopy = s.bootCopy := by
  simp [State.sendItems]

@[simp] theorem State.holdQueues_bootCopy (s : State) : s.holdQueues.bootCopy = s.bootCopy := by
  refine State.bootCopy_foldl _ (fun t q => ?_) _ s
  rw [State.setQueue_bootCopy, State.setBit_bootCopy, State.setQState_bootCopy]

@[simp] theorem State.releaseQueues_bootCopy (s : State) : s.releaseQueues.bootCopy = s.bootCopy := by
  refine State.bootCopy_foldl _ (fun t q => ?_) _ s
  dsimp only
  split <;> simp

@[simp] theorem State.dropEpochs_bootCopy (s : State) : s.dropEpochs.bootCopy = s.bootCopy := (rfl)

@[simp] theorem State.keepCadence_bootCopy (s : State) : s.keepCadence.bootCopy = s.bootCopy := by
  simp [State.keepCadence]

@[simp] theorem State.becomeActive_bootCopy (s : State) : s.becomeActive.bootCopy = s.bootCopy := by
  simp [State.becomeActive]

@[simp] theorem State.becomeStandby_bootCopy (s : State) : s.becomeStandby.bootCopy = s.bootCopy := by
  unfold State.becomeStandby
  extract_lets s1 b sh s2
  have h2 : s2.bootCopy = s.bootCopy := by
    rw [State.bootCopy_update, State.holdQueues_bootCopy, State.setRole_bootCopy]
  rw [State.bootCopy_foldl, h2]
  intro t e
  rw [State.bootCopy_ite, State.setEncState_bootCopy, ite_self]

@[simp] theorem State.requestResync_bootCopy (s : State) (cause : Nat) :
    (s.requestResync cause).bootCopy = s.bootCopy := by
  unfold State.requestResync
  rw [State.sendMirror_bootCopy, State.bootCopy_update, State.setSync_bootCopy, State.setReg_bootCopy]

@[simp] theorem State.leaveStandby_bootCopy (s : State) : s.leaveStandby.bootCopy = s.bootCopy := by
  simp [State.leaveStandby]

@[simp] theorem State.twinStart_bootCopy (s : State) : s.twinStart.bootCopy = s.bootCopy := by
  unfold State.twinStart
  extract_lets s0 s1
  have h1 : s1.bootCopy = s.bootCopy := by rw [State.setFld_bootCopy, State.bootCopy_update]
  clear_value s1
  split <;> simp +zetaDelta [h1]

/-! ### The ring -/

@[simp] theorem State.ringAlarms_bootCopy (s : State) : s.ringAlarms.bootCopy = s.bootCopy := by
  simp [State.ringAlarms]

@[simp] theorem State.passRing_bootCopy (s : State) (d cid side : Nat) (p : List Byte) :
    (s.passRing d cid side p).bootCopy = s.bootCopy := by
  simp [State.passRing]

@[simp] theorem State.sendRing_bootCopy (s : State) (kind cid side tag : Nat) (body : List Byte) :
    (s.sendRing kind cid side tag body).bootCopy = s.bootCopy := by
  simp [State.sendRing]

@[simp] theorem State.nextTag_bootCopy (s : State) : s.nextTag.bootCopy = s.bootCopy := (rfl)
@[simp] theorem State.countSubs_bootCopy (s : State) : s.countSubs.bootCopy = s.bootCopy := (rfl)

@[simp] theorem State.sendSubscribe_bootCopy (s : State) (x : CasSub) : (s.sendSubscribe x).bootCopy = s.bootCopy := by
  simp [State.sendSubscribe]

@[simp] theorem State.subscribe_bootCopy (s : State) (i : Nat) : (s.subscribe i).bootCopy = s.bootCopy := by
  simp [State.subscribe]

@[simp] theorem State.unsubscribe_bootCopy (s : State) (i : Nat) : (s.unsubscribe i).bootCopy = s.bootCopy := by
  unfold State.unsubscribe; split <;> simp

@[simp] theorem State.unsend_bootCopy (s : State) (i : Nat) : (s.unsend i).bootCopy = s.bootCopy := by
  simp [State.unsend]

@[simp] theorem State.casStart_bootCopy (s : State) : s.casStart.bootCopy = s.bootCopy := by
  unfold State.casStart
  split
  · simp
  · simp

/-! ### The loader -/

@[simp] theorem State.showLoad_bootCopy (s : State) (r : LoadResult) : (s.showLoad r).bootCopy = s.bootCopy := by
  simp [State.showLoad]

@[simp] theorem State.postLoad_bootCopy (s : State) (r : LoadResult) : (s.postLoad r).bootCopy = s.bootCopy := by
  simp [State.postLoad]

@[simp] theorem State.clearRange_bootCopy (s : State) (lo hi : Nat) :
    (s.clearRange lo hi).bootCopy = s.bootCopy := (rfl)

@[simp] theorem State.loadSet_bootCopy (s : State) (k : Nat) (b : Option (List Byte)) :
    (s.loadSet k b).bootCopy = s.bootCopy := by
  unfold State.loadSet; split <;> simp

@[simp] theorem State.loadPort_bootCopy (s : State) (recs : List Rec) (port ctrl : Nat) :
    (s.loadPort recs port ctrl).bootCopy = s.bootCopy := by
  unfold State.loadPort
  split <;> exact s.setReg_bootCopy _ _

@[simp] theorem State.loadCascadePorts_bootCopy (s : State) (recs : List Rec) :
    (s.loadCascadePorts recs).bootCopy = s.bootCopy := by
  simp [State.loadCascadePorts]

@[simp] theorem State.loadPorts_bootCopy (s : State) : s.loadPorts.bootCopy = s.bootCopy := by
  simp [State.loadPorts]

@[simp] theorem State.loadMachine_bootCopy (s : State) (m : Nat) : (s.loadMachine m).bootCopy = s.bootCopy := by
  unfold State.loadMachine
  extract_lets words
  split <;> simp

@[simp] theorem State.loadLayer_bootCopy (s : State) (i : Nat) (b : List Byte) :
    (s.loadLayer i b).bootCopy = s.bootCopy := by
  simp [State.loadLayer]

@[simp] theorem State.refuseOpen_bootCopy (s : State) (open_ : Option LoadResult) :
    (s.refuseOpen open_).bootCopy = s.bootCopy := by
  unfold State.refuseOpen; split <;> simp

@[simp] theorem State.reviewAlarms_bootCopy (s : State) : s.reviewAlarms.bootCopy = s.bootCopy := by
  simp [State.reviewAlarms]

@[simp] theorem State.stopContexts_bootCopy (s : State) : s.stopContexts.bootCopy = s.bootCopy := by
  simp [State.stopContexts]

@[simp] theorem State.autostart_bootCopy (s : State) : s.autostart.bootCopy = s.bootCopy := by
  refine State.bootCopy_foldl _ (fun t c => ?_) _ s
  split <;> simp

@[simp] theorem State.dropZones_bootCopy (s : State) : s.dropZones.bootCopy = s.bootCopy := by
  simp [State.dropZones]

@[simp] theorem State.structureStart_bootCopy (s : State) (gen : Nat) (recs : List Rec) (images : List (List Byte))
    (twin : Bool) :
    (s.structureStart gen recs images twin).bootCopy = s.bootCopy := by
  unfold State.structureStart
  extract_lets s0 ld s1 s2 s3 s4 s5 s6 s7 s8 s9 s10 s11 s12
  have h2 : s2.bootCopy = s.bootCopy := by
    rw [State.setReg_bootCopy, State.bootCopy_update, State.dropZones_bootCopy, State.encStopAll_bootCopy,
      State.stopContexts_bootCopy]
  have h3 : s3.bootCopy = s2.bootCopy := by
    simp only [s3]
    clear_value s2
    split <;> simp
  have h5 : s5.bootCopy = s3.bootCopy := by
    simp [s5, s4]
  have h6 : s6.bootCopy = s5.bootCopy := by
    refine State.bootCopy_foldl _ (fun t i => ?_) _ s5
    split <;> simp
  have h9 : s9.bootCopy = s6.bootCopy := by
    simp [s9, s8, s7]
  have h11 : s11.bootCopy = s9.bootCopy := by
    simp [s11, s10]
  have h12 : s12.bootCopy = s11.bootCopy := by
    simp [s12]
  simp only [State.reviewAlarms_bootCopy, State.casStart_bootCopy, State.touchStart_bootCopy, h12, h11, h9, h6, h5, h3, h2]

@[simp] theorem State.dropNodeFrame_bootCopy (s : State) (n : Nat) : (s.dropNodeFrame n).bootCopy = s.bootCopy := by
  unfold State.dropNodeFrame; split <;> simp

@[simp] theorem State.removeObject_bootCopy (s : State) (k : Nat × Nat) : (s.removeObject k).bootCopy = s.bootCopy := by
  simp [State.removeObject]

@[simp] theorem State.applyRecord_bootCopy (s : State) (r : Rec) : (s.applyRecord r).bootCopy = s.bootCopy := by
  simp [State.applyRecord]

@[simp] theorem State.applyActs_bootCopy (s : State) (as : List RecAct) : (s.applyActs as).bootCopy = s.bootCopy := by
  unfold State.applyActs
  extract_lets e
  have he : e.1.bootCopy = s.bootCopy := by
    refine State.bootCopy_foldl_part Prod.fst _ (fun u a => ?_) as (s, [])
    split <;> simp
  simp [he]

@[simp] theorem State.applyLate_bootCopy (s : State) (k : Nat) : (s.applyLate k).bootCopy = s.bootCopy := by
  simp [State.applyLate]

@[simp] theorem State.applyDelta_bootCopy (s : State) (d : Delta) : (s.applyDelta d).bootCopy = s.bootCopy := by
  simp [State.applyDelta]

@[simp] theorem State.acceptImage_bootCopy (s : State) (b : List Byte) : (s.acceptImage b).bootCopy = s.bootCopy := by
  simp [State.acceptImage]

@[simp] theorem State.toPhase_bootCopy (s : State) (n : NextPlan) (p : StartPhase) :
    (s.toPhase n p).bootCopy = s.bootCopy := by
  unfold State.toPhase
  split <;> simp

@[simp] theorem State.bootFallback_bootCopy (s : State) (code : Nat) : (s.bootFallback code).bootCopy = s.bootCopy := by
  unfold State.bootFallback; split <;> simp

/-! ### Changes that take effect -/

@[simp] theorem State.applyWord_bootCopy (s : State) (write : Bool) (off : Nat) (mask v : Word) :
    (s.applyWord write off mask v).bootCopy = s.bootCopy := by
  simp [State.applyWord]

@[simp] theorem State.applyChange_bootCopy (s : State) (h : Held) : (s.applyChange h).bootCopy = s.bootCopy := by
  unfold State.applyChange
  split
  · exact State.bootCopy_foldl _ (fun t _ => t.applyWord_bootCopy _ _ _ _) _ s
  · exact s.zoneApply_bootCopy ..
  · exact s.encCtrl_bootCopy ..
  · rfl

@[simp] theorem State.afterWords_bootCopy (s : State) (offs : List Nat) :
    (s.afterWords offs).bootCopy = s.bootCopy := by
  simp [State.afterWords]

@[simp] theorem State.afterChanges_bootCopy (s : State) (hs : List Held) :
    (s.afterChanges hs).bootCopy = s.bootCopy := by
  simp [State.afterChanges]

/-! ### The mailbox -/

@[simp] theorem State.takeBytes_bootCopy (s : State) (a n : Nat) : (s.takeBytes a n).1.bootCopy = s.bootCopy := by
  dsimp only [State.takeBytes]
  split <;> simp

@[simp] theorem State.mboxReply_bootCopy (s : State) (op code : Nat) (data : List Word) :
    (s.mboxReply op code data).bootCopy = s.bootCopy := by
  rw [State.mboxReply, State.sendVector_bootCopy, State.raise_bootCopy, State.bootCopy_update, State.setBit_bootCopy,
    State.setReg_bootCopy, State.bootCopy_foldl _ fun t i => t.setReg_bootCopy _ _]

@[simp] theorem State.mboxQuick_bootCopy (s : State) (op : Nat) (a : List Word) :
    (s.mboxQuick op a).bootCopy = s.bootCopy := by
  have hread := s.takeBytes_bootCopy (mboxAddr a) (mboxLen a)
  unfold State.mboxQuick
  generalize s.takeBytes (mboxAddr a) (mboxLen a) = x at hread ⊢
  obtain ⟨s1, b⟩ := x
  simp only [State.bootCopy_ite, State.mboxReply_bootCopy, State.bootCopy_update, hread, ite_self]

@[simp] theorem State.mboxSubmit_bootCopy (s : State) (src op : Nat) : (s.mboxSubmit src op).bootCopy = s.bootCopy := by
  unfold State.mboxSubmit
  split
  · exact s.setBit_bootCopy _ _ _
  · extract_lets a s1 svp s2
    have h2 : s2.bootCopy = s.bootCopy := by rw [State.bootCopy_update, State.setReg_bootCopy]
    clear_value s2
    simp only [State.bootCopy_ite, State.mboxReply_bootCopy, State.refuseX_bootCopy, State.mboxQuick_bootCopy, h2, ite_self]

/-! ### Reset and training -/

@[simp] theorem State.resetTo_bootCopy (s : State) (cold : Bool) (cause : Nat) :
    (s.resetTo cold cause).bootCopy = s.bootCopy := by
  simp [State.resetTo]

@[simp] theorem State.trainingStart_bootCopy (s : State) : s.trainingStart.bootCopy = s.bootCopy := by
  simp [State.trainingStart]

/-! ### Queues -/

@[simp] theorem State.qUnwait_bootCopy (s : State) (q : Nat) : (s.qUnwait q).bootCopy = s.bootCopy := (rfl)

@[simp] theorem State.qDrop_bootCopy (s : State) (q : Nat) : (s.qDrop q).bootCopy = s.bootCopy := by
  simp [State.qDrop]

@[simp] theorem State.qHalt_bootCopy (s : State) (q code : Nat) (r : Option CmdRec) (index : Nat) :
    (s.qHalt q code r index).bootCopy = s.bootCopy := by
  unfold State.qHalt; split <;> simp

@[simp] theorem State.qGo_bootCopy (s : State) (q : Nat) : (s.qGo q).bootCopy = s.bootCopy := by
  simp [State.qGo]

@[simp] theorem State.qResume_bootCopy (s : State) (q : Nat) : (s.qResume q).bootCopy = s.bootCopy := by
  simp [State.qResume]

@[simp] theorem State.qTailWrite_bootCopy (s : State) (q : Nat) (v : Word) :
    (s.qTailWrite q v).bootCopy = s.bootCopy := by
  simp [State.qTailWrite]

@[simp] theorem State.qRunWrite_bootCopy (s : State) (q : Nat) (on : Bool) :
    (s.qRunWrite q on).bootCopy = s.bootCopy := by
  simp [State.qRunWrite]

@[simp] theorem State.qAbort_bootCopy (s : State) (q : Nat) : (s.qAbort q).bootCopy = s.bootCopy := by
  simp [State.qAbort]

@[simp] theorem State.qCtrlWrite_bootCopy (s : State) (q : Nat) (mask v : Word) :
    (s.qCtrlWrite q mask v).bootCopy = s.bootCopy := by
  simp [State.qCtrlWrite]

@[simp] theorem State.qRingWrite_bootCopy (s : State) (q reg : Nat) (mask v : Word) :
    (s.qRingWrite q reg mask v).bootCopy = s.bootCopy := by
  simp [State.qRingWrite]

@[simp] theorem State.evRdWrite_bootCopy (s : State) (q : Nat) (v : Word) :
    (s.evRdWrite q v).bootCopy = s.bootCopy := by
  simp [State.evRdWrite]

/-! ### Requests of the host -/

@[simp] theorem State.requestHandover_bootCopy (s : State) : s.requestHandover.bootCopy = s.bootCopy := by
  simp [State.requestHandover]

@[simp] theorem State.twnCtrlWrite_bootCopy (s : State) (x : Bool) (v : Word) :
    (s.twnCtrlWrite x v).bootCopy = s.bootCopy := by
  simp [State.twnCtrlWrite]

@[simp] theorem State.relayResult_bootCopy (s : State) (code : Nat) (data : Word) :
    (s.relayResult code data).bootCopy = s.bootCopy := (rfl)

@[simp] theorem State.relayGo_bootCopy (s : State) (x : Bool) : (s.relayGo x).bootCopy = s.bootCopy := by
  simp [State.relayGo]

@[simp] theorem State.relayCtrlWrite_bootCopy (s : State) (x : Bool) (v : Word) :
    (s.relayCtrlWrite x v).bootCopy = s.bootCopy := by
  simp [State.relayCtrlWrite]

/-! ### Register writes -/

@[simp] theorem State.intStatusWrite_bootCopy (s : State) (k : Nat) (w : Word) :
    (s.intStatusWrite k w).bootCopy = s.bootCopy := by
  simp [State.intStatusWrite]

@[simp] theorem State.intEnableWrite_bootCopy (s : State) (k : Nat) (w : Word) :
    (s.intEnableWrite k w).bootCopy = s.bootCopy := by
  simp [State.intEnableWrite]

@[simp] theorem State.intForceWrite_bootCopy (s : State) (k : Nat) (w : Word) :
    (s.intForceWrite k w).bootCopy = s.bootCopy := by
  simp [State.intForceWrite]

@[simp] theorem State.msixWrite_bootCopy (s : State) (off : Nat) (m v : Word) :
    (s.msixWrite off m v).bootCopy = s.bootCopy := by
  simp [State.msixWrite]

@[simp] theorem State.levelKeyWrite_bootCopy (s : State) (w : Word) : (s.levelKeyWrite w).bootCopy = s.bootCopy := by
  simp [State.levelKeyWrite]

@[simp] theorem State.levelStatusWrite_bootCopy (s : State) (w : Word) :
    (s.levelStatusWrite w).bootCopy = s.bootCopy := by
  simp [State.levelStatusWrite]

@[simp] theorem State.loadAckWrite_bootCopy (s : State) (w : Word) : (s.loadAckWrite w).bootCopy = s.bootCopy := by
  unfold State.loadAckWrite
  extract_lets t
  have ht : t.bootCopy = s.bootCopy := s.ackWindow_bootCopy _ w
  split <;> simp [ht]

theorem State.sysSpecial_bootCopy (s : State) (src off : Nat) (w : Word) :
    ∀ t ∈ s.sysSpecial src off w, t.bootCopy = s.bootCopy := by
  unfold State.sysSpecial
  repeat' split
  all_goals simp

theorem State.stmSpecial_bootCopy (s : State) (x : Bool) (off : Nat) (m w : Word) :
    ∀ t ∈ s.stmSpecial x off m w, t.bootCopy = s.bootCopy := by
  unfold State.stmSpecial
  repeat' split
  all_goals simp

theorem State.timSpecial_bootCopy (s : State) (x : Bool) (off : Nat) (w : Word) :
    ∀ t ∈ s.timSpecial x off w, t.bootCopy = s.bootCopy := by
  unfold State.timSpecial
  repeat' split
  all_goals simp

theorem State.encSpecial_bootCopy (s : State) (off : Nat) (w : Word) :
    ∀ t ∈ s.encSpecial off w, t.bootCopy = s.bootCopy := by
  unfold State.encSpecial
  dsimp only
  repeat' split
  all_goals simp

theorem State.blkSpecial_bootCopy (s : State) (off : Nat) (w : Word) :
    ∀ t ∈ s.blkSpecial off w, t.bootCopy = s.bootCopy := by
  unfold State.blkSpecial
  repeat' split
  all_goals simp

theorem State.chkSpecial_bootCopy (s : State) (off : Nat) (w : Word) :
    ∀ t ∈ s.chkSpecial off w, t.bootCopy = s.bootCopy := by
  unfold State.chkSpecial
  repeat' split
  all_goals simp

theorem State.twinSpecial_bootCopy (s : State) (x : Bool) (off : Nat) (w : Word) :
    ∀ t ∈ s.twinSpecial x off w, t.bootCopy = s.bootCopy := by
  unfold State.twinSpecial
  repeat' split
  all_goals simp

/-- A register write with a meaning of its own. -/
theorem State.special_bootCopy (s : State) (src : Nat) (x : Bool) (off : Nat) (m w : Word) :
    ∀ t ∈ s.special src x off m w, t.bootCopy = s.bootCopy := by
  have hsys := s.sysSpecial_bootCopy src off w
  have hstm := s.stmSpecial_bootCopy x off m w
  have henc := s.encSpecial_bootCopy off w
  have hblk := s.blkSpecial_bootCopy off w
  have htwin := s.twinSpecial_bootCopy x off w
  unfold State.special
  extract_lets k
  clear_value k
  split
  · simp
  · simp
  · simp
  · split
    · exact hsys
    · exact hsys
    · exact hstm
    · exact hstm
    · exact s.timSpecial_bootCopy x off w
    · exact henc
    · exact henc
    · exact henc
    · exact henc
    · exact henc
    · exact hblk
    · exact hblk
    · exact s.chkSpecial_bootCopy off w
    · exact htwin
    · exact htwin
    · exact htwin
    · simp

@[simp] theorem State.writeReg_bootCopy (s : State) (src : Nat) (x : Bool) (sh : ShadowWrite)
    (hsh : ∀ t off m v, (sh t off m v).bootCopy = t.bootCopy) (d : RegDesc) (off : Nat) (mask v : Word) :
    (s.writeReg src x sh d off mask v).bootCopy = s.bootCopy := by
  unfold State.writeReg
  split
  · exact s.refuseX_bootCopy ..
  · extract_lets m w s1 s2
    have h1 : s1.bootCopy = s.bootCopy := by
      simp only [s1]
      split
      next t ht => exact s.special_bootCopy src x off m w t ht
      next => simp
    have h2 : s2.bootCopy = s.bootCopy := by simp only [s2, State.bootCopy_ite, hsh, h1, ite_self]
    rw [State.bootCopy_ite, State.countX_bootCopy, ite_self, h2]

@[simp] theorem State.writeTable_bootCopy (s : State) (src : Nat) (x : Bool) (sh : ShadowWrite)
    (hsh : ∀ t off m v, (sh t off m v).bootCopy = t.bootCopy) (off : Nat) (mask v : Word) :
    (s.writeTable src x sh off mask v).bootCopy = s.bootCopy := by
  simp [State.writeTable, hsh]

@[simp] theorem State.write_bootCopy (s : State) (src : Nat) (x : Bool) (sh : ShadowWrite)
    (hsh : ∀ t off m v, (sh t off m v).bootCopy = t.bootCopy) (off : Nat) (mask v : Word) :
    (s.write src x sh off mask v).bootCopy = s.bootCopy := by
  unfold State.write
  split
  · exact s.writeReg_bootCopy src x sh hsh _ off mask v
  · simp [hsh]

/-! ### Queue commands -/

@[simp] theorem State.nextCmd_bootCopy (s : State) : s.nextCmd.bootCopy = s.bootCopy := (rfl)

@[simp] theorem State.holdCmd_bootCopy (s : State) (q index : Nat) (r : CmdRec) (least : Nat) :
    (s.holdCmd q index r least).bootCopy = s.bootCopy := by
  simp [State.holdCmd]

@[simp] theorem State.fenceSignal_bootCopy (s : State) (q index : Nat) (r : CmdRec) :
    (s.fenceSignal q index r).bootCopy = s.bootCopy := by
  simp [State.fenceSignal]

@[simp] theorem State.dmaStart_bootCopy (s : State) (q index : Nat) (r : CmdRec) :
    (s.dmaStart q index r).bootCopy = s.bootCopy := by
  simp [State.dmaStart]

@[simp] theorem State.hostRestart_bootCopy (s : State) (i : Nat) : (s.hostRestart i).bootCopy = s.bootCopy := (rfl)

@[simp] theorem State.hostFlip_bootCopy (s : State) (r : CmdRec) : (s.hostFlip r).bootCopy = s.bootCopy := by
  dsimp only [State.hostFlip]
  split <;> simp

@[simp] theorem State.flipRefused_bootCopy (s : State) (q i code : Nat) :
    (s.flipRefused q i code).bootCopy = s.bootCopy := by
  simp [State.flipRefused]

@[simp] theorem State.mirrorFlip_bootCopy (s : State) (q : Nat) (r : CmdRec) :
    (s.mirrorFlip q r).bootCopy = s.bootCopy := by
  simp [State.mirrorFlip]

@[simp] theorem State.cmdWrites_bootCopy (s : State) (q index : Nat) (r : CmdRec) (l : List (Nat × Word × Word)) :
    (s.cmdWrites q index r l).bootCopy = s.bootCopy := by
  unfold State.cmdWrites
  extract_lets seq sh mine all s1 cmd s2
  have hsh (t : State) (off : Nat) (m v : Word) : (sh t off m v).bootCopy = t.bootCopy := t.bootCopy_update ..
  have hall (t : State) : (all t).bootCopy = t.bootCopy :=
    State.bootCopy_foldl _ (fun t _ => t.write_bootCopy 2 true sh hsh _ _ _) mine t
  have h1 : s1.bootCopy = s.bootCopy := by
    simp only [s1, State.bootCopy_ite, s.onMirrorChan_bootCopy all hall, hall, ite_self]
  have h2 : s2.bootCopy = s.bootCopy := by rw [State.bootCopy_update, h1]
  rw [State.bootCopy_ite, State.cmdEvent_bootCopy, ite_self, h2]

@[simp] theorem State.decCmd_bootCopy (s : State) (q index : Nat) (r : CmdRec) :
    (s.decCmd q index r).bootCopy = s.bootCopy := by
  simp [State.decCmd]

@[simp] theorem State.qWaitFor_bootCopy (s : State) (q index : Nat) (w : QWait) :
    (s.qWaitFor q index w).bootCopy = s.bootCopy := by
  simp [State.qWaitFor]

@[simp] theorem State.fenceWait_bootCopy (s : State) (q index : Nat) (r : CmdRec) :
    (s.fenceWait q index r).bootCopy = s.bootCopy := by
  simp [State.fenceWait]

@[simp] theorem State.markCmd_bootCopy (s : State) (q index : Nat) (r : CmdRec) :
    (s.markCmd q index r).bootCopy = s.bootCopy := by
  simp [State.markCmd]

@[simp] theorem State.cmdEffect_bootCopy (s : State) (q index : Nat) (r : CmdRec) (least : Nat) :
    (s.cmdEffect q index r least).bootCopy = s.bootCopy := by
  unfold State.cmdEffect; split <;> simp

@[simp] theorem State.answerCmd_bootCopy (s : State) (tag code : Nat) :
    (s.answerCmd tag code).bootCopy = s.bootCopy := by
  simp [State.answerCmd]

@[simp] theorem State.forwardCheck_bootCopy (s : State) (tag : Nat) (r : CmdRec) :
    (s.forwardCheck tag r).bootCopy = s.bootCopy := by
  simp [State.forwardCheck]

@[simp] theorem State.forwardsGo_bootCopy (s : State) : s.forwardsGo.bootCopy = s.bootCopy := by
  simp [State.forwardsGo]

/-! ### What the twin mirrors -/

@[simp] theorem State.mirrorWrite_bootCopy (s : State) (off : Nat) (m v : Word) :
    (s.mirrorWrite off m v).bootCopy = s.bootCopy := by
  simp [State.mirrorWrite]

@[simp] theorem State.applyImage_bootCopy (s : State) (gen : Nat) (delta : Bool) :
    (s.applyImage gen delta).bootCopy = s.bootCopy := by
  unfold State.applyImage; split <;> simp

@[simp] theorem State.applyItem_bootCopy (s : State) (x : RxItem) : (s.applyItem x).bootCopy = s.bootCopy := by
  unfold State.applyItem; split <;> simp

@[simp] theorem State.raiseFences_bootCopy (s : State) (t : Trailer) : (s.raiseFences t).bootCopy = s.bootCopy := by
  simp [State.raiseFences]

@[simp] theorem State.newRoles_bootCopy (s : State) : s.newRoles.bootCopy = s.bootCopy := by
  simp [State.newRoles]

@[simp] theorem State.handOut_bootCopy (s : State) : s.handOut.bootCopy = s.bootCopy := by
  simp [State.handOut]

@[simp] theorem State.handIn_bootCopy (s : State) : s.handIn.bootCopy = s.bootCopy := by
  simp [State.handIn]

@[simp] theorem State.sendSnapshot_bootCopy (s : State) : s.sendSnapshot.bootCopy = s.bootCopy := by
  simp [State.sendSnapshot]

@[simp] theorem State.restoreWord_bootCopy (s : State) (off : Nat) (m v : Word) :
    (s.restoreWord off m v).bootCopy = s.bootCopy := by
  unfold State.restoreWord
  extract_lets new
  split
  · exact s.setReg_bootCopy off _
  · split
    · rw [State.stmSetRun_bootCopy, State.setReg_bootCopy]
    · exact s.setOutput_bootCopy _ _
    · simp

@[simp] theorem State.restoreItem_bootCopy (a : State × List Nat) (i : Item) :
    (State.restoreItem a i).1.bootCopy = a.1.bootCopy := by
  unfold State.restoreItem
  split
  · split
    · exact a.1.write_bootCopy _ _ _ (fun t off m v => t.stage_bootCopy off m v) _ _ _
    · split <;> simp
  · exact a.1.cmdEffect_bootCopy ..
  · rfl

@[simp] theorem State.applySnapshot_bootCopy (s : State) (t : Trailer) : (s.applySnapshot t).bootCopy = s.bootCopy := by
  unfold State.applySnapshot
  extract_lets items given late sel cmd s0 s1 s2 s3 s4 twin
  have h1 : s1.bootCopy = s.bootCopy := by
    rw [State.bootCopy_foldl _ fun u h => u.setHead_bootCopy h _, State.bootCopy_update]
  have h2 : s2.bootCopy = s1.bootCopy := State.bootCopy_foldl_part Prod.fst _ State.restoreItem_bootCopy items (s1, [])
  have h4 : s4.bootCopy = s2.bootCopy := by
    rw [State.setReg_bootCopy, State.raiseFences_bootCopy, State.afterWords_bootCopy, State.setReg_bootCopy]
  rw [State.bootCopy_update, h4, h2, h1]

@[simp] theorem State.commitSealed_bootCopy (s : State) : s.commitSealed.bootCopy = s.bootCopy := by
  unfold State.commitSealed; split <;> simp

@[simp] theorem State.applyItems_bootCopy (s : State) (l : List RxItem) : (s.applyItems l).bootCopy = s.bootCopy := by
  simp [State.applyItems]

@[simp] theorem State.applyEpoch_bootCopy (s : State) (e : RxEpoch) : (s.applyEpoch e).bootCopy = s.bootCopy := by
  simp [State.applyEpoch]

@[simp] theorem State.applyEpochs_bootCopy (s : State) (fuel : Nat) : (s.applyEpochs fuel).bootCopy = s.bootCopy := by
  induction fuel generalizing s with
  | zero => rfl
  | succ fuel ih =>
    unfold State.applyEpochs
    split
    · rw [State.bootCopy_ite, ih, State.applyEpoch_bootCopy, ite_self]
    · rfl

@[simp] theorem State.resynced_bootCopy (s : State) (t : Trailer) : (s.resynced t).bootCopy = s.bootCopy := by
  simp [State.resynced]

@[simp] theorem State.resyncStep_bootCopy (s : State) : s.resyncStep.bootCopy = s.bootCopy := by
  unfold State.resyncStep
  split
  · rfl
  · split
    · rfl
    · split
      · simp
      · split
        · simp
        · simp

/-! ### The commit point -/

@[simp] theorem State.promotion_bootCopy (s : State) : s.promotion.bootCopy = s.bootCopy := by
  simp [State.promotion]

@[simp] theorem State.dropDeltas_bootCopy (s : State) : s.dropDeltas.bootCopy = s.bootCopy := by
  rw [State.dropDeltas, State.bootCopy_update, State.bootCopy_foldl _ fun u _ => u.history_bootCopy _ _ _]

@[simp] theorem State.startStep_bootCopy (s : State) : s.startStep.bootCopy = s.bootCopy := by
  unfold State.startStep
  split
  · rfl
  · split <;> simp

@[simp] theorem State.fclk0Step_bootCopy (s : State) : s.fclk0Step.bootCopy = s.bootCopy := by
  simp [State.fclk0Step]

@[simp] theorem State.ringCommitted_bootCopy (s : State) (ds : List Delta) :
    (s.ringCommitted ds).bootCopy = s.bootCopy := by
  simp [State.ringCommitted]

@[simp] theorem State.applyLates_bootCopy (s : State) (k : Nat) : (s.applyLates k).bootCopy = s.bootCopy := by
  simp [State.applyLates]

@[simp] theorem State.applyDeltas_bootCopy (s old : State) (k : Nat) : (s.applyDeltas old k).bootCopy = s.bootCopy := by
  simp [State.applyDeltas]

@[simp] theorem State.takeHeld_bootCopy (s : State) (ts : Word) (l : List Held) :
    (s.takeHeld ts l).bootCopy = s.bootCopy := by
  induction l generalizing s with
  | nil => rfl
  | cons h rest ih => simp [State.takeHeld, ih]

@[simp] theorem State.releaseDefer_bootCopy (s : State) (k : Nat) : (s.releaseDefer k).bootCopy = s.bootCopy := (rfl)

@[simp] theorem State.applyDue_bootCopy (s old : State) (k : Nat) : (s.applyDue old k).bootCopy = s.bootCopy := by
  simp [State.applyDue]

@[simp] theorem State.countWaits_bootCopy (s : State) (k : Nat) : (s.countWaits k).bootCopy = s.bootCopy := by
  refine State.bootCopy_foldl _ (fun t q => ?_) _ s
  split <;> simp

@[simp] theorem State.snapOwed_bootCopy (s : State) : s.snapOwed.bootCopy = s.bootCopy := by
  simp [State.snapOwed]

@[simp] theorem State.commitPoint_bootCopy (s : State) (k : Nat) : (s.commitPoint k).bootCopy = s.bootCopy := by
  simp [State.commitPoint]

/-! ### Serving requests sets DRAM and the memory controller alone -/

/-- A fold whose steps go along a preorder goes along it. -/
theorem foldl_goes {α β : Type} {R : β → β → Prop} (hrefl : ∀ b, R b b)
    (htrans : ∀ {b c d}, R b c → R c d → R b d) (f : β → α → β) (h : ∀ b a, R b (f b a)) (l : List α) (b : β) :
    R b (l.foldl f b) :=
  List.foldlRecOn l f (hrefl b) fun c hc a _ => htrans hc (h c a)

/-- `t` differs from `s` in DRAM and in what the memory controller holds alone. -/
def State.DramOnly (s t : State) : Prop := t = { s with dram := t.dram, mem := t.mem }

theorem State.DramOnly.refl (s : State) : s.DramOnly s := by rfl

theorem State.DramOnly.trans {s t u : State} (h : s.DramOnly t) (h' : t.DramOnly u) : s.DramOnly u := by
  unfold State.DramOnly at *
  rw [h', h]

theorem State.DramOnly.regs {s t : State} (h : s.DramOnly t) : t.regs = s.regs := by
  rw [show t = _ from h]

theorem State.DramOnly.svp {s t : State} (h : s.DramOnly t) : t.svp = s.svp := by
  rw [show t = _ from h]

theorem State.DramOnly.mram {s t : State} (h : s.DramOnly t) : t.mram = s.mram := by
  rw [show t = _ from h]

theorem State.freshen_dramOnly (s : State) (a b : Nat) : s.DramOnly (s.freshen a b) := by
  unfold State.freshen
  split <;> rfl

theorem State.settleBytes_dramOnly (s : State) (a b : Nat) : s.DramOnly (s.settleBytes a b) := by
  unfold State.settleBytes
  split <;> rfl

theorem State.storeNow_dramOnly (s : State) (a : Nat) (l : List Byte) : s.DramOnly (s.storeNow a l) := by
  unfold State.storeNow
  split
  · exact .refl s
  · refine .trans ?_ ((State.freshen_dramOnly ..).trans (State.settleBytes_dramOnly ..))
    split
    · rfl
    · refine foldl_goes .refl .trans _ (fun t k => ?_) _ s
      split <;> rfl

theorem State.settleList_dramOnly (a b : Nat) (l : List MemReq) (s : State) : s.DramOnly (s.settleList a b l).1 := by
  induction l generalizing s with
  | nil => exact .refl s
  | cons r l ih =>
    refine .trans ?_ (ih _)
    split
    · exact .refl s
    · split
      · exact s.storeNow_dramOnly r.addr r.data
      · exact .refl s

theorem State.settleChannel_dramOnly (a b : Nat) (s : State) (c : Nat) : s.DramOnly (State.settleChannel a b s c) :=
  ((State.settleList_dramOnly a b _ s).trans (State.settleList_dramOnly a b _ _)).trans rfl

theorem State.settleReqs_dramOnly (s : State) (a b : Nat) : s.DramOnly (s.settleReqs a b) := by
  unfold State.settleReqs
  split
  · exact .refl s
  · exact foldl_goes .refl .trans _ (State.settleChannel_dramOnly a b) _ s

/-! ### Ranks that wake -/

/-- `t` stands to `s` as a state with ranks woken from self-refresh (R287): STATE and debt of ranks and the list of MR4
reads that are due may differ, the rest of the address map and of DRAM is the same. -/
structure State.SameDram (s t : State) : Prop where
  low : ∀ off, off < Reg.MEM_RANK_STATUS 0 → t.reg off = s.reg off
  rank : ∀ i hi lo, 4 ≤ lo → lo ≤ hi → hi < 28 →
    t.fld (Reg.MEM_RANK_STATUS i) hi lo = s.fld (Reg.MEM_RANK_STATUS i) hi lo
  dram : t.dram = s.dram
  mem : t.mem = { s.mem with mr4 := t.mem.mr4 }

namespace State.SameDram

variable {s t u : State}

theorem refl (s : State) : s.SameDram s := ⟨fun _ _ => rfl, fun _ _ _ _ _ _ => rfl, rfl, rfl⟩

theorem trans (h : s.SameDram t) (h' : t.SameDram u) : s.SameDram u where
  low off ho := (h'.low off ho).trans (h.low off ho)
  rank i hi lo h1 h2 h3 := (h'.rank i hi lo h1 h2 h3).trans (h.rank i hi lo h1 h2 h3)
  dram := h'.dram.trans h.dram
  mem := by rw [h'.mem, h.mem]

/-- The same change of DRAM on both sides, where the registers stay. -/
theorem step {s' t' : State} (h : s.SameDram t) (hs : s'.regs = s.regs) (ht : t'.regs = t.regs) (hd : t'.dram = s'.dram)
    (hm : t'.mem = { s'.mem with mr4 := t'.mem.mr4 }) : s'.SameDram t' where
  low off ho := by simpa only [State.reg, hs, ht] using h.low off ho
  rank i hi lo h1 h2 h3 := by simpa only [State.fld, State.reg, hs, ht] using h.rank i hi lo h1 h2 h3
  dram := hd
  mem := hm

theorem poison (h : s.SameDram t) : t.mem.poison = s.mem.poison := by rw [h.mem]
theorem dead (h : s.SameDram t) : t.mem.dead = s.mem.dead := by rw [h.mem]
theorem lost (h : s.SameDram t) : t.mem.lost = s.mem.lost := by rw [h.mem]
theorem laid (h : s.SameDram t) : t.mem.laid = s.mem.laid := by rw [h.mem]
theorem pool (h : s.SameDram t) : t.mem.pool = s.mem.pool := by rw [h.mem]
theorem waiting (h : s.SameDram t) : t.mem.waiting = s.mem.waiting := by rw [h.mem]
theorem copies (h : s.SameDram t) : t.mem.copies = s.mem.copies := by rw [h.mem]

theorem rankRole (h : s.SameDram t) (i : Nat) : t.rankRole i = s.rankRole i :=
  h.rank i 27 26 (by decide) (by decide) (by decide)

theorem hotBytes (h : s.SameDram t) : t.hotBytes = s.hotBytes := by
  rw [State.hotBytes, State.fld, h.low Reg.MEM_SPACE (by decide), ← State.fld, ← State.hotBytes]

theorem dramSize (h : s.SameDram t) : t.dramSize = s.dramSize := by
  rw [State.dramSize, h.hotBytes, State.fld, h.low Reg.MEM_SPACE (by decide), ← State.fld, ← State.dramSize]

theorem rowBits (h : s.SameDram t) : t.rowBits = s.rowBits := by
  rw [State.rowBits, State.bit, h.low Reg.MEM_CONFIG (by decide), ← State.bit, ← State.rowBits]

theorem dramHome (h : s.SameDram t) (a : Nat) : t.dramHome a = s.dramHome a := by
  unfold State.dramHome
  rw [h.dramSize, h.hotBytes, h.rowBits]
  simp only [h.rankRole]

theorem spareBit (h : s.SameDram t) (i : Nat) : t.bit (Reg.MEM_RANK_STATUS i) 22 = s.bit (Reg.MEM_RANK_STATUS i) 22 := by
  have hfld (u : State) : (u.fld (Reg.MEM_RANK_STATUS i) 22 22).testBit 0 = u.bit (Reg.MEM_RANK_STATUS i) 22 := by
    rw [State.fld, testBit_wbits]
    rfl
  rw [← hfld t, ← hfld s, h.rank i 22 22 (by decide) (by decide) (by decide)]

theorem copying (h : s.SameDram t) (i : Nat) : t.copying i = s.copying i := by
  rw [State.copying, State.bit, State.fld, h.low Reg.MEM_MIGRATE (by decide), ← State.bit, ← State.fld, ← State.copying]

theorem migrating (h : s.SameDram t) (i : Nat) : t.migrating i = s.migrating i := by
  rw [State.migrating, h.copying, h.copies, ← State.migrating]

theorem rankOffset (h : s.SameDram t) (a : Nat) : t.rankOffset a = s.rankOffset a := by
  unfold State.rankOffset
  rw [h.hotBytes, h.rowBits]

theorem servingRank (h : s.SameDram t) (a i : Nat) : t.servingRank a i = s.servingRank a i := by
  unfold State.servingRank
  simp only [h.spareBit, h.rank _ 21 18 (by decide) (by decide) (by decide)]
  rw [h.copying, h.migrating, h.rankOffset, State.fld, h.low Reg.MEM_MIGRATE (by decide), ← State.fld]

/-- `dramTakes` is unfolded as a function, not at its arguments: there the kernel would evaluate the home of an unknown
address. -/
theorem dramTakes (h : s.SameDram t) (a : Nat) : t.dramTakes a = s.dramTakes a := by
  suffices hf : ∀ f, f = State.dramTakes → f t a = f s a from hf _ rfl
  intro f hf
  delta State.dramTakes at hf
  simp only [hf, h.dramHome, h.dead, h.servingRank]

theorem linePoisoned (h : s.SameDram t) (l : Nat) : t.linePoisoned l = s.linePoisoned l := by
  simp only [State.linePoisoned, h.dramHome, h.servingRank, h.poison, h.dead, h.lost]

theorem poisonedRange (h : s.SameDram t) (r : Nat × Nat) : t.poisonedRange r = s.poisonedRange r := by
  simp only [State.poisonedRange, h.linePoisoned, h.poison, h.dead, h.lost]

theorem fetchNow (h : s.SameDram t) (a n : Nat) : t.fetchNow a n = s.fetchNow a n := by
  simp only [State.fetchNow, h.poisonedRange, State.dramRead, State.dramByte, h.dram]

end State.SameDram

/-- The registers below the RANK_STATUS words. -/
theorem ne_rankStatus {off : Nat} (ho : off < Reg.MEM_RANK_STATUS 0) (i : Nat) : off ≠ Reg.MEM_RANK_STATUS i := by
  unfold Reg.MEM_RANK_STATUS at *
  omega

theorem State.wakeRank_sameDram (s : State) (i : Nat) : s.SameDram (s.wakeRank i) := by
  unfold State.wakeRank
  split
  · refine ⟨fun off ho => ?_, fun j hi lo h1 h2 h3 => ?_, rfl, rfl⟩
    · rw [State.setDebt, State.reg_setFld_ne _ _ _ _ _ _ (ne_rankStatus ho i), State.setRankState,
        State.reg_setFld_ne _ _ _ _ _ _ (ne_rankStatus ho i)]
      rfl
    · rw [State.setDebt, State.setRankState]
      by_cases hj : Reg.MEM_RANK_STATUS j = Reg.MEM_RANK_STATUS i
      · rw [hj, State.fld_setFld_other _ _ _ _ _ _ _ (by omega) (by omega) (by omega) h2,
          State.fld_setFld_other _ _ _ _ _ _ _ (by omega) (by omega) (by omega) h2]
        rfl
      · rw [State.fld_setFld_ne _ _ _ _ _ _ _ _ hj, State.fld_setFld_ne _ _ _ _ _ _ _ _ hj]
        rfl
  · exact .refl s

theorem State.wakeRange_sameDram (s : State) (a b : Nat) : s.SameDram (s.wakeRange a b) := by
  unfold State.wakeRange
  split
  · exact .refl s
  · refine foldl_goes .refl .trans _ (fun t k => ?_) _ s
    split
    · exact t.wakeRank_sameDram _
    · exact .refl t

/-! ### Requests settle alike whether or not ranks have woken -/

namespace State.SameDram

variable {s t : State}

theorem setDramByte (h : s.SameDram t) (a : Nat) (b : Byte) : (s.setDramByte a b).SameDram (t.setDramByte a b) :=
  h.step rfl rfl (by rw [State.setDramByte, State.setDramByte, h.dram]) h.mem

theorem dramWrite (h : s.SameDram t) (a : Nat) (l : List Byte) : (s.dramWrite a l).SameDram (t.dramWrite a l) :=
  h.step rfl rfl (by rw [State.dramWrite, State.dramWrite, h.dram]) h.mem

theorem freshen (h : s.SameDram t) (a b : Nat) : (s.freshen a b).SameDram (t.freshen a b) := by
  unfold State.freshen
  rw [h.poison, h.lost]
  split
  · exact h
  · exact h.step rfl rfl h.dram (by rw [h.mem])

theorem settleBytes (h : s.SameDram t) (a b : Nat) : (s.settleBytes a b).SameDram (t.settleBytes a b) := by
  unfold State.settleBytes
  rw [h.laid]
  split
  · exact h
  · exact h.step rfl rfl h.dram (by rw [h.mem])

theorem storeNow (h : s.SameDram t) (a : Nat) (l : List Byte) : (s.storeNow a l).SameDram (t.storeNow a l) := by
  unfold State.storeNow
  split
  · exact h
  · refine SameDram.settleBytes (SameDram.freshen ?_ _ _) _ _
    rw [h.dead, h.dramSize]
    split
    · exact h.dramWrite a l
    · refine List.foldl_rel h fun k _ u v huv => ?_
      rw [h.dramTakes]
      split
      · exact huv.setDramByte _ _
      · exact huv

theorem settleList (h : s.SameDram t) (a b : Nat) (l : List MemReq) :
    (s.settleList a b l).1.SameDram (t.settleList a b l).1 ∧ (t.settleList a b l).2 = (s.settleList a b l).2 := by
  induction l generalizing s t with
  | nil => exact ⟨h, rfl⟩
  | cons r l ih =>
    simp only [State.settleList, h.fetchNow]
    split
    · exact ⟨(ih h).1, by rw [(ih h).2]⟩
    · split
      · have hs := ih (h.storeNow r.addr r.data)
        exact ⟨hs.1, by rw [hs.2]⟩
      · exact ⟨(ih h).1, by rw [(ih h).2]⟩

theorem settleChannel (h : s.SameDram t) (a b c : Nat) :
    (State.settleChannel a b s c).SameDram (State.settleChannel a b t c) := by
  obtain ⟨hp, hpl⟩ := h.settleList a b (Cells.get (fun _ => []) s.mem.pool c)
  obtain ⟨hw, hwl⟩ := hp.settleList a b (Cells.get (fun _ => []) s.mem.waiting c)
  unfold State.settleChannel
  rw [h.pool, h.waiting]
  exact hw.step rfl rfl hw.dram (by dsimp only; rw [hwl, hpl, hw.mem])

theorem settleReqs (h : s.SameDram t) (a b : Nat) : (s.settleReqs a b).SameDram (t.settleReqs a b) := by
  unfold State.settleReqs
  rw [h.pool, h.waiting]
  split
  · exact h
  · exact List.foldl_rel h fun c _ _ _ huv => huv.settleChannel a b c

end State.SameDram

/-! ### The image a copy write reads -/

/-- The state after the supervisor has read DRAM over `[a, a+n)`: the ranks it needs have woken and the requests before
its own have been served. -/
def State.afterRead (s : State) (a n : Nat) : State := (s.wakeRange a (a + n)).settleReqs a (a + n)

theorem State.takeBytes_of_dramFetch (s : State) (a n : Nat) (b : List Byte) (h : s.dramFetch a n = some b) :
    s.takeBytes a n = (s.afterRead a n, b) := by
  have hf : (s.afterRead a n).fetchNow a n = some b :=
    (((s.wakeRange_sameDram a (a + n)).settleReqs a (a + n)).fetchNow a n).trans h
  have hp : s.portRead 6 a n = (s.afterRead a n, some b) := by
    unfold State.portRead
    dsimp only
    rw [← State.afterRead, hf]
  unfold State.takeBytes
  rw [hp]

theorem State.wakeRank_svp (s : State) (i : Nat) : (s.wakeRank i).svp = s.svp := by
  unfold State.wakeRank
  split <;> rfl

theorem State.wakeRank_mram (s : State) (i : Nat) : (s.wakeRank i).mram = s.mram := by
  unfold State.wakeRank
  split <;> rfl

theorem State.wakeRange_keeps {β : Type} (p : State → β) (h : ∀ (t : State) i, p (t.wakeRank i) = p t) (s : State)
    (a b : Nat) : p (s.wakeRange a b) = p s := by
  unfold State.wakeRange
  split
  · rfl
  · refine foldl_keeps p _ (fun t k => ?_) _ s
    split
    · exact h t _
    · rfl

theorem State.afterRead_low (s : State) (a n off : Nat) (h : off < Reg.MEM_RANK_STATUS 0) :
    (s.afterRead a n).reg off = s.reg off := by
  rw [State.reg, State.afterRead, (State.settleReqs_dramOnly _ a (a + n)).regs, ← State.reg]
  exact (s.wakeRange_sameDram a (a + n)).low off h

theorem State.afterRead_svp (s : State) (a n : Nat) : (s.afterRead a n).svp = s.svp :=
  (State.settleReqs_dramOnly _ a (a + n)).svp.trans (State.wakeRange_keeps State.svp State.wakeRank_svp s a (a + n))

theorem State.afterRead_mram (s : State) (a n : Nat) : (s.afterRead a n).mram = s.mram :=
  (State.settleReqs_dramOnly _ a (a + n)).mram.trans (State.wakeRange_keeps State.mram State.wakeRank_mram s a (a + n))

theorem State.afterRead_bootCopy (s : State) (a n : Nat) : (s.afterRead a n).bootCopy = s.bootCopy := by
  rw [State.afterRead, State.settleReqs_bootCopy, State.wakeRange_bootCopy]

theorem State.afterRead_quiet (s : State) (a n : Nat) (h : portsQuiet s) : s.afterRead a n = s := by
  obtain ⟨hpool, hwaiting, hawake⟩ := h
  rw [State.afterRead, s.wakeRange_awake a (a + n) hawake, s.settleReqs_idle a (a + n) hpool hwaiting]

/-- The checks of an image read the straps and the supervisor's kept memory alone (R65). -/
theorem State.integrity_congr {s t : State} (hr : t.reg Reg.SYS_STRAPS = s.reg Reg.SYS_STRAPS) (hm : t.mram = s.mram)
    (b : List Byte) (boot : Bool) : t.integrity b boot = s.integrity b boot := by
  have hkey : t.keySlotOk = s.keySlotOk := by
    funext slot pub
    simp only [State.keySlotOk, State.unprovisioned, hm]
  simp only [State.integrity, State.cascadeId, State.sideStrap, State.fld, hr, hm, hkey]

/-! ### Writing a boot copy -/

theorem State.bootCopy_setBootCopy (s : State) (n k : Nat) (b : List Byte) (hn : n < 3) (hk : k < 3) :
    (s.setBootCopy n b).bootCopy k = if k = n then b else s.bootCopy k := by
  have hn' : n = 0 ∨ n = 1 ∨ n = 2 := by omega
  have hk' : k = 0 ∨ k = 1 ∨ k = 2 := by omega
  rcases hn' with rfl | rfl | rfl <;> rcases hk' with rfl | rfl | rfl <;> rfl

theorem State.setBootCopy_eq (s : State) (n : Nat) (b : List Byte) :
    s.setBootCopy n b = { s with
      mram := (s.setBootCopy n b).mram, flashA := (s.setBootCopy n b).flashA, flashB := (s.setBootCopy n b).flashB } := by
  unfold State.setBootCopy
  split
  · rfl
  · split <;> rfl

theorem State.setBootCopy_regs (s : State) (n : Nat) (b : List Byte) : (s.setBootCopy n b).regs = s.regs := by
  rw [s.setBootCopy_eq]

theorem State.setBootCopy_svp (s : State) (n : Nat) (b : List Byte) : (s.setBootCopy n b).svp = s.svp := by
  rw [s.setBootCopy_eq]

theorem State.setBootCopy_dram (s : State) (n : Nat) (b : List Byte) : (s.setBootCopy n b).dram = s.dram := by
  rw [s.setBootCopy_eq]

theorem State.setBootCopy_reg (s : State) (n : Nat) (b : List Byte) (off : Nat) :
    (s.setBootCopy n b).reg off = s.reg off := by
  rw [State.reg, s.setBootCopy_regs, ← State.reg]

/-! ### The answer of the supervisor -/

/-- `t` differs from `s` in what the host holds and in what has gone out alone. -/
def State.HostOnly (s t : State) : Prop := t = { s with host := t.host, out := t.out }

namespace State.HostOnly

variable {s t u : State}

theorem refl (s : State) : s.HostOnly s := by rfl

theorem trans (h : s.HostOnly t) (h' : t.HostOnly u) : s.HostOnly u := by
  unfold State.HostOnly at *
  rw [h', h]

theorem reg (h : s.HostOnly t) (off : Nat) : t.reg off = s.reg off := by rw [show t = _ from h]; rfl
theorem svp (h : s.HostOnly t) : t.svp = s.svp := by rw [show t = _ from h]
theorem dram (h : s.HostOnly t) : t.dram = s.dram := by rw [show t = _ from h]

end State.HostOnly

theorem State.sendVector_hostOnly (s : State) (v : Nat) : s.HostOnly (s.sendVector v) := by
  unfold State.sendVector
  split <;> rfl

theorem State.irqEdge_hostOnly (before s : State) : s.HostOnly (before.irqEdge s) := by
  have halarm : s.HostOnly (if !before.alarmIrq && s.alarmIrq then s.sendVector 18 else s) := by
    split
    · exact s.sendVector_hostOnly 18
    · exact .refl s
  unfold State.irqEdge
  dsimp only
  split
  · exact halarm.trans (State.sendVector_hostOnly _ 62)
  · exact halarm

theorem State.reg_event (s : State) (k n off : Nat) :
    (s.event k n).reg off = if off = Reg.EVT_CNT k n then s.reg off + 1
      else if off = Reg.INT_STATUS k then s.reg off ||| w32 (2 ^ n) else s.reg off := by
  have hne : Reg.EVT_CNT k n ≠ Reg.INT_STATUS k := by unfold Reg.EVT_CNT Reg.INT_STATUS; omega
  rw [State.event, (State.irqEdge_hostOnly s _).reg, State.reg_setReg]
  split
  · next hcnt => rw [hcnt, State.reg_setReg, if_neg hne]
  · rw [State.reg_setReg]
    split
    · next hint => rw [hint]
    · rfl

theorem State.event_svp (s : State) (k n : Nat) : (s.event k n).svp = s.svp := (State.irqEdge_hostOnly s _).svp
theorem State.event_dram (s : State) (k n : Nat) : (s.event k n).dram = s.dram := (State.irqEdge_hostOnly s _).dram

/-- The data words of a reply: `f i` in `SVP_MBOX_DATA i` for the first `n` of them. -/
def State.putMboxData (s : State) (f : Nat → Word) (n : Nat) : State :=
  (List.range n).foldl (fun t i => t.setReg (Reg.SVP_MBOX_DATA i) (f i)) s

theorem State.putMboxData_succ (s : State) (f : Nat → Word) (n : Nat) :
    s.putMboxData f (n + 1) = (s.putMboxData f n).setReg (Reg.SVP_MBOX_DATA n) (f n) := by
  rw [State.putMboxData, List.range_succ, List.foldl_append]
  rfl

theorem State.putMboxData_svp (s : State) (f : Nat → Word) (n : Nat) : (s.putMboxData f n).svp = s.svp :=
  foldl_keeps State.svp (fun t i => t.setReg (Reg.SVP_MBOX_DATA i) (f i)) (fun _ _ => rfl) _ s

theorem State.putMboxData_dram (s : State) (f : Nat → Word) (n : Nat) : (s.putMboxData f n).dram = s.dram :=
  foldl_keeps State.dram (fun t i => t.setReg (Reg.SVP_MBOX_DATA i) (f i)) (fun _ _ => rfl) _ s

theorem State.reg_putMboxData_ne (s : State) (f : Nat → Word) (n off : Nat)
    (h : ∀ i, i < n → off ≠ Reg.SVP_MBOX_DATA i) : (s.putMboxData f n).reg off = s.reg off := by
  induction n with
  | zero => rfl
  | succ n ih =>
    rw [State.putMboxData_succ, State.reg_setReg, if_neg (h n (by omega)), ih fun i hi => h i (by omega)]

theorem State.reg_putMboxData (s : State) (f : Nat → Word) (n i : Nat) (h : i < n) :
    (s.putMboxData f n).reg (Reg.SVP_MBOX_DATA i) = f i := by
  induction n with
  | zero => omega
  | succ n ih =>
    rw [State.putMboxData_succ, State.reg_setReg]
    split
    · next he =>
      have hin : i = n := by unfold Reg.SVP_MBOX_DATA at he; omega
      rw [hin]
    · next hne => exact ih (by grind)

/-- The data words of a reply are those given and zeros after them (R111). -/
theorem getD_mboxWords (data : List Word) (i : Nat) (h : i < 8) :
    ((data ++ List.replicate 8 0).take 8).getD i 0 = data.getD i 0 := by
  simp only [List.getD_eq_getElem?_getD, List.getElem?_take_of_lt h, List.getElem?_append]
  split
  · rfl
  · next hlen =>
    rw [List.getElem?_eq_none (by omega : data.length ≤ i), List.getElem?_replicate]
    split <;> rfl

/-- The status word of a reply (R111). -/
def State.mboxStatus (s : State) (op code : Nat) : Word :=
  w32 (2 ^ 31 + s.nextSeqOf Reg.SVP_MBOX_STATUS * 2 ^ 16 + code % 256 * 256 + op % 256)

/-- The registers of the supervisor's mailbox as a reply leaves them (R111). -/
def State.mboxFill (s : State) (op code : Nat) (data : List Word) : State :=
  let words := (data ++ List.replicate 8 0).take 8
  ((s.putMboxData (fun i => words.getD i 0) 8).setReg Reg.SVP_MBOX_STATUS (s.mboxStatus op code)).setBit
    Reg.SVP_MBOX_REQ 31 false

/-- The supervisor has no request in hand. -/
def State.endRequest (s : State) : State := { s with svp := { s.svp with req := none } }

theorem State.endRequest_reg (s : State) (off : Nat) : s.endRequest.reg off = s.reg off := by rfl
theorem State.endRequest_svp (s : State) : s.endRequest.svp = { s.svp with req := none } := by rfl
theorem State.endRequest_dram (s : State) : s.endRequest.dram = s.dram := by rfl

/-- The reply of the supervisor before the flag of its completion is raised (R111). -/
def State.mboxPosted (s : State) (op code : Nat) (data : List Word) : State := (s.mboxFill op code data).endRequest

theorem State.mboxReply_eq (s : State) (op code : Nat) (data : List Word) :
    s.mboxReply op code data = ((s.mboxPosted op code data).raise .mboxReply).sendVector 16 := by
  rfl

theorem State.mboxReply_hostOnly (s : State) (op code : Nat) (data : List Word) :
    ((s.mboxPosted op code data).raise .mboxReply).HostOnly (s.mboxReply op code data) := by
  rw [s.mboxReply_eq]
  exact State.sendVector_hostOnly _ 16

theorem State.mboxReply_svp (s : State) (op code : Nat) (data : List Word) :
    (s.mboxReply op code data).svp = { s.svp with req := none } := by
  rw [(s.mboxReply_hostOnly op code data).svp, State.raise, State.event_svp, State.mboxPosted, State.endRequest_svp,
    State.mboxFill, State.setBit_svp, State.setReg_svp, State.putMboxData_svp]

theorem State.mboxReply_dram (s : State) (op code : Nat) (data : List Word) :
    (s.mboxReply op code data).dram = s.dram := by
  rw [(s.mboxReply_hostOnly op code data).dram, State.raise, State.event_dram, State.mboxPosted, State.endRequest_dram,
    State.mboxFill, State.setBit_dram, State.setReg_dram, State.putMboxData_dram]

theorem State.mboxPosted_reg (s : State) (op code : Nat) (data : List Word) (off : Nat) (h : off ≠ Reg.SVP_MBOX_REQ) :
    (s.mboxPosted op code data).reg off = if off = Reg.SVP_MBOX_STATUS then s.mboxStatus op code
      else (s.putMboxData (fun i => ((data ++ List.replicate 8 0).take 8).getD i 0) 8).reg off := by
  rw [State.mboxPosted, State.endRequest_reg, State.mboxFill, State.reg_setBit_ne _ _ _ _ _ h, State.reg_setReg]

theorem State.mboxReply_reg (s : State) (op code : Nat) (data : List Word) (off : Nat)
    (hcnt : off ≠ Reg.EVT_CNT 4 0) (hint : off ≠ Reg.INT_STATUS 4) :
    (s.mboxReply op code data).reg off = (s.mboxPosted op code data).reg off := by
  rw [(s.mboxReply_hostOnly op code data).reg, State.raise]
  change (State.event _ 4 0).reg off = _
  rw [State.reg_event, if_neg hcnt, if_neg hint]

theorem State.mboxReply_status (s : State) (op code : Nat) (data : List Word) :
    (s.mboxReply op code data).reg Reg.SVP_MBOX_STATUS = s.mboxStatus op code := by
  rw [s.mboxReply_reg _ _ _ _ (by decide) (by decide), s.mboxPosted_reg _ _ _ _ (by decide), if_pos rfl]

theorem State.mboxReply_data (s : State) (op code : Nat) (data : List Word) (i : Nat) (h : i < 8) :
    (s.mboxReply op code data).reg (Reg.SVP_MBOX_DATA i) = data.getD i 0 := by
  have hcnt : Reg.SVP_MBOX_DATA i ≠ Reg.EVT_CNT 4 0 := by unfold Reg.SVP_MBOX_DATA Reg.EVT_CNT; omega
  have hint : Reg.SVP_MBOX_DATA i ≠ Reg.INT_STATUS 4 := by unfold Reg.SVP_MBOX_DATA Reg.INT_STATUS; omega
  have hreq : Reg.SVP_MBOX_DATA i ≠ Reg.SVP_MBOX_REQ := by unfold Reg.SVP_MBOX_DATA Reg.SVP_MBOX_REQ; omega
  have hstatus : Reg.SVP_MBOX_DATA i ≠ Reg.SVP_MBOX_STATUS := by unfold Reg.SVP_MBOX_DATA Reg.SVP_MBOX_STATUS; omega
  rw [s.mboxReply_reg _ _ _ _ hcnt hint, s.mboxPosted_reg _ _ _ _ hreq, if_neg hstatus, State.reg_putMboxData _ _ _ _ h,
    getD_mboxWords data i h]

theorem State.mboxReply_req (s : State) (op code : Nat) (data : List Word) :
    (s.mboxReply op code data).bit Reg.SVP_MBOX_REQ 31 = false := by
  rw [State.bit, s.mboxReply_reg _ _ _ _ (by decide) (by decide), State.mboxPosted, State.endRequest_reg, ← State.bit,
    State.mboxFill, State.bit_setBit _ _ _ _ _ (by decide), if_pos rfl]

/-- Posting a reply touches the request, the status and the data words alone. -/
theorem State.mboxPosted_reg_other (s : State) (op code : Nat) (data : List Word) (off : Nat)
    (hreq : off ≠ Reg.SVP_MBOX_REQ) (hstatus : off ≠ Reg.SVP_MBOX_STATUS)
    (hdata : ∀ i, i < 8 → off ≠ Reg.SVP_MBOX_DATA i) :
    (s.mboxPosted op code data).reg off = s.reg off := by
  rw [s.mboxPosted_reg _ _ _ _ hreq, if_neg hstatus, State.reg_putMboxData_ne _ _ _ _ hdata]

theorem State.mboxReply_raised (s : State) (op code : Nat) (data : List Word) :
    raised s (s.mboxReply op code data) .mboxReply := by
  constructor
  · change (s.mboxReply op code data).bit (Reg.INT_STATUS 4) 0 = true
    rw [State.bit, (s.mboxReply_hostOnly op code data).reg, State.raise]
    change ((State.event _ 4 0).reg _).getLsbD 0 = true
    rw [State.reg_event, if_neg (by decide), if_pos rfl, BitVec.getLsbD_or]
    exact Bool.or_true _
  · change (s.mboxReply op code data).reg (Reg.EVT_CNT 4 0) = s.reg (Reg.EVT_CNT 4 0) + 1
    have hdata : ∀ i, i < 8 → Reg.EVT_CNT 4 0 ≠ Reg.SVP_MBOX_DATA i := by
      intro i _
      unfold Reg.SVP_MBOX_DATA Reg.EVT_CNT
      omega
    rw [(s.mboxReply_hostOnly op code data).reg, State.raise]
    change (State.event _ 4 0).reg _ = _
    rw [State.reg_event, if_pos rfl, s.mboxPosted_reg_other _ _ _ _ (by decide) (by decide) hdata]

theorem State.mboxReply_answered (s : State) (op code : Nat) (data : List Word) :
    mboxAnswered s (s.mboxReply op code data) op code data :=
  ⟨s.mboxReply_status op code data, fun i h => s.mboxReply_data op code data i h, s.mboxReply_req op code data,
    s.mboxReply_raised op code data, s.mboxReply_svp op code data⟩

theorem State.mboxReply_keepsRegs (s : State) (op code : Nat) (data : List Word) :
    keepsRegs s (s.mboxReply op code data) mboxRegs := by
  intro off hoff
  simp only [mboxRegs, flagRegs, List.mem_cons, List.mem_append, List.mem_map, List.mem_range, not_or,
    not_exists, not_and, List.not_mem_nil] at hoff
  obtain ⟨hreq, hstatus, hdata, hint, hcnt, _⟩ := hoff
  rw [s.mboxReply_reg _ _ _ _ hcnt hint,
    s.mboxPosted_reg_other _ _ _ _ hreq hstatus fun i h he => hdata i h he.symm]

/-- An answer speaks of the state before it through the sequence number, the counter of the flag and the supervisor. -/
theorem mboxAnswered_congr {s u t : State} {op code : Nat} {data : List Word}
    (hlow : ∀ off, off < Reg.MEM_RANK_STATUS 0 → u.reg off = s.reg off) (hsvp : u.svp = s.svp)
    (h : mboxAnswered u t op code data) : mboxAnswered s t op code data := by
  obtain ⟨hstatus, hdata, hreq, ⟨hbit, hcnt⟩, htsvp⟩ := h
  refine ⟨?_, hdata, hreq, ⟨hbit, ?_⟩, by rw [htsvp, hsvp]⟩
  · rw [hstatus, State.fld, hlow Reg.SVP_MBOX_STATUS (by decide), ← State.fld]
  · rw [hcnt, hlow _ (by decide)]

/-! ### What the loader does -/

theorem exec_imageCheck (s : State) : exec .imageCheck s = execImageCheck s := by rfl
theorem exec_bootLoad (s : State) : exec .bootLoad s = execBootLoad s := by rfl
theorem exec_commitPoint (k : Nat) (s : State) : exec (.commitPoint k) s = execCommitPoint k s := by rfl
theorem exec_mboxReply (ok : Bool) (s : State) : exec (.mboxReply ok) s = execMboxReply ok s := by rfl

theorem execImageCheck_bootCopy (s : State) : ∃ t, execImageCheck s = .next t ∧ t.bootCopy = s.bootCopy := by
  unfold execImageCheck
  split
  · exact ⟨s, rfl, rfl⟩
  · split
    · exact ⟨s, rfl, rfl⟩
    · dsimp only
      split
      · exact ⟨_, rfl, by simp⟩
      · split
        · exact ⟨_, rfl, by simp⟩
        · split
          · exact ⟨_, rfl, by simp⟩
          · exact ⟨_, rfl, by simp⟩

theorem execBootLoad_bootCopy (s : State) : ∃ t, execBootLoad s = .next t ∧ t.bootCopy = s.bootCopy := by
  unfold execBootLoad
  split
  · exact ⟨s, rfl, rfl⟩
  · dsimp only
    split
    · exact ⟨_, rfl, by simp⟩
    · split
      · exact ⟨_, rfl, by simp⟩
      · exact ⟨_, rfl, by simp⟩

theorem execCommitPoint_bootCopy (k : Nat) (s : State) :
    ∃ t, execCommitPoint k s = .next t ∧ t.bootCopy = s.bootCopy := by
  unfold execCommitPoint
  split
  · exact ⟨_, rfl, s.commitPoint_bootCopy k⟩
  · exact ⟨s, rfl, rfl⟩

/-- The image check, the boot load and a commit point leave every boot copy (R66). -/
theorem loaderStep_bootCopy (s : State) (k : Nat) (c : Instr) (hc : c ∈ [Instr.imageCheck, .bootLoad, .commitPoint k]) :
    ∃ t, exec c s = .next t ∧ t.bootCopy = s.bootCopy := by
  simp only [List.mem_cons, List.not_mem_nil, or_false] at hc
  obtain rfl | rfl | rfl := hc
  · rw [exec_imageCheck]
    exact execImageCheck_bootCopy s
  · rw [exec_bootLoad]
    exact execBootLoad_bootCopy s
  · rw [exec_commitPoint]
    exact execCommitPoint_bootCopy k s

/-! ### COPY_WRITE as it completes -/

/-- The state after a copy write has put image `b` at the start of copy `n`, `u` the state after the image was read. -/
def State.copyWritten (u : State) (n : Nat) (b : List Byte) : State :=
  (u.setBootCopy n (b ++ (u.bootCopy n).drop b.length)).mboxReply 3 0 [0]

theorem State.mboxWork_copyWrite (s u : State) (r : MboxReq) (b : List Byte) (hop : r.op = 3)
    (hread : s.takeBytes (mboxAddr r.args) (mboxLen r.args) = (u, b)) (hsound : (u.integrity b true).code = 0) :
    s.mboxWork r = u.copyWritten (r.args.getD 3 0).toNat b := by
  unfold State.mboxWork
  extract_lets arg
  rw [if_pos hop]
  generalize s.takeBytes (mboxAddr r.args) (mboxLen r.args) = x at hread
  subst hread
  exact if_neg (not_not_intro hsound)

theorem execMboxReply_serves (s : State) (r : MboxReq) (hup : s.svpUp = true) (hreq : s.svp.req = some r) :
    execMboxReply true s = .next (s.mboxWork r) := by
  rw [execMboxReply, hreq]
  dsimp only
  rw [hup]
  rfl

theorem exec_copyWrite (s : State) (r : MboxReq) (b : List Byte) (hup : s.svpUp = true) (hreq : s.svp.req = some r)
    (hop : r.op = 3) (hb : s.dramFetch (mboxAddr r.args) (mboxLen r.args) = some b)
    (hsound : (s.integrity b true).code = 0) :
    exec (.mboxReply true) s
      = .next ((s.afterRead (mboxAddr r.args) (mboxLen r.args)).copyWritten (r.args.getD 3 0).toNat b) := by
  have hread := s.takeBytes_of_dramFetch _ _ b hb
  have hcheck : ((s.afterRead (mboxAddr r.args) (mboxLen r.args)).integrity b true).code = 0 := by
    rw [State.integrity_congr (s.afterRead_low _ _ _ (by decide)) (s.afterRead_mram _ _), hsound]
  rw [exec_mboxReply, execMboxReply_serves s r hup hreq, State.mboxWork_copyWrite s _ r b hop hread hcheck]

theorem State.copyWritten_bootCopy (u : State) (n k : Nat) (b : List Byte) (hn : n < 3) (hk : k < 3) :
    (u.copyWritten n b).bootCopy k = if k = n then b ++ (u.bootCopy n).drop b.length else u.bootCopy k := by
  rw [State.copyWritten, State.mboxReply_bootCopy, State.bootCopy_setBootCopy _ _ _ _ hn hk]

theorem State.copyWritten_dram (u : State) (n : Nat) (b : List Byte) : (u.copyWritten n b).dram = u.dram := by
  rw [State.copyWritten, State.mboxReply_dram, State.setBootCopy_dram]

theorem State.copyWritten_keepsRegs (u : State) (n : Nat) (b : List Byte) : keepsRegs u (u.copyWritten n b) mboxRegs :=
  fun off hoff => (State.mboxReply_keepsRegs _ 3 0 [0] off hoff).trans (u.setBootCopy_reg _ _ off)

theorem State.copyWritten_answered (u : State) (n : Nat) (b : List Byte) : mboxAnswered u (u.copyWritten n b) 3 0 [0] :=
  mboxAnswered_congr (fun off _ => u.setBootCopy_reg _ _ off) (u.setBootCopy_svp _ _) (State.mboxReply_answered _ 3 0 [0])

/-- Settles O60: no function that the image check, the boot load or a commit point runs sets a boot copy; a copy write
reads its image from memory, which changes no register it answers from, and then sets the copy it names alone. -/
theorem loaderNeverWritesBootCopies : Obligations.LoaderNeverWritesBootCopies := by
  unfold Obligations.LoaderNeverWritesBootCopies
  intro s
  constructor
  · intro k c hc
    obtain ⟨t, ht, hcopies⟩ := loaderStep_bootCopy s k c hc
    exact ⟨t, ht, fun n _ => congrFun hcopies n⟩
  · intro a b hup hreq hn hb hsound
    have hread := congrFun (s.afterRead_bootCopy (mboxAddr a) (mboxLen a))
    refine ⟨_, exec_copyWrite s { op := 3, args := a } b hup hreq rfl hb hsound, ?_, ?_, fun k hk hne => ?_,
      fun hquiet => ?_⟩
    · exact mboxAnswered_congr (fun off => s.afterRead_low _ _ off) (s.afterRead_svp _ _) (State.copyWritten_answered ..)
    · rw [State.copyWritten_bootCopy _ _ _ _ hn hn, if_pos rfl, hread]
    · rw [State.copyWritten_bootCopy _ _ _ _ hn hk, if_neg hne, hread]
    · rw [s.afterRead_quiet _ _ hquiet]
      exact ⟨s.copyWritten_keepsRegs _ b, s.copyWritten_dram _ b⟩

end Sys2Proof.Machine
end

section
/-!
X requests of the mailbox without X access (O59). The write reaches the mailbox on an active and a standby alike, as the
mailbox is no mirrored state; the request is taken, its refusal recorded, and the reply follows. For each of these three
steps the lemmas say which registers it sets and that it leaves the stores and the loader.
-/
namespace Sys2Proof.Machine

/-! ### The stores and the loader -/

/-- What outlives a mailbox reply: MRAM, DRAM and the loader. -/
def State.stores (s : State) := (s.mram, s.dram, s.ld)

theorem State.setReg_stores (s : State) (off : Nat) (v : Word) : (s.setReg off v).stores = s.stores := (rfl)

theorem State.setBit_stores (s : State) (off n : Nat) (b : Bool) : (s.setBit off n b).stores = s.stores := (rfl)

theorem State.endRequest_stores (s : State) : s.endRequest.stores = s.stores := (rfl)

theorem State.HostOnly.stores {s t : State} (h : s.HostOnly t) : t.stores = s.stores := by
  rw [show t = _ from h]
  rfl

theorem State.event_stores (s : State) (k n : Nat) : (s.event k n).stores = s.stores := by
  rw [State.event, (State.irqEdge_hostOnly s _).stores, State.setReg_stores, State.setReg_stores]

theorem State.putMboxData_stores (s : State) (f : Nat → Word) (n : Nat) : (s.putMboxData f n).stores = s.stores :=
  foldl_keeps State.stores (fun t i => t.setReg (Reg.SVP_MBOX_DATA i) (f i)) (fun t i => t.setReg_stores _ (f i)) _ s

theorem State.mboxReply_stores (s : State) (op code : Nat) (data : List Word) :
    (s.mboxReply op code data).stores = s.stores := by
  rw [(s.mboxReply_hostOnly op code data).stores, State.raise, State.event_stores, State.mboxPosted,
    State.endRequest_stores, State.mboxFill, State.setBit_stores, State.setReg_stores, State.putMboxData_stores]

/-! ### An event of a flag -/

theorem State.raise_keepsRegs (s : State) (f : Flag) : keepsRegs s (s.raise f) (flagRegs f) := by
  intro off hoff
  simp only [flagRegs, List.mem_cons, List.not_mem_nil, or_false, not_or] at hoff
  obtain ⟨hint, hcnt⟩ := hoff
  rw [State.raise, State.reg_event, if_neg hcnt, if_neg hint]

theorem State.event_bit (s : State) (k n : Nat) (h : n < 32) : (s.event k n).bit (Reg.INT_STATUS k) n = true := by
  have hne : Reg.INT_STATUS k ≠ Reg.EVT_CNT k n := by unfold Reg.EVT_CNT Reg.INT_STATUS; omega
  rw [State.bit, State.reg_event, if_neg hne, if_pos rfl, BitVec.getLsbD_or, w32, BitVec.getLsbD_ofNat,
    Nat.testBit_two_pow_self]
  simp [h]

theorem State.raise_raised (s : State) (f : Flag) (h : f.place.2 < 32) : raised s (s.raise f) f := by
  constructor
  · exact s.event_bit _ _ h
  · rw [State.raise, State.reg_event, if_pos rfl]

/-- Whether a flag has been raised shows in its own two registers alone. -/
theorem raised_congr {s s' t t' : State} {f : Flag} (hs : ∀ off ∈ flagRegs f, s'.reg off = s.reg off)
    (ht : ∀ off ∈ flagRegs f, t'.reg off = t.reg off) (h : raised s t f) : raised s' t' f := by
  obtain ⟨hbit, hcnt⟩ := h
  constructor
  · rw [State.bit, ht _ (by simp [flagRegs]), ← State.bit, hbit]
  · rw [ht _ (by simp [flagRegs]), hs _ (by simp [flagRegs]), hcnt]

theorem keepsRegs_trans {s t u : State} {l l' : List Nat} (h : keepsRegs s t l) (h' : keepsRegs t u l') :
    keepsRegs s u (l ++ l') := by
  intro off hoff
  rw [List.mem_append, not_or] at hoff
  obtain ⟨hl, hl'⟩ := hoff
  rw [h' off hl', h off hl]

/-! ### A refused X access -/

/-- A refused X access as its address stands in SYS.X_REFUSED_ADDR, its flag not yet raised. -/
def State.logRefused (s : State) (source off : Nat) : State :=
  s.setReg Reg.SYS_X_REFUSED_ADDR (w32 (2 ^ 31 + source % 8 * 2 ^ 28 + off % 2 ^ 28))

theorem State.refuseX_write (s : State) (source off : Nat) :
    s.refuseX source true off = (s.logRefused source off).raise .xRefused := (rfl)

theorem State.refuseX_addr (s : State) (source off : Nat) :
    (s.refuseX source true off).reg Reg.SYS_X_REFUSED_ADDR = w32 (2 ^ 31 + source % 8 * 2 ^ 28 + off % 2 ^ 28) := by
  rw [State.refuseX_write, State.raise_keepsRegs _ _ _ (by decide), State.logRefused, State.reg_setReg, if_pos rfl]

theorem State.logRefused_keepsRegs (s : State) (source off : Nat) :
    keepsRegs s (s.logRefused source off) [Reg.SYS_X_REFUSED_ADDR] := by
  intro k hk
  rw [State.logRefused, State.reg_setReg, if_neg (List.ne_of_not_mem_cons hk)]

theorem State.refuseX_keepsRegs (s : State) (source off : Nat) :
    keepsRegs s (s.refuseX source true off) (Reg.SYS_X_REFUSED_ADDR :: flagRegs .xRefused) := by
  rw [State.refuseX_write]
  exact keepsRegs_trans (s.logRefused_keepsRegs source off) (State.raise_keepsRegs _ .xRefused)

theorem State.refuseX_raised (s : State) (source off : Nat) : raised s (s.refuseX source true off) .xRefused := by
  rw [State.refuseX_write]
  refine raised_congr (fun k hk => (s.logRefused_keepsRegs source off k ?_).symm) (fun _ _ => rfl)
    (State.raise_raised _ .xRefused (by decide))
  revert k
  decide

theorem State.refuseX_svp (s : State) (source off : Nat) : (s.refuseX source true off).svp = s.svp := by
  rw [State.refuseX_write, State.raise, State.event_svp, State.logRefused, State.setReg_svp]

theorem State.refuseX_stores (s : State) (source off : Nat) : (s.refuseX source true off).stores = s.stores := by
  rw [State.refuseX_write, State.raise, State.event_stores, State.logRefused, State.setReg_stores]

/-! ### The request and its refusal -/

/-- The mailbox with the request `op` in progress, its arguments as they stand (R108). -/
def State.mboxTaken (s : State) (op : Nat) : State :=
  { s.setReg Reg.SVP_MBOX_REQ (w32 (2 ^ 31 + op % 256)) with
    svp := { s.svp with req := some { op := op, args := (List.range 8).map fun i => s.reg (Reg.SVP_MBOX_ARG i) } } }

theorem State.mboxTaken_keepsRegs (s : State) (op : Nat) : keepsRegs s (s.mboxTaken op) [Reg.SVP_MBOX_REQ] := by
  intro off hoff
  exact (s.reg_setReg _ _ _).trans (if_neg (List.ne_of_not_mem_cons hoff))

theorem State.mboxTaken_stores (s : State) (op : Nat) : (s.mboxTaken op).stores = s.stores := (rfl)

/-- The request `op` taken and its refusal recorded with the port and the opcode (R113), the reply yet to come. -/
def State.mboxRefused (s : State) (src op : Nat) : State := (s.mboxTaken op).refuseX src true op

theorem State.mboxRefused_keepsRegs (s : State) (src op : Nat) :
    keepsRegs s (s.mboxRefused src op) (Reg.SVP_MBOX_REQ :: Reg.SYS_X_REFUSED_ADDR :: flagRegs .xRefused) :=
  keepsRegs_trans (s.mboxTaken_keepsRegs op) (State.refuseX_keepsRegs _ src op)

theorem State.mboxRefused_svp (s : State) (src op : Nat) : (s.mboxRefused src op).svp = (s.mboxTaken op).svp :=
  State.refuseX_svp _ src op

theorem State.mboxRefused_raised (s : State) (src op : Nat) : raised s (s.mboxRefused src op) .xRefused := by
  refine raised_congr (fun k hk => (s.mboxTaken_keepsRegs op k ?_).symm) (fun _ _ => rfl)
    (State.refuseX_raised _ src op)
  revert k
  decide

theorem State.mboxRefused_stores (s : State) (src op : Nat) : (s.mboxRefused src op).stores = s.stores := by
  rw [State.mboxRefused, State.refuseX_stores, State.mboxTaken_stores]

/-- R113: an X request that the mailbox takes without X access is answered X_REQUIRED (3) at once. -/
theorem State.mboxSubmit_refusesX (s : State) (src op : Nat) (hopen : mboxOpen s) (hx : s.xOpen = false)
    (hop : mboxX op = true) : s.mboxSubmit src op = (s.mboxRefused src op).mboxReply op 3 [] := by
  obtain ⟨hup, hreq, hstatus⟩ := hopen
  have htaken : ¬ (!s.svpUp || s.bit Reg.SVP_MBOX_REQ 31 || s.bit Reg.SVP_MBOX_STATUS 31) = true := by
    simp [hup, hreq, hstatus]
  have hrefused : (mboxX op && !s.xOpen) = true := by simp [hop, hx]
  rw [State.mboxSubmit, if_neg htaken]
  exact if_pos hrefused

/-- The reply to the refused request answers the request as it came: taking it and recording its refusal touch neither
the status word nor the counter of MBOX_REPLY. -/
theorem State.mboxRefused_answered (s : State) (src op : Nat) :
    mboxAnswered s ((s.mboxRefused src op).mboxReply op 3 []) op 3 [] := by
  have hkeep := s.mboxRefused_keepsRegs src op
  obtain ⟨hstatus, hdata, hreq, hraised, hsvp⟩ := (s.mboxRefused src op).mboxReply_answered op 3 []
  refine ⟨?_, hdata, hreq, raised_congr (fun k hk => (hkeep k ?_).symm) (fun _ _ => rfl) hraised, ?_⟩
  · rw [hstatus, State.fld, hkeep _ (by decide), ← State.fld]
  · revert k
    decide
  · rw [hsvp, State.mboxRefused_svp]
    rfl

theorem State.mboxRefused_replied_raised (s : State) (src op : Nat) :
    raised s ((s.mboxRefused src op).mboxReply op 3 []) .xRefused := by
  refine raised_congr (fun _ _ => rfl) (fun k hk => State.mboxReply_keepsRegs _ op 3 [] k ?_)
    (s.mboxRefused_raised src op)
  revert k
  decide

theorem State.mboxRefused_replied_addr (s : State) (src op : Nat) :
    ((s.mboxRefused src op).mboxReply op 3 []).reg Reg.SYS_X_REFUSED_ADDR
      = w32 (2 ^ 31 + src % 8 * 2 ^ 28 + op % 2 ^ 28) := by
  rw [State.mboxReply_keepsRegs _ op 3 [] _ (by decide), State.mboxRefused, State.refuseX_addr]

theorem State.mboxRefused_replied_keepsRegs (s : State) (src op : Nat) :
    keepsRegs s ((s.mboxRefused src op).mboxReply op 3 [])
      (Reg.SYS_X_REFUSED_ADDR :: flagRegs .xRefused ++ mboxRegs) := by
  intro off hoff
  have hboth := keepsRegs_trans (s.mboxRefused_keepsRegs src op) (State.mboxReply_keepsRegs _ op 3 [])
  refine hboth off (mt (fun hmem => ?_) hoff)
  rcases List.mem_cons.mp hmem with hreq | hrest
  · rw [hreq]
    decide
  · exact hrest

theorem State.mboxRefused_replied_stores (s : State) (src op : Nat) :
    ((s.mboxRefused src op).mboxReply op 3 []).stores = s.stores := by
  rw [State.mboxReply_stores, State.mboxRefused_stores]

/-! ### The write of an X request -/

theorem State.mboxWrite_submits (s : State) (p : Port) (op : Nat) (h : s.access p = true) :
    s.mboxWrite p op = .next (s.mboxSubmit (portCode p) (op % 256)) := by
  have hlocal : mirroredOff Reg.SVP_MBOX_REQ = false := by decide
  simp [State.mboxWrite, State.hostWrite, h, hlocal]

theorem exec_keyProvision (p : Port) (s : State) : exec (.keyProvision p) s = s.mboxWrite p 5 := by rfl
theorem exec_keyRevoke (p : Port) (s : State) : exec (.keyRevoke p) s = s.mboxWrite p 6 := by rfl
theorem exec_genFloorSet (p : Port) (s : State) : exec (.genFloorSet p) s = s.mboxWrite p 8 := by rfl
theorem exec_patchInstall (p : Port) (s : State) : exec (.patchInstall p) s = s.mboxWrite p 9 := by rfl
theorem exec_patchRemove (p : Port) (s : State) : exec (.patchRemove p) s = s.mboxWrite p 10 := by rfl

/-- Each of the five commands writes its opcode, one of the X requests of R110, to MBOX_REQ. -/
theorem exec_xRequest (p : Port) (s : State) (e : Instr × Nat)
    (he : e ∈ [(Instr.keyProvision p, 5), (.keyRevoke p, 6), (.genFloorSet p, 8), (.patchInstall p, 9),
      (.patchRemove p, 10)]) :
    exec e.1 s = s.mboxWrite p e.2 ∧ mboxX e.2 = true := by
  simp only [List.mem_cons, List.not_mem_nil, or_false] at he
  rcases he with rfl | rfl | rfl | rfl | rfl
  · exact ⟨exec_keyProvision p s, rfl⟩
  · exact ⟨exec_keyRevoke p s, rfl⟩
  · exact ⟨exec_genFloorSet p s, rfl⟩
  · exact ⟨exec_patchInstall p s, rfl⟩
  · exact ⟨exec_patchRemove p s, rfl⟩

theorem mboxX_lt {op : Nat} (h : mboxX op = true) : op < 256 := by
  simp only [mboxX, List.contains_iff_mem, List.mem_cons, List.not_mem_nil, or_false] at h
  omega

theorem portCode_lt (p : Port) : portCode p < 8 := by cases p <;> decide

/-- Settles O59: the write reaches the mailbox, which takes the request, records its refusal and answers X_REQUIRED. -/
theorem xRequestsNeedXAccess : Obligations.XRequestsNeedXAccess := by
  unfold Obligations.XRequestsNeedXAccess
  intro s p haccess hopen hx e he
  obtain ⟨hexec, hop⟩ := exec_xRequest p s e he
  have hlt := mboxX_lt hop
  obtain ⟨hmram, hrest⟩ := Prod.mk.inj (s.mboxRefused_replied_stores (portCode p) e.2)
  obtain ⟨hdram, hld⟩ := Prod.mk.inj hrest
  refine ⟨(s.mboxRefused (portCode p) e.2).mboxReply e.2 3 [], ?_, s.mboxRefused_answered _ _, ?_,
    s.mboxRefused_replied_raised _ _, s.mboxRefused_replied_keepsRegs _ _, hmram, hdram, hld⟩
  · rw [hexec, s.mboxWrite_submits p e.2 haccess, Nat.mod_eq_of_lt hlt, s.mboxSubmit_refusesX _ _ hopen hx hop]
  · have hop28 : e.2 % 2 ^ 28 = e.2 := Nat.mod_eq_of_lt (by omega)
    rw [s.mboxRefused_replied_addr, Nat.mod_eq_of_lt (portCode_lt p), hop28]

end Sys2Proof.Machine
end

section
/-!
Command queues (O29, O58). First the layer both share: register words that an update leaves, the bytes of an event record
in DRAM, the event ring, and what each step of a queue's state does to STATE, HEAD, TAIL and RUN; then the halt of a
queue and what its HALTED record changes.
-/
namespace Sys2Proof.Machine

/-! ### Registers that an update leaves -/

theorem keepsRegs_mono {s t : State} {l l' : List Nat} (h : keepsRegs s t l) (hl : l ⊆ l') : keepsRegs s t l' :=
  fun off hoff => h off fun hmem => hoff (hl hmem)

theorem State.setReg_keepsRegs (s : State) (k : Nat) (v : Word) : keepsRegs s (s.setReg k v) [k] := by
  intro off hoff
  rw [State.reg_setReg, if_neg (List.ne_of_not_mem_cons hoff)]

theorem State.setFld_keepsRegs (s : State) (k hi lo v : Nat) : keepsRegs s (s.setFld k hi lo v) [k] :=
  s.setReg_keepsRegs k _

theorem State.setBit_keepsRegs (s : State) (k n : Nat) (b : Bool) : keepsRegs s (s.setBit k n b) [k] :=
  s.setFld_keepsRegs k n n _

theorem State.fld_congr {s t : State} {off : Nat} (h : t.reg off = s.reg off) (hi lo : Nat) :
    t.fld off hi lo = s.fld off hi lo := by
  rw [State.fld, State.fld, h]

theorem State.bit_congr {s t : State} {off : Nat} (h : t.reg off = s.reg off) (n : Nat) : t.bit off n = s.bit off n := by
  rw [State.bit, State.bit, h]

theorem State.fld_lt (s : State) (off hi lo : Nat) : s.fld off hi lo < 2 ^ (hi - lo + 1) :=
  Nat.mod_lt _ (Nat.two_pow_pos _)

/-- A bit written as it reads leaves its word. -/
theorem wput_getLsbD (w : Word) (n : Nat) (hn : n < 32) : wput w n n (if w.getLsbD n then 1 else 0) = w := by
  refine BitVec.eq_of_getLsbD_eq fun i _ => ?_
  rw [getLsbD_wput w n n _ i hn (Nat.le_refl n)]
  split
  · next h =>
    obtain rfl : i = n := by omega
    cases w.getLsbD i <;> simp
  · rfl

/-- A bit written as it reads leaves every register. -/
theorem State.setBit_same (s : State) (k n : Nat) (hn : n < 32) : keepsRegs s (s.setBit k n (s.bit k n)) [] := by
  intro off _
  rw [State.setBit, State.reg_setFld]
  split
  · next h => rw [h, State.bit, wput_getLsbD _ n hn]
  · rfl

/-! ### Bytes in DRAM -/

theorem leBytes_length (n v : Nat) : (leBytes n v).length = n := by
  induction n generalizing v with
  | zero => rfl
  | succ n ih => rw [leBytes, List.length_cons, ih]

/-- An event record has 32 bytes (R154). -/
theorem EvRec.length_bytes (r : EvRec) (wr : Nat) : (r.bytes wr).length = 32 := by
  simp only [EvRec.bytes, List.length_append, leBytes_length]

theorem get_dramPut (l : List Byte) (m : List Host.Cell) (a b : Nat) :
    Cells.get (fun _ => 0) (dramPut m a l) b
      = if a ≤ b ∧ b < a + l.length then l.getD (b - a) 0 else Cells.get (fun _ => 0) m b := by
  induction l generalizing m a with
  | nil => rw [dramPut, if_neg (by simp)]
  | cons x l ih =>
    rw [dramPut, ih, Cells.get_put, List.length_cons]
    by_cases hab : b = a
    · rw [hab, if_neg (by omega), if_pos rfl, if_pos (by omega), Nat.sub_self, List.getD_cons_zero]
    · by_cases hlt : a ≤ b ∧ b < a + (l.length + 1)
      · obtain ⟨k, rfl⟩ : ∃ k, b = a + 1 + k := ⟨b - (a + 1), by omega⟩
        rw [if_pos (by omega), if_pos hlt, Nat.add_sub_cancel_left, Nat.add_assoc, Nat.add_sub_cancel_left, Nat.add_comm 1,
          List.getD_cons_succ]
      · rw [if_neg (by omega), if_neg hab, if_neg hlt]

theorem State.dramByte_dramWrite (s : State) (a : Nat) (l : List Byte) (b : Nat) :
    (s.dramWrite a l).dramByte b = if a ≤ b ∧ b < a + l.length then l.getD (b - a) 0 else s.dramByte b :=
  get_dramPut l s.dram a b

/-- Bytes just written read as written. -/
theorem State.dramRead_dramWrite (s : State) (a : Nat) (l : List Byte) : (s.dramWrite a l).dramRead a l.length = l := by
  refine List.ext_getElem (by simp [State.dramRead]) fun i _ hi => ?_
  simp [State.dramRead, State.dramByte_dramWrite, hi]

theorem State.dramWrite_keepsDram (s : State) (a : Nat) (l : List Byte) : keepsDram s (s.dramWrite a l) a l.length := by
  intro b hb
  rw [State.dramByte_dramWrite, if_neg (by omega)]

theorem State.dramByte_congr {s t : State} (h : t.dram = s.dram) (b : Nat) : t.dramByte b = s.dramByte b := by
  rw [State.dramByte, State.dramByte, h]

theorem State.dramRead_congr {s t : State} (h : t.dram = s.dram) (a n : Nat) : t.dramRead a n = s.dramRead a n := by
  simp only [State.dramRead, State.dramByte_congr h]

/-- Installed memory with every rank in service takes bytes as they are. -/
theorem State.storeNow_dram (s : State) (a : Nat) (l : List Byte) (hdead : s.mem.dead = [])
    (hsize : a + l.length ≤ s.dramSize) : (s.storeNow a l).dram = (s.dramWrite a l).dram := by
  unfold State.storeNow
  split
  · next h => rw [List.isEmpty_iff.mp h, State.dramWrite, dramPut]
  · simp [hdead, hsize]

theorem State.dramStore_dramOnly (s : State) (a : Nat) (l : List Byte) (hquiet : portsQuiet s) :
    s.DramOnly (s.dramStore a l) := by
  obtain ⟨hpool, hwaiting, hawake⟩ := hquiet
  rw [s.dramStore_idle a l hpool hwaiting hawake]
  exact s.storeNow_dramOnly a l

theorem State.dramStore_dram (s : State) (a : Nat) (l : List Byte) (hquiet : portsQuiet s) (hdead : s.mem.dead = [])
    (hsize : a + l.length ≤ s.dramSize) : (s.dramStore a l).dram = (s.dramWrite a l).dram := by
  obtain ⟨hpool, hwaiting, hawake⟩ := hquiet
  rw [s.dramStore_idle a l hpool hwaiting hawake, s.storeNow_dram a l hdead hsize]

/-- A store may wake ranks and serve requests: of the registers it touches none below the RANK_STATUS words. -/
theorem State.dramStore_low (s : State) (a : Nat) (l : List Byte) (off : Nat) (h : off < Reg.MEM_RANK_STATUS 0) :
    (s.dramStore a l).reg off = s.reg off := by
  unfold State.dramStore
  split
  · rfl
  · rw [State.reg, (State.storeNow_dramOnly ..).regs, ← State.reg]
    exact s.afterRead_low a l.length off h

/-- A read by a quiet port that meets no poison changes nothing. -/
theorem State.portRead_quiet (s : State) (port a n : Nat) (b : List Byte) (hquiet : portsQuiet s)
    (hb : s.dramFetch a n = some b) : s.portRead port a n = (s, some b) := by
  have hread : (s.wakeRange a (a + n)).settleReqs a (a + n) = s := s.afterRead_quiet a n hquiet
  obtain ⟨hpool, hwaiting, -⟩ := hquiet
  rw [s.dramFetch_idle a n hpool hwaiting] at hb
  unfold State.portRead
  dsimp only
  rw [hread, hb]

/-! ### The event ring -/

/-- A slot of a ring lies within the ring. -/
theorem ringSlot_le (w : Word) (i : Nat) : ringSlot w i + 32 ≤ wbits w 25 0 * 4096 + 32 * ringSize w := by
  have hi : i % ringSize w < ringSize w := Nat.mod_lt i (Nat.two_pow_pos _)
  unfold ringSlot
  omega

theorem State.dramSize_of_ringOk (s : State) (w : Word) (i : Nat) (h : s.ringOk w = true) :
    ringSlot w i + 32 ≤ s.dramSize := by
  rw [State.ringOk, State.hostRange, Bool.and_eq_true, decide_eq_true_eq] at h
  exact Nat.le_trans (ringSlot_le w i) h.1

theorem State.ringOk_congr {s t : State} (hspace : t.reg Reg.MEM_SPACE = s.reg Reg.MEM_SPACE) (hld : t.ld = s.ld)
    (w : Word) : t.ringOk w = s.ringOk w := by
  have hregions : t.regions = s.regions := by rw [State.regions, State.regions, State.body, State.body, hld]
  have hsize : t.dramSize = s.dramSize := by simp only [State.dramSize, State.hotBytes, State.fld_congr hspace]
  rw [State.ringOk, State.hostRange, hregions, hsize, ← State.hostRange, ← State.ringOk]

/-- Record `r` stands in the next slot of event ring `q`, WR past it; the vector of the ring is yet to be sent. -/
def State.evPut (s : State) (q : Nat) (r : EvRec) : State :=
  let wr := s.fld (Reg.CMD_EV_PTR q) 31 16
  (s.dramStore (ringSlot (s.reg (Reg.CMD_EV_RING q)) wr) (r.bytes wr)).setFld (Reg.CMD_EV_PTR q) 31 16 (wr + 1)

/-- Event ring `q` is full (R156): a record is lost and counted, and the queue will wait. -/
def State.evLost (s : State) (q : Nat) : State :=
  let u := (s.addSat (Reg.CMD_Q_CTRL q) 7 0 1).raise .eventRingFull
  u.setQueue q { u.queue q with ringFull := true }

theorem State.evWrite_outside (s : State) (q : Nat) (r : EvRec) (hok : s.ringOk (s.reg (Reg.CMD_EV_RING q)) = false) :
    s.evWrite q r = s := by
  simp [State.evWrite, hok]

theorem State.evWrite_full (s : State) (q : Nat) (r : EvRec) (hok : s.ringOk (s.reg (Reg.CMD_EV_RING q)) = true)
    (hfull : ringSize (s.reg (Reg.CMD_EV_RING q))
      ≤ (s.fld (Reg.CMD_EV_PTR q) 31 16 + 65536 - s.fld (Reg.CMD_EV_PTR q) 15 0) % 65536) :
    s.evWrite q r = if (s.evLost q).qState q = 1 then (s.evLost q).setQState q 2 else s.evLost q := by
  unfold State.evWrite
  dsimp only
  rw [hok, if_neg (by decide), if_pos hfull, ← State.evLost]

theorem State.evWrite_room (s : State) (q : Nat) (r : EvRec) (hok : s.ringOk (s.reg (Reg.CMD_EV_RING q)) = true)
    (hroom : (s.fld (Reg.CMD_EV_PTR q) 31 16 + 65536 - s.fld (Reg.CMD_EV_PTR q) 15 0) % 65536
      < ringSize (s.reg (Reg.CMD_EV_RING q))) :
    (s.evPut q r).HostOnly (s.evWrite q r) := by
  simp only [State.evWrite, hok, Nat.not_le.mpr hroom, Bool.not_true, Bool.false_eq_true, if_false]
  split
  · exact State.sendVector_hostOnly _ q
  · exact .refl _

theorem State.evLost_keepsRegs (s : State) (q : Nat) :
    keepsRegs s (s.evLost q) (Reg.CMD_Q_CTRL q :: flagRegs .eventRingFull) :=
  keepsRegs_trans (s.setFld_keepsRegs (Reg.CMD_Q_CTRL q) 7 0 _) (State.raise_keepsRegs _ .eventRingFull)

/-- STATUS and TAIL of a queue are none of the registers that a record written into an event ring may change. -/
theorem queueReg_apart (q : Nat) (h : q < 16) : ∀ off ∈ [Reg.CMD_Q_STATUS q, Reg.CMD_Q_TAIL q],
    off < Reg.MEM_RANK_STATUS 0 ∧ off ≠ Reg.CMD_EV_PTR q ∧ off ∉ Reg.CMD_Q_CTRL q :: flagRegs .eventRingFull := by
  revert q
  decide

/-- Whatever becomes of its record, a queue that does not run keeps STATUS and TAIL. -/
theorem State.evWrite_queueReg (s : State) (q : Nat) (r : EvRec) (hq : q < 16) (hstate : s.qState q ≠ 1) (off : Nat)
    (hoff : off ∈ [Reg.CMD_Q_STATUS q, Reg.CMD_Q_TAIL q]) : (s.evWrite q r).reg off = s.reg off := by
  obtain ⟨hlow, hptr, hlost⟩ := queueReg_apart q hq off hoff
  by_cases hok : s.ringOk (s.reg (Reg.CMD_EV_RING q)) = true
  · by_cases hroom : (s.fld (Reg.CMD_EV_PTR q) 31 16 + 65536 - s.fld (Reg.CMD_EV_PTR q) 15 0) % 65536
      < ringSize (s.reg (Reg.CMD_EV_RING q))
    · rw [(s.evWrite_room q r hok hroom).reg, State.evPut, State.reg_setFld_ne _ _ _ _ _ _ hptr, s.dramStore_low _ _ _ hlow]
    · have hstatus := s.evLost_keepsRegs q _ (queueReg_apart q hq (Reg.CMD_Q_STATUS q) (by simp)).2.2
      have hstate' : (s.evLost q).qState q ≠ 1 := by rwa [State.qState, State.fld_congr hstatus, ← State.qState]
      rw [s.evWrite_full q r hok (by omega), if_neg hstate', s.evLost_keepsRegs q off hlost]
  · rw [s.evWrite_outside q r (by simpa using hok)]

theorem State.evPut_keepsRegs (s : State) (q : Nat) (r : EvRec) (hquiet : portsQuiet s) :
    keepsRegs s (s.evPut q r) [Reg.CMD_EV_PTR q] := by
  intro off hoff
  rw [State.evPut, State.setFld_keepsRegs _ _ _ _ _ off hoff, State.reg, (s.dramStore_dramOnly _ _ hquiet).regs,
    ← State.reg]

/-- R154, R157: a ring that takes a record has it in its next slot, and nothing else in DRAM changes. -/
theorem State.evPut_written (s : State) (q : Nat) (r : EvRec) (h : ringTakes s q) : evWritten s (s.evPut q r) q r := by
  obtain ⟨hok, hdead, hquiet, -⟩ := h
  have hslot := s.dramSize_of_ringOk _ (s.fld (Reg.CMD_EV_PTR q) 31 16) hok
  have hdram : (s.evPut q r).dram = (s.dramWrite (ringSlot (s.reg (Reg.CMD_EV_RING q)) (s.fld (Reg.CMD_EV_PTR q) 31 16))
      (r.bytes (s.fld (Reg.CMD_EV_PTR q) 31 16))).dram :=
    s.dramStore_dram _ _ hquiet hdead (by rwa [r.length_bytes])
  refine ⟨?_, fun b hb => ?_, ?_, ?_⟩
  · have hread := s.dramRead_dramWrite (ringSlot (s.reg (Reg.CMD_EV_RING q)) (s.fld (Reg.CMD_EV_PTR q) 31 16))
      (r.bytes (s.fld (Reg.CMD_EV_PTR q) 31 16))
    rwa [r.length_bytes, ← State.dramRead_congr hdram] at hread
  · rw [State.dramByte_congr hdram]
    exact s.dramWrite_keepsDram _ _ b (by rwa [r.length_bytes])
  · exact State.fld_setFld_same _ _ _ _ _ (by omega) (by omega)
  · rw [State.evPut, State.fld_setFld_other _ _ _ _ _ _ _ (by omega) (by omega) (by omega) (by omega), State.fld, State.reg,
      (s.dramStore_dramOnly _ _ hquiet).regs, ← State.reg, ← State.fld]

theorem evWritten_congr {s s' t t' : State} {q : Nat} {r : EvRec}
    (hring : s'.reg (Reg.CMD_EV_RING q) = s.reg (Reg.CMD_EV_RING q))
    (hptr : s'.reg (Reg.CMD_EV_PTR q) = s.reg (Reg.CMD_EV_PTR q)) (hdram : s'.dram = s.dram)
    (hptr' : t'.reg (Reg.CMD_EV_PTR q) = t.reg (Reg.CMD_EV_PTR q)) (hdram' : t'.dram = t.dram)
    (h : evWritten s t q r) : evWritten s' t' q r := by
  simpa only [evWritten, keepsDram, hring, State.fld_congr hptr, State.fld_congr hptr', State.dramByte_congr hdram,
    State.dramByte_congr hdram', State.dramRead_congr hdram'] using h

theorem State.evWrite_written (s : State) (q : Nat) (r : EvRec) (h : ringTakes s q) : evWritten s (s.evWrite q r) q r := by
  have hput := s.evPut_written q r h
  obtain ⟨hok, -, -, hroom⟩ := h
  have hhost := s.evWrite_room q r hok hroom
  exact evWritten_congr rfl rfl rfl (hhost.reg _) hhost.dram hput

theorem State.evWrite_keepsRegs (s : State) (q : Nat) (r : EvRec) (h : ringTakes s q) :
    keepsRegs s (s.evWrite q r) [Reg.CMD_EV_PTR q] := by
  obtain ⟨hok, -, hquiet, hroom⟩ := h
  intro off hoff
  rw [(s.evWrite_room q r hok hroom).reg, s.evPut_keepsRegs q r hquiet off hoff]

/-- A record that a ring takes leaves queues, what waits for commit points, and streams. -/
theorem State.evWrite_cmd_streams (s : State) (q : Nat) (r : EvRec) (h : ringTakes s q) :
    (s.evWrite q r).cmd = s.cmd ∧ (s.evWrite q r).streams = s.streams := by
  obtain ⟨hok, -, hquiet, hroom⟩ := h
  have hstore := s.dramStore_dramOnly (ringSlot (s.reg (Reg.CMD_EV_RING q)) (s.fld (Reg.CMD_EV_PTR q) 31 16))
    (r.bytes (s.fld (Reg.CMD_EV_PTR q) 31 16)) hquiet
  rw [show s.evWrite q r = _ from s.evWrite_room q r hok hroom]
  dsimp only
  rw [State.evPut, State.setFld_cmd, State.setFld_streams, hstore]
  exact ⟨rfl, rfl⟩

end Sys2Proof.Machine
end

section
/-!
The state of a queue: STATE, HEAD, the code in STATUS, RUN and TAIL after each update, and the halt of a queue.
-/
namespace Sys2Proof.Machine

/-! ### STATUS, CTRL and TAIL -/

@[simp] theorem State.qState_setQState (s : State) (q v : Nat) (h : v < 8) : (s.setQState q v).qState q = v := by
  rw [State.qState, State.setQState, State.fld_setFld_same _ _ _ _ _ (by omega) (by omega)]
  exact Nat.mod_eq_of_lt h

@[simp] theorem State.qHead_setQState (s : State) (q v : Nat) : (s.setQState q v).qHead q = s.qHead q :=
  s.fld_setFld_other _ 31 29 v 15 0 (by omega) (by omega) (by omega) (by omega)

@[simp] theorem State.qRun_setQState (s : State) (q v : Nat) : (s.setQState q v).qRun q = s.qRun q :=
  State.bit_congr (s.setFld_keepsRegs _ 31 29 v _ (by simp)) 31

@[simp] theorem State.qState_setCode (s : State) (q v : Nat) :
    (s.setFld (Reg.CMD_Q_STATUS q) 23 16 v).qState q = s.qState q :=
  s.fld_setFld_other _ 23 16 v 31 29 (by omega) (by omega) (by omega) (by omega)

@[simp] theorem State.qHead_setCode (s : State) (q v : Nat) :
    (s.setFld (Reg.CMD_Q_STATUS q) 23 16 v).qHead q = s.qHead q :=
  s.fld_setFld_other _ 23 16 v 15 0 (by omega) (by omega) (by omega) (by omega)

@[simp] theorem State.qRun_setCode (s : State) (q v : Nat) : (s.setFld (Reg.CMD_Q_STATUS q) 23 16 v).qRun q = s.qRun q :=
  State.bit_congr (s.setFld_keepsRegs _ 23 16 v _ (by simp)) 31

@[simp] theorem State.qHead_setHead (s : State) (q v : Nat) (h : v < 65536) :
    (s.setFld (Reg.CMD_Q_STATUS q) 15 0 v).qHead q = v := by
  rw [State.qHead, State.fld_setFld_same _ _ _ _ _ (by omega) (by omega)]
  exact Nat.mod_eq_of_lt h

@[simp] theorem State.qState_setRun (s : State) (q : Nat) (b : Bool) :
    (s.setBit (Reg.CMD_Q_CTRL q) 31 b).qState q = s.qState q :=
  State.fld_congr (s.setBit_keepsRegs _ 31 b _ (by simp)) 31 29

@[simp] theorem State.qHead_setRun (s : State) (q : Nat) (b : Bool) :
    (s.setBit (Reg.CMD_Q_CTRL q) 31 b).qHead q = s.qHead q :=
  State.fld_congr (s.setBit_keepsRegs _ 31 b _ (by simp)) 15 0

@[simp] theorem State.qRun_setRun (s : State) (q : Nat) (b : Bool) : (s.setBit (Reg.CMD_Q_CTRL q) 31 b).qRun q = b := by
  rw [State.qRun, State.bit_setBit _ _ _ _ _ (by omega), if_pos rfl]

@[simp] theorem State.qState_setTail (s : State) (q : Nat) (v : Word) :
    (s.setReg (Reg.CMD_Q_TAIL q) v).qState q = s.qState q :=
  State.fld_congr (s.setReg_keepsRegs _ v _ (by simp)) 31 29

@[simp] theorem State.qHead_setTail (s : State) (q : Nat) (v : Word) :
    (s.setReg (Reg.CMD_Q_TAIL q) v).qHead q = s.qHead q :=
  State.fld_congr (s.setReg_keepsRegs _ v _ (by simp)) 15 0

/-- TAIL has 16 bits (R133). -/
@[simp] theorem State.qTail_setTail (s : State) (q : Nat) (v : Word) :
    (s.setReg (Reg.CMD_Q_TAIL q) (v &&& 0xFFFF)).qTail q = v.toNat % 65536 := by
  have hand : (v &&& 0xFFFF).toNat = v.toNat % 65536 := Nat.and_two_pow_sub_one_eq_mod v.toNat 16
  rw [State.qTail, State.fld, State.reg_setReg, if_pos rfl, wbits, bitsN, hand]
  omega

/-! ### Dropping a wait -/

theorem State.qDrop_regs (s : State) (q : Nat) : (s.qDrop q).regs = s.regs := by
  unfold State.qDrop
  split <;> rfl

theorem State.qDrop_reg (s : State) (q off : Nat) : (s.qDrop q).reg off = s.reg off := by
  rw [State.reg, s.qDrop_regs, ← State.reg]

/-- Of the state only what queue `q` waits for may change: nothing accepted is withdrawn. -/
theorem State.qDrop_frame (s : State) (q : Nat) :
    s.qDrop q = { s with cmd := { s.cmd with queues := (s.qDrop q).cmd.queues } } := by
  unfold State.qDrop
  split <;> rfl

/-- A check at another member goes on (R152, R536); every other wait is over. -/
theorem State.qDrop_wait (s : State) (q : Nat) :
    ((s.qDrop q).queue q).wait = if s.qForwards q then (s.queue q).wait else .none := by
  unfold State.qDrop
  split
  · rfl
  · simp [State.queue, State.qUnwait, State.setQueue]

/-! ### The halt of a queue -/

/-- Queue `q` HALTED with a code and RUN 0 (R151), its HALTED record yet to be written. -/
def State.qHalted (s : State) (q code : Nat) : State :=
  (((s.qDrop q).setQState q 3).setBit (Reg.CMD_Q_CTRL q) 31 false).setFld (Reg.CMD_Q_STATUS q) 23 16 code

theorem State.qHalt_at (s : State) (q code : Nat) (r : CmdRec) (index : Nat) :
    s.qHalt q code (some r) index
      = (s.qHalted q code).evWrite q (evRecord 5 code r.tag r.op r.obj 0xFF index (s.qHalted q code).ts) := (rfl)

theorem State.qHalt_none (s : State) (q code index : Nat) :
    s.qHalt q code none index
      = (s.qHalted q code).evWrite q (evRecord 5 code 0 0 0 0xFF 0 (s.qHalted q code).ts) := (rfl)

theorem State.qHalted_keepsRegs (s : State) (q code : Nat) :
    keepsRegs s (s.qHalted q code) [Reg.CMD_Q_STATUS q, Reg.CMD_Q_CTRL q] := by
  have hdrop : keepsRegs s (s.qDrop q) [] := fun off _ => s.qDrop_reg q off
  refine keepsRegs_mono (keepsRegs_trans hdrop (keepsRegs_trans (State.setFld_keepsRegs _ (Reg.CMD_Q_STATUS q) 31 29 3)
    (keepsRegs_trans (State.setBit_keepsRegs _ (Reg.CMD_Q_CTRL q) 31 false)
      (State.setFld_keepsRegs _ (Reg.CMD_Q_STATUS q) 23 16 code)))) ?_
  simp

theorem State.qHalted_frame (s : State) (q code : Nat) :
    s.qHalted q code = { s with
      regs := (s.qHalted q code).regs, cmd := { s.cmd with queues := (s.qDrop q).cmd.queues } } := by
  rw [State.qHalted, s.qDrop_frame q]
  rfl

theorem State.qHalted_state (s : State) (q code : Nat) : (s.qHalted q code).qState q = 3 := by
  simp [State.qHalted]

theorem State.qHalted_head (s : State) (q code : Nat) : (s.qHalted q code).qHead q = s.qHead q := by
  simp only [State.qHalted, State.qHead_setCode, State.qHead_setRun, State.qHead_setQState]
  exact State.fld_congr (s.qDrop_reg q _) 15 0

theorem State.qHalted_run (s : State) (q code : Nat) : (s.qHalted q code).qRun q = false := by
  simp [State.qHalted]

theorem State.qHalted_code (s : State) (q code : Nat) (h : code < 256) :
    (s.qHalted q code).fld (Reg.CMD_Q_STATUS q) 23 16 = code := by
  rw [State.qHalted, State.fld_setFld_same _ _ _ _ _ (by omega) (by omega)]
  exact Nat.mod_eq_of_lt h

theorem queueReg_lt_memSpace (q : Nat) (h : q < 16) :
    ∀ off ∈ [Reg.CMD_Q_STATUS q, Reg.CMD_Q_CTRL q], off < Reg.MEM_SPACE := by
  revert q
  decide

/-- The halt leaves the registers of the memory controller. -/
theorem State.qHalted_high (s : State) (q code off : Nat) (hq : q < 16) (h : Reg.MEM_SPACE ≤ off) :
    (s.qHalted q code).reg off = s.reg off :=
  s.qHalted_keepsRegs q code off fun hmem => Nat.not_lt.mpr h (queueReg_lt_memSpace q hq off hmem)

theorem memSpace_le_rankStatus (i : Nat) : Reg.MEM_SPACE ≤ Reg.MEM_RANK_STATUS i := by
  unfold Reg.MEM_SPACE Reg.MEM_RANK_STATUS
  omega

/-- The halt itself leaves the event ring as it takes a record. -/
theorem State.qHalted_ringTakes (s : State) (q code : Nat) (hq : q < 16) (h : ringTakes s q) :
    ringTakes (s.qHalted q code) q := by
  obtain ⟨hok, hdead, ⟨hpool, hwaiting, hawake⟩, hroom⟩ := h
  have hkeeps := s.qHalted_keepsRegs q code
  have hring : (s.qHalted q code).reg (Reg.CMD_EV_RING q) = s.reg (Reg.CMD_EV_RING q) := hkeeps _ (by simp)
  have hptr : (s.qHalted q code).reg (Reg.CMD_EV_PTR q) = s.reg (Reg.CMD_EV_PTR q) := hkeeps _ (by simp)
  have hspace : (s.qHalted q code).reg Reg.MEM_SPACE = s.reg Reg.MEM_SPACE := s.qHalted_high q code _ hq (Nat.le_refl _)
  have hmem : (s.qHalted q code).mem = s.mem := by rw [s.qHalted_frame]
  have hld : (s.qHalted q code).ld = s.ld := by rw [s.qHalted_frame]
  refine ⟨?_, by rw [hmem, hdead], ⟨by rw [hmem, hpool], by rw [hmem, hwaiting], fun i hi => ?_⟩, ?_⟩
  · rw [hring, State.ringOk_congr hspace hld, hok]
  · rw [State.rankState, State.fld_congr (s.qHalted_high q code _ hq (memSpace_le_rankStatus i)), ← State.rankState]
    exact hawake i hi
  · rwa [hring, State.fld_congr hptr, State.fld_congr hptr]

end Sys2Proof.Machine
end

section
/-!
A stale record (O58): the fetch finds it whatever row of the command table runs, and the row halts the queue.
-/
namespace Sys2Proof.Machine

theorem State.qFetch_stale (s : State) (q : Nat) (b : List Byte) (hq : q < 16) (hready : s.ready = true)
    (hrun : s.qState q = 1) (hhead : s.qHead q ≠ s.qTail q)
    (hb : s.dramFetch (ringSlot (s.reg (Reg.CMD_Q_RING q)) (s.qHead q)) 32 = some b)
    (hseq : (CmdRec.ofBytes b).seq ≠ s.qHead q % 256) : s.qFetch q = .stale (CmdRec.ofBytes b) := by
  unfold State.qFetch
  dsimp only
  rw [if_pos ⟨hq, hready, hrun, hhead⟩, hb]
  exact if_neg hseq

theorem State.queueRow_stale (s : State) (q : Nat) (r : CmdRec) (mine : CmdRec → Bool)
    (go : State → Nat → CmdRec → State) (h : s.qFetch q = .stale r) :
    s.queueRow q mine go = .next ((s.qRead q).qHalt q 0x0D (some r) (s.qHead q)) := by
  rw [State.queueRow, h]

/-- The outcome of some row of the command table (R138) for queue `q`. -/
def State.RowOf (s : State) (q : Nat) (x : Res) : Prop := ∃ mine go, x = s.queueRow q mine go

theorem State.opRow_rowOf (s : State) (q op : Nat) (mine : CmdRec → Bool) : s.RowOf q (s.opRow q op mine) := ⟨_, _, rfl⟩

theorem State.layerRow_rowOf (s : State) (q op : Nat) : s.RowOf q (s.layerRow q op) := ⟨_, _, rfl⟩

theorem execCmdBadOp_rowOf (q : Nat) (s : State) : s.RowOf q (execCmdBadOp q s) := ⟨_, _, rfl⟩

/-- Each command that executes a record of a queue is a row. -/
theorem exec_rowOf (s : State) (q : Nat) (c : Instr)
    (hc : c ∈ [Instr.cmdNop q, .setSource q, .setGeometry q, .setBlend q, .setGuard q, .setFreeze q, .flip q, .dma q,
      .fenceSignalAccept q, .fenceSignalCommit q, .fenceWait q, .waitCommit q, .cmdRegWrite q, .tableWrite q,
      .touchZone q, .decCtrlStop q, .decCtrlStart q, .decCtrlDiscard q, .encCtrlStop q, .encCtrlStart q,
      .encCtrlIrap q, .mark q, .cmdBadOp q]) : s.RowOf q (exec c s) := by
  simp only [List.mem_cons, List.not_mem_nil, or_false] at hc
  rcases hc with rfl | rfl | rfl | rfl | rfl | hc
  · exact s.opRow_rowOf q 0 _
  · exact s.layerRow_rowOf q 1
  · exact s.layerRow_rowOf q 2
  · exact s.layerRow_rowOf q 3
  · exact s.layerRow_rowOf q 4
  rcases hc with rfl | rfl | rfl | rfl | rfl | rfl | rfl | rfl | rfl | rfl | rfl | rfl | rfl | rfl | rfl | rfl | rfl | rfl
  rotate_right
  · exact execCmdBadOp_rowOf q s
  all_goals exact s.opRow_rowOf q _ _

/-- R151, R155: a queue that halts at a record, its event ring with room, is HALTED with the code and RUN 0; its HALTED
record stands in the ring, and of the registers only its own change. -/
theorem State.qHalt_at_ring (s : State) (q code : Nat) (r : CmdRec) (hq : q < 16) (hcode : code < 256)
    (hring : ringTakes s q) :
    let t := s.qHalt q code (some r) (s.qHead q)
    t.qState q = 3 ∧ t.fld (Reg.CMD_Q_STATUS q) 23 16 = code ∧ t.qHead q = s.qHead q ∧ t.qRun q = false
      ∧ evWritten s t q (evOf s q r 5 code 0)
      ∧ t.cmd = { s.cmd with queues := t.cmd.queues } ∧ t.streams = s.streams
      ∧ keepsRegs s t [Reg.CMD_Q_STATUS q, Reg.CMD_Q_CTRL q, Reg.CMD_EV_PTR q] := by
  have htakes := s.qHalted_ringTakes q code hq hring
  have hts : (s.qHalted q code).ts = s.ts := by rw [s.qHalted_frame]; rfl
  have hwrite : s.qHalt q code (some r) (s.qHead q) = (s.qHalted q code).evWrite q (evOf s q r 5 code 0) := by
    rw [State.qHalt_at, hts]
    rfl
  have hhalted := s.qHalted_keepsRegs q code
  have hkeeps := (s.qHalted q code).evWrite_keepsRegs q (evOf s q r 5 code 0) htakes
  obtain ⟨hcmd, hstreams⟩ := (s.qHalted q code).evWrite_cmd_streams q (evOf s q r 5 code 0) htakes
  have hstatus := hkeeps (Reg.CMD_Q_STATUS q) (by simp)
  dsimp only
  rw [hwrite]
  refine ⟨?_, ?_, ?_, ?_, ?_, ?_, ?_, keepsRegs_trans hhalted hkeeps⟩
  · exact (State.fld_congr hstatus 31 29).trans (s.qHalted_state q code)
  · exact (State.fld_congr hstatus 23 16).trans (s.qHalted_code q code hcode)
  · exact (State.fld_congr hstatus 15 0).trans (s.qHalted_head q code)
  · exact (State.bit_congr (hkeeps (Reg.CMD_Q_CTRL q) (by simp)) 31).trans (s.qHalted_run q code)
  · have hdram : s.dram = (s.qHalted q code).dram := by rw [s.qHalted_frame]
    exact evWritten_congr (hhalted _ (by simp)).symm (hhalted _ (by simp)).symm hdram rfl rfl
      (State.evWrite_written _ q _ htakes)
  · rw [hcmd, s.qHalted_frame]
  · rw [hstreams, s.qHalted_frame]

/-- Settles O58: the fetch finds the record stale before the row looks at it, and the read of a quiet DRAM changes nothing;
what is left is the halt. -/
theorem staleRecordHaltsItsQueue : Obligations.StaleRecordHaltsItsQueue := by
  unfold Obligations.StaleRecordHaltsItsQueue
  intro s q b hq hready hrun hhead hb hseq hring c hc
  obtain ⟨mine, go, hexec⟩ := exec_rowOf s q c hc
  have hread : s.qRead q = s := by
    obtain ⟨-, -, hquiet, -⟩ := hring
    rw [State.qRead, s.portRead_quiet 6 _ 32 b hquiet hb]
  have hfetch := s.qFetch_stale q b hq hready hrun hhead hb hseq
  rw [s.queueRow_stale q _ mine go hfetch, hread] at hexec
  obtain ⟨hstate, hcode, hhead', hrun', hevent, hcmd, hstreams, hkeeps⟩ :=
    s.qHalt_at_ring q 0x0D (CmdRec.ofBytes b) hq (by decide) hring
  exact ⟨_, hexec, hstate, hcode, hhead', hrun', hevent, by rw [hcmd], by rw [hcmd], by rw [hcmd], hstreams, hkeeps⟩

end Sys2Proof.Machine
end

section
/-!
Host writes of a queue's registers (O29). The queue registers are no mirrored state, so a write acts at once; each of the
writes then is a short run of updates of the queue's state.
-/
namespace Sys2Proof.Machine

/-! ### The writes reach their queue -/

/-- The registers of the queues are no mirrored state (R494). -/
theorem queueReg_local (q : Nat) (hq : q < 16) : ∀ off ∈ [Reg.CMD_Q_TAIL q, Reg.CMD_Q_CTRL q, Reg.CMD_EV_PTR q],
    mirroredOff off = false := by
  revert q
  decide

/-- A host's write of a queue register acts on an active and a standby alike. -/
theorem State.hostWrite_queueReg (s : State) (p : Port) (q off : Nat) (v : Word) (f : State → State)
    (h : s.access p = true) (hq : q < 16) (hoff : off ∈ [Reg.CMD_Q_TAIL q, Reg.CMD_Q_CTRL q, Reg.CMD_EV_PTR q]) :
    s.hostWrite p off v f = .next (f s) := by
  simp [State.hostWrite, h, queueReg_local q hq off hoff]

theorem exec_qTailWrite (s : State) (p : Port) (q : Nat) (v : Word) (h : s.access p = true) (hq : q < 16) :
    exec (.qTailWrite p q v) s = .next (s.qTailWrite q v) := by
  change execQTailWrite p q v s = _
  rw [execQTailWrite, if_pos hq, s.hostWrite_queueReg p q _ _ _ h hq (by simp)]

theorem exec_evRdWrite (s : State) (p : Port) (q : Nat) (v : Word) (h : s.access p = true) (hq : q < 16) :
    exec (.evRdWrite p q v) s = .next (s.evRdWrite q v) := by
  change execEvRdWrite p q v s = _
  rw [execEvRdWrite, if_pos hq, s.hostWrite_queueReg p q _ _ _ h hq (by simp)]

/-- RUN alone is written. -/
theorem exec_qRun (s : State) (p : Port) (q : Nat) (on : Bool) (h : s.access p = true) (hq : q < 16) :
    exec (.qRun p q on) s = .next (s.qRunWrite q on) := by
  change execQRun p q on s = _
  rw [execQRun, if_pos hq, s.hostWrite_queueReg p q _ _ _ h hq (by simp)]
  cases on <;> simp [State.qCtrlWrite, wbit]

/-- ABORT is written with RUN 0. -/
theorem exec_qAbort (s : State) (p : Port) (q : Nat) (h : s.access p = true) (hq : q < 16) :
    exec (.qAbort p q) s = .next ((s.qAbort q).qRunWrite q false) := by
  change execQAbort p q s = _
  rw [execQAbort, if_pos hq, s.hostWrite_queueReg p q _ _ _ h hq (by simp)]
  simp [State.qCtrlWrite, wbit]

/-- LOST_CLR is written with RUN as it reads. -/
theorem exec_lostClr (s : State) (p : Port) (q : Nat) (h : s.access p = true) (hq : q < 16) :
    exec (.lostClr p q) s = .next ((s.setFld (Reg.CMD_Q_CTRL q) 7 0 0).qRunWrite q (s.qRun q)) := by
  change execLostClr p q s = _
  rw [execLostClr, if_pos hq, s.hostWrite_queueReg p q _ _ _ h hq (by simp)]
  cases s.qRun q <;> simp [State.qCtrlWrite, wbit]

/-! ### TAIL -/

theorem State.qTailWrite_fits (s : State) (q : Nat) (v : Word) (h4 : s.qState q ≠ 4)
    (hfit : (v.toNat % 65536 + 65536 - s.qHead q) % 65536 ≤ ringSize (s.reg (Reg.CMD_Q_RING q))) :
    s.qTailWrite q v = s.setReg (Reg.CMD_Q_TAIL q) (v &&& 0xFFFF) := by
  have hring := s.setReg_keepsRegs (Reg.CMD_Q_TAIL q) (v &&& 0xFFFF) (Reg.CMD_Q_RING q) (by simp)
  simp only [State.qTailWrite, State.qState_setTail, State.qTail_setTail, State.qHead_setTail, hring]
  rw [if_neg h4, if_neg (by omega)]

theorem State.qTailWrite_overfills (s : State) (q : Nat) (v : Word) (h4 : s.qState q ≠ 4)
    (hover : ringSize (s.reg (Reg.CMD_Q_RING q)) < (v.toNat % 65536 + 65536 - s.qHead q) % 65536) :
    s.qTailWrite q v = (s.setReg (Reg.CMD_Q_TAIL q) (v &&& 0xFFFF)).qHalt q 2 none 0 := by
  have hring := s.setReg_keepsRegs (Reg.CMD_Q_TAIL q) (v &&& 0xFFFF) (Reg.CMD_Q_RING q) (by simp)
  simp only [State.qTailWrite, State.qState_setTail, State.qTail_setTail, State.qHead_setTail, hring]
  rw [if_neg h4, if_pos hover]

/-- Whatever becomes of its HALTED record, a queue that halts at no record is HALTED with the code, HEAD and TAIL as they
were. -/
theorem State.qHalt_none_reads (s : State) (q code : Nat) (hq : q < 16) (hcode : code < 256) :
    let t := s.qHalt q code none 0
    t.qState q = 3 ∧ t.fld (Reg.CMD_Q_STATUS q) 23 16 = code ∧ t.qHead q = s.qHead q ∧ t.qTail q = s.qTail q := by
  have hstate := s.qHalted_state q code
  have hkeeps := (s.qHalted q code).evWrite_queueReg q (evRecord 5 code 0 0 0 0xFF 0 (s.qHalted q code).ts) hq (by omega)
  have hstatus := hkeeps (Reg.CMD_Q_STATUS q) (by simp)
  dsimp only
  rw [State.qHalt_none]
  refine ⟨?_, ?_, ?_, ?_⟩
  · exact (State.fld_congr hstatus 31 29).trans hstate
  · exact (State.fld_congr hstatus 23 16).trans (s.qHalted_code q code hcode)
  · exact (State.fld_congr hstatus 15 0).trans (s.qHalted_head q code)
  · exact State.fld_congr ((hkeeps (Reg.CMD_Q_TAIL q) (by simp)).trans (s.qHalted_keepsRegs q code _ (by simp))) 15 0

/-! ### RUN -/

/-- R132, R151: a STOPPED or HALTED queue starts, its rings in host-accessible DRAM and its event ring with room: WAITING
where a command of it is still being checked by another member (R536). -/
theorem State.qRunWrite_starts (s : State) (q : Nat) (hstate : s.qState q = 0 ∨ s.qState q = 3)
    (h2 : s.fld Reg.SYS_BOOT_STAGE 3 0 ≠ 2) (h3 : s.fld Reg.SYS_BOOT_STAGE 3 0 ≠ 3) (hhot : s.hotBytes ≠ 0)
    (hcmd : s.ringOk (s.reg (Reg.CMD_Q_RING q)) = true) (hev : s.ringOk (s.reg (Reg.CMD_EV_RING q)) = true)
    (hfull : (s.queue q).ringFull = false) (hq : q < 16) :
    s.qRunWrite q true
      = ((s.setBit (Reg.CMD_Q_CTRL q) 31 true).qDrop q).setQState q (if s.qForwards q then 2 else 1) := by
  have hkeeps := s.setBit_keepsRegs (Reg.CMD_Q_CTRL q) 31 true
  have hspace : Reg.MEM_SPACE ∉ [Reg.CMD_Q_CTRL q] := fun hmem =>
    Nat.lt_irrefl _ (queueReg_lt_memSpace q hq _ (List.mem_cons_of_mem _ hmem))
  have hok (w : Word) : (s.setBit (Reg.CMD_Q_CTRL q) 31 true).ringOk w = s.ringOk w :=
    State.ringOk_congr (hkeeps _ hspace) rfl w
  have hforwards : (s.setBit (Reg.CMD_Q_CTRL q) 31 true).qForwards q = s.qForwards q := rfl
  have hgo : ((s.setBit (Reg.CMD_Q_CTRL q) 31 true).qUnwait q).qGo q
      = ((s.setBit (Reg.CMD_Q_CTRL q) 31 true).qUnwait q).setQState q 1 := by
    have hrun : ((s.setBit (Reg.CMD_Q_CTRL q) 31 true).qUnwait q).qRun q = true := s.qRun_setRun q true
    have hroom : (((s.setBit (Reg.CMD_Q_CTRL q) 31 true).qUnwait q).queue q).ringFull = false := by
      simpa [State.queue, State.qUnwait, State.setQueue] using hfull
    rw [State.qGo, hrun, hroom]
    rfl
  unfold State.qRunWrite
  dsimp only
  rw [if_neg (by omega), if_pos rfl, State.qState_setRun, if_pos hstate, hok, hok, hkeeps _ (by simp), hkeeps _ (by simp),
    hcmd, hev, Bool.and_self, if_pos rfl, State.qResume, hgo, State.qDrop, hforwards]
  split <;> rfl

theorem State.qRunWrite_starts_reads (s : State) (q : Nat) (hstate : s.qState q = 0 ∨ s.qState q = 3)
    (h2 : s.fld Reg.SYS_BOOT_STAGE 3 0 ≠ 2) (h3 : s.fld Reg.SYS_BOOT_STAGE 3 0 ≠ 3) (hhot : s.hotBytes ≠ 0)
    (hcmd : s.ringOk (s.reg (Reg.CMD_Q_RING q)) = true) (hev : s.ringOk (s.reg (Reg.CMD_EV_RING q)) = true)
    (hfull : (s.queue q).ringFull = false) (hq : q < 16) :
    let t := s.qRunWrite q true
    t.qRun q = true ∧ t.qState q = (if s.qForwards q then 2 else 1) ∧ t.qHead q = s.qHead q
      ∧ keepsRegs s t [Reg.CMD_Q_CTRL q, Reg.CMD_Q_STATUS q] ∧ t = { s with regs := t.regs, cmd := t.cmd } := by
  have hdrop (off : Nat) := (s.setBit (Reg.CMD_Q_CTRL q) 31 true).qDrop_reg q off
  dsimp only
  rw [s.qRunWrite_starts q hstate h2 h3 hhot hcmd hev hfull hq]
  refine ⟨?_, State.qState_setQState _ q _ (by split <;> omega), ?_, ?_, ?_⟩
  · rw [State.qRun_setQState]
    exact (State.bit_congr (hdrop _) 31).trans (s.qRun_setRun q true)
  · rw [State.qHead_setQState]
    exact (State.fld_congr (hdrop _) 15 0).trans (s.qHead_setRun q true)
  · exact keepsRegs_trans (s.setBit_keepsRegs _ 31 true)
      (keepsRegs_trans (l := []) (fun off _ => hdrop off) (State.setFld_keepsRegs _ _ 31 29 _))
  · rw [State.qDrop_frame]
    rfl

/-- R151: a RUNNING queue stops. -/
theorem State.qRunWrite_stops (s : State) (q : Nat) (hstate : s.qState q = 1)
    (h2 : s.fld Reg.SYS_BOOT_STAGE 3 0 ≠ 2) (h3 : s.fld Reg.SYS_BOOT_STAGE 3 0 ≠ 3) (hhot : s.hotBytes ≠ 0) :
    s.qRunWrite q false = (s.setBit (Reg.CMD_Q_CTRL q) 31 false).setQState q 0 := by
  unfold State.qRunWrite
  dsimp only
  rw [if_neg (by omega), if_neg (by decide), State.qState_setRun, if_pos (.inl hstate)]

/-- RUN written as it reads, to a queue whose STATE follows it, changes no register. -/
theorem State.qRunWrite_settled (s : State) (q : Nat) (on : Bool) (hrun : s.qRun q = on)
    (hstate : s.qState q = if on then 1 else 0) :
    keepsRegs s (s.qRunWrite q on) [] ∧ s.qRunWrite q on = { s with regs := (s.qRunWrite q on).regs } := by
  have hwrite : s.qRunWrite q on = s ∨ s.qRunWrite q on = s.setBit (Reg.CMD_Q_CTRL q) 31 (s.qRun q) := by
    unfold State.qRunWrite
    dsimp only
    split
    · exact .inl rfl
    · rw [State.qState_setRun, hstate, hrun]
      cases on <;> exact .inr rfl
  rcases hwrite with h | h
  · rw [h]
    exact ⟨fun _ _ => rfl, rfl⟩
  · rw [h]
    exact ⟨s.setBit_same _ 31 (by omega), rfl⟩

/-! ### ABORT -/

/-- Queue `q` STOPPED with HEAD at TAIL and RUN 0 (R152). -/
def State.qAborted (s : State) (q : Nat) : State :=
  (((s.qDrop q).setFld (Reg.CMD_Q_STATUS q) 15 0 (s.qTail q)).setBit (Reg.CMD_Q_CTRL q) 31 false).setQState q 0

theorem State.qAbort_eq (s : State) (q : Nat) (h4 : s.qState q ≠ 4) : s.qAbort q = s.qAborted q := by
  unfold State.qAbort
  dsimp only
  rw [if_neg h4, ← State.qAborted]

theorem State.qAborted_keepsRegs (s : State) (q : Nat) :
    keepsRegs s (s.qAborted q) [Reg.CMD_Q_CTRL q, Reg.CMD_Q_STATUS q] := by
  have hdrop : keepsRegs s (s.qDrop q) [] := fun off _ => s.qDrop_reg q off
  refine keepsRegs_mono (keepsRegs_trans hdrop (keepsRegs_trans (State.setFld_keepsRegs _ (Reg.CMD_Q_STATUS q) 15 0 _)
    (keepsRegs_trans (State.setBit_keepsRegs _ (Reg.CMD_Q_CTRL q) 31 false)
      (State.setFld_keepsRegs _ (Reg.CMD_Q_STATUS q) 31 29 0)))) ?_
  simp

theorem State.qAborted_frame (s : State) (q : Nat) :
    s.qAborted q = { s with
      regs := (s.qAborted q).regs, cmd := { s.cmd with queues := (s.qDrop q).cmd.queues } } := by
  rw [State.qAborted, s.qDrop_frame q]
  rfl

theorem State.qAborted_state (s : State) (q : Nat) : (s.qAborted q).qState q = 0 := by
  simp [State.qAborted]

theorem State.qAborted_run (s : State) (q : Nat) : (s.qAborted q).qRun q = false := by
  simp [State.qAborted]

theorem State.qAborted_head (s : State) (q : Nat) : (s.qAborted q).qHead q = s.qTail q := by
  have htail : s.qTail q < 65536 := s.fld_lt _ 15 0
  simp [State.qAborted, htail]

/-- R152: what ABORT with RUN 0 leaves; nothing accepted is withdrawn. -/
theorem State.qAbort_reads (s : State) (q : Nat) (h4 : s.qState q ≠ 4) :
    let t := (s.qAbort q).qRunWrite q false
    t.qHead q = s.qTail q ∧ t.qState q = 0 ∧ t.qRun q = false
      ∧ (t.queue q).wait = (if s.qForwards q then (s.queue q).wait else .none)
      ∧ t.cmd = { s.cmd with queues := t.cmd.queues }
      ∧ keepsRegs s t [Reg.CMD_Q_CTRL q, Reg.CMD_Q_STATUS q] ∧ t = { s with regs := t.regs, cmd := t.cmd } := by
  obtain ⟨hsame, hframe⟩ := (s.qAborted q).qRunWrite_settled q false (s.qAborted_run q) (s.qAborted_state q)
  have hreg (off : Nat) := hsame off List.not_mem_nil
  have hcmd : ((s.qAborted q).qRunWrite q false).cmd = { s.cmd with queues := (s.qDrop q).cmd.queues } := by
    rw [hframe, s.qAborted_frame]
  dsimp only
  rw [s.qAbort_eq q h4]
  refine ⟨?_, ?_, ?_, ?_, by rw [hcmd], keepsRegs_trans (s.qAborted_keepsRegs q) hsame, ?_⟩
  · exact (State.fld_congr (hreg _) 15 0).trans (s.qAborted_head q)
  · exact (State.fld_congr (hreg _) 31 29).trans (s.qAborted_state q)
  · exact (State.bit_congr (hreg _) 31).trans (s.qAborted_run q)
  · rw [State.queue, hcmd]
    exact s.qDrop_wait q
  · rw [hframe, s.qAborted_frame]

/-! ### LOST_CLR -/

theorem State.qRun_clearLost (s : State) (q : Nat) : (s.setFld (Reg.CMD_Q_CTRL q) 7 0 0).qRun q = s.qRun q := by
  rw [State.qRun, State.bit, State.reg_setFld, if_pos rfl, getLsbD_wput _ _ _ _ _ (by omega) (by omega), if_neg (by omega),
    ← State.bit, ← State.qRun]

/-- R156: LOST is 0; RUN written as it reads moves nothing. -/
theorem State.lostClr_reads (s : State) (q : Nat)
    (hstate : (s.qRun q = true ∧ s.qState q = 1) ∨ (s.qRun q = false ∧ s.qState q = 0)) :
    let t := (s.setFld (Reg.CMD_Q_CTRL q) 7 0 0).qRunWrite q (s.qRun q)
    t.fld (Reg.CMD_Q_CTRL q) 7 0 = 0 ∧ t.fld (Reg.CMD_Q_CTRL q) 31 8 = s.fld (Reg.CMD_Q_CTRL q) 31 8
      ∧ t.qState q = s.qState q ∧ keepsRegs s t [Reg.CMD_Q_CTRL q] ∧ t = { s with regs := t.regs } := by
  have hkeeps := s.setFld_keepsRegs (Reg.CMD_Q_CTRL q) 7 0 0
  have hstate' : (s.setFld (Reg.CMD_Q_CTRL q) 7 0 0).qState q = s.qState q := State.fld_congr (hkeeps _ (by simp)) 31 29
  have hfollows : s.qState q = if s.qRun q then 1 else 0 := by
    rcases hstate with ⟨hrun, hst⟩ | ⟨hrun, hst⟩ <;> simp [hrun, hst]
  obtain ⟨hsame, hframe⟩ := State.qRunWrite_settled _ q (s.qRun q) (s.qRun_clearLost q) (hstate'.trans hfollows)
  have hreg (off : Nat) := hsame off List.not_mem_nil
  dsimp only
  refine ⟨?_, ?_, ?_, keepsRegs_trans hkeeps hsame, ?_⟩
  · exact (State.fld_congr (hreg _) 7 0).trans (s.fld_setFld_same _ 7 0 0 (by omega) (by omega))
  · exact (State.fld_congr (hreg _) 31 8).trans
      (s.fld_setFld_other _ 7 0 0 31 8 (by omega) (by omega) (by omega) (by omega))
  · exact (State.fld_congr (hreg _) 31 29).trans hstate'
  · rw [hframe]
    rfl

/-! ### RD -/

/-- R157: with no record refused, a write of RD moves RD; the vector of the ring is sent again or its condition has
ended. -/
theorem State.evRdWrite_hostOnly (s : State) (q : Nat) (v : Word) (hfull : (s.queue q).ringFull = false) :
    (s.setFld (Reg.CMD_EV_PTR q) 15 0 v.toNat).HostOnly (s.evRdWrite q v) := by
  have hroom : ((s.setFld (Reg.CMD_EV_PTR q) 15 0 v.toNat).queue q).ringFull = false := hfull
  unfold State.evRdWrite
  dsimp only
  simp only [hroom, Bool.and_false, Bool.false_eq_true, if_false]
  split
  · rfl
  · exact State.sendVector_hostOnly _ q

theorem State.evRdWrite_reads (s : State) (q : Nat) (v : Word) (hfull : (s.queue q).ringFull = false) :
    let t := s.evRdWrite q v
    t.fld (Reg.CMD_EV_PTR q) 15 0 = v.toNat % 65536
      ∧ t.fld (Reg.CMD_EV_PTR q) 31 16 = s.fld (Reg.CMD_EV_PTR q) 31 16
      ∧ keepsRegs s t [Reg.CMD_EV_PTR q] ∧ t = { s with regs := t.regs, out := t.out, host := t.host } := by
  have hhost := s.evRdWrite_hostOnly q v hfull
  have hreg (off : Nat) := hhost.reg off
  dsimp only
  refine ⟨?_, ?_, fun off hoff => (hreg off).trans (s.setFld_keepsRegs _ 15 0 _ off hoff), ?_⟩
  · exact (State.fld_congr (hreg _) 15 0).trans (s.fld_setFld_same _ 15 0 _ (by omega) (by omega))
  · exact (State.fld_congr (hreg _) 31 16).trans
      (s.fld_setFld_other _ 15 0 _ 31 16 (by omega) (by omega) (by omega) (by omega))
  · rw [show s.evRdWrite q v = _ from hhost]
    rfl

/-! ### The obligation -/

/-- Settles O29: each write reaches its queue and is there a short run of updates of the queue's own registers and of what
it waits for. -/
theorem queueRegisterWritesMoveTheQueue : Obligations.QueueRegisterWritesMoveTheQueue := by
  unfold Obligations.QueueRegisterWritesMoveTheQueue
  intro s p q h hq
  refine ⟨fun v h4 hfit => ⟨_, exec_qTailWrite s p q v h hq, ?_⟩,
    fun v h4 hover => ⟨_, exec_qTailWrite s p q v h hq, ?_⟩,
    fun hstate h2 h3 hhot hcmd hev hfull => ⟨_, exec_qRun s p q true h hq, ?_⟩,
    fun hstate h2 h3 hhot => ⟨_, exec_qRun s p q false h hq, ?_⟩, fun h4 => ⟨_, exec_qAbort s p q h hq, ?_⟩,
    fun hstate => ⟨_, exec_lostClr s p q h hq, s.lostClr_reads q hstate⟩,
    fun v hfull => ⟨_, exec_evRdWrite s p q v h hq, s.evRdWrite_reads q v hfull⟩⟩
  · rw [s.qTailWrite_fits q v h4 hfit]
    exact ⟨s.qTail_setTail q v, s.setReg_keepsRegs _ _, rfl⟩
  · rw [s.qTailWrite_overfills q v h4 hover]
    obtain ⟨hstate, hcode, hhead, htail⟩ :=
      (s.setReg (Reg.CMD_Q_TAIL q) (v &&& 0xFFFF)).qHalt_none_reads q 2 hq (by decide)
    exact ⟨htail.trans (s.qTail_setTail q v), hstate, hcode, hhead.trans (s.qHead_setTail q _)⟩
  · exact s.qRunWrite_starts_reads q hstate h2 h3 hhot hcmd hev hfull hq
  · rw [s.qRunWrite_stops q hstate h2 h3 hhot]
    exact ⟨by simp, by simp, by simp,
      keepsRegs_trans (s.setBit_keepsRegs _ 31 false) (State.setFld_keepsRegs _ _ 31 29 0), rfl⟩
  · obtain ⟨hhead, hstate, hrun, hwait, hcmd, hkeeps, hframe⟩ := s.qAbort_reads q h4
    exact ⟨hhead, hstate, hrun, hwait, by rw [hcmd], by rw [hcmd], by rw [hcmd], by rw [hcmd], hkeeps, hframe⟩

end Sys2Proof.Machine
end
